-- ==== Sys2Proof/Word.lean ====
section
/-! DEFINITION. The plain words of the model: bytes, 64-bit registers, and the sparse table shape that the
state's indexed storage takes. Operations on them stand in Sys2Proof/Machine/Ops.lean. -/

namespace Sys2Proof

/-- One byte. -/
abbrev Byte := BitVec 8

/-- A run of bytes, lowest address first. -/
abbrev Bytes := List Byte

/-- One 64-bit register (R5). -/
abbrev Word := BitVec 64

/-- A sparse table: entries in strictly rising order of their key. -/
abbrev Tab (α : Type) := List (Nat × α)

end Sys2Proof
end

