-- ==== Sys2Proof/Syntax.lean ====
section
/-! DEFINITION. The commands of the device: one constructor of `Instr` per row of spec/opcode_table.json, with the
row's operands, and the plain operand types they carry. A row of the mailbox catalogue (R281) carries only its
channel: its request is the one that DOORBELL_RING copied (R273). A row of a host command carries its connection slot
and queue: its submission entry is the head of that queue's ring (R231). Operands named `bad` list the
(drive slot, LBA) pairs the drives fail to return during the step. -/

namespace Sys2Proof

/-- The two feed supervisors (chapter 12); also names their feeds. -/
inductive Glove where | a | b
deriving DecidableEq, Repr

/-- Why a received frame is dropped (Table 7.2). -/
inductive FrameFault where | fcs | icrc | length | notAccepted
deriving DecidableEq, Repr

/-- What a received frame's priority is told from (R199): DSCP, and PCP of a VLAN-tagged frame. -/
structure RxMark where
  dscp : Nat := 26
  pcp : Option Nat := none
deriving DecidableEq, Repr

/-- A RoCEv2 request packet at the transport (R202, R212): queue-pair index, PSN, priority mark, AckReq, whether it is the
first and the last of its message, the payload, and the RETH of an RDMA WRITE. -/
structure Pkt where
  qp : Nat
  psn : Nat
  mark : RxMark := {}
  ackReq : Bool := false
  first : Bool := true
  last : Bool := true
  payload : Bytes := []
  va : Nat := 0
  rkey : Nat := 0
  ce : Bool := false
deriving DecidableEq, Repr

/-- The spray offer of Table 7.6. -/
structure SprayOffer where
  version : Nat
  request : Bool
  txPaths : Nat
  rxPaths : Nat
  sportBase : Nat
deriving DecidableEq, Repr

/-- The NVMe-oF private data of a REQ that selects the NVMe-oF service (R258). -/
structure NvmfPriv where
  recfmt : Nat
  qid : Nat
  hsqsize : Nat
  cntlid : Nat := 0xFFFF
deriving DecidableEq, Repr

/-- The MSP connect request of Table 8.1. -/
structure MspPriv where
  magic : Nat := 0x4D53
  minVersion : Nat
  maxVersion : Nat
  queueId : Nat
  queueEntries : Nat
  icdBlocks : Nat
  reconnect : Bool := false
  connectionId : Nat
  hostId : BitVec 128
  spray : Option SprayOffer := none
deriving DecidableEq, Repr

/-- A CM REQ on QP1 (R204, R228), to an entry of the port's GID table. `reads` is the number of RDMA READs the host allows (R203). -/
structure CmReq where
  lane : Nat
  serviceId : Nat
  remoteQpn : Nat
  startPsn : Nat
  mtu : Nat
  retryCount : Nat
  rnrRetry : Nat
  reads : Nat
  priv : Bytes := []                         -- the REQ private data: 36 bytes of the RDMA IP CM service, then the protocol's (R228)
  gid : Nat := 0
  mark : RxMark := {}
deriving DecidableEq, Repr

/-- A fabric cell header (Table 6.2). `check` is HEADER_CHECK as it stands in the cell; none is the CRC that its source writes. -/
structure CellHdr where
  src : Nat
  sof : Bool
  eof : Bool
  poison : Bool := false
  notice : Bool := false
  sample : Bool := false
  priority : Nat
  integrity : Nat := 0
  encrypted : Bool := false
  targets : List Nat
  lenM1 : Nat := 255
  volumeId : Nat := 0
  commandId : Nat := 0
  stripe : Nat := 0
  position : Nat := 0
  accum : Nat := 0
  accNew : Bool := false
  accEn : Bool := false
  cellOffset : Nat := 0
  seq : Nat := 0
  check : Option (BitVec 32) := none
deriving DecidableEq, Repr

/-- A cell: header and payload (R177). `tsTag` is the tag of a flagged transmitted frame (R201). -/
structure Cell where
  hdr : CellHdr
  payload : Bytes := []
  tsTag : Option Nat := none
  mark : RxMark := {}                        -- of the frame that a network source received it in
deriving DecidableEq, Repr

/-- How a SECDED word read comes out (R174, R189); a corrected or uncorrectable error carries its syndrome. -/
inductive Ecc where | ok | corrected (syndrome : Nat) | uncorrectable (syndrome : Nat) | tagParity
deriving DecidableEq, Repr

/-- Accumulator modes (Table 6.6). -/
inductive AccMode where | full | delta | solve
deriving DecidableEq, Repr

/-- A binding control cell (R190). -/
structure AccBind where
  acc : Nat
  mode : AccMode
  k : Nat
  stripBytes : Nat
  rows : Nat            -- cells per position that the mode will see
  touched : List Nat    -- DELTA: touched positions; SOLVE: erased positions
  targets : List Nat    -- output ports of P and Q, or of the solved positions
  prio : Nat
  engine : Nat
  band : Nat
  firstBlock : Nat
  generation : Nat
deriving DecidableEq, Repr

/-- What a drive's Identify reports (R11, R34, R49, R69, R70): `capacity` in bytes, `mdts` in 4 KiB blocks with 0 for no limit. -/
structure DriveIdent where
  uniqueId : BitVec 64
  serial : Bytes
  capacity : Nat
  lbaData : Nat
  metaBytes : Nat
  protInfo : Bool
  offers16 : Bool
  offers64 : Bool
  formatOk : Bool
  sepMeta : Bool
  sgl : Bool
  vwc : Bool
  mdts : Nat
  queuePairs : Nat
  queueEntries : Nat
  fdpHandles : Nat
deriving DecidableEq, Repr

/-- A block tag (Table 2.2, Table 4.16). `fmt` is 4, or 3 for a format-3 tag. -/
structure Tag where
  crc : BitVec 64
  ref : BitVec 48
  gen : BitVec 16
  fmt : Nat := 4
deriving DecidableEq, Repr

/-- A stored block: its bytes and its tag. -/
structure Blk where
  data : Bytes
  tag : Tag
deriving DecidableEq, Repr

/-- How an NVMe command completes at the drive. -/
inductive NvmeStatus where | ok | media | internal
deriving DecidableEq, Repr

/-- The units the start self-tests find faulty (Table 13.5). -/
structure SelfTestFaults where
  banks : List Nat := []
  slices : List Nat := []
  reseq : Bool := false
  ctxCache : Bool := false
  parity : List Nat := []
  clusters : List Nat := []
  pairs : List Nat := []
  mram : Bool := false
deriving DecidableEq, Repr

/-- The PLLs and references of R337 that are neither the 25 MHz reference nor CCLK nor KCLK. -/
inductive Pll where | net (g : Nat) | drv (g : Nat) | dram (c : Nat) | hclk | sep | net156 | ref100
deriving DecidableEq, Repr

/-- A loss of the reference or of a core PLL (R337). -/
inductive CoreClock where | ref25 | cclk | kclk
deriving DecidableEq, Repr

/-- One slot's sampled inputs in a serial GPIO frame (Table 16.6): PRSNT_N, PWRFLT_N and bit 3. -/
structure SgIn where
  prsntN : Bool
  pwrfltN : Bool
  bit3 : Bool
deriving DecidableEq, Repr

/-- What the lane tests of a drive port find (Table 16.7). -/
structure LaneFindings where
  lane0Bad : Bool
  lane1Bad : Bool
  shortTo : Option Nat   -- port shorted to a lane of this one
  reversed : Bool
  polInv : Bool
  gen : Nat
  fdx : Nat := 2         -- lanes the drive offers
deriving DecidableEq, Repr

/-- A TLP at a BAR (R343, R347): byte offset, length, the bytes of a write, and the poison mark. -/
structure Tlp where
  off : Nat
  len : Nat
  write : Option Bytes
  poisoned : Bool := false
deriving DecidableEq, Repr

/-- An SMART report of a drive (R129, R368). -/
structure Smart where
  critWarning : BitVec 8
  pctUsed : Nat
  tempK : Nat
deriving DecidableEq, Repr

/-- Why an evacuation starts (EVAC_REASON of Table 15.5). -/
inductive EvacReason where | media | drift | wear | critical | backup | command
deriving DecidableEq, Repr

/-- How read data reaches a Mover half (R302). -/
inductive MoverRead where | ok (data : Bytes) | poison | hostError
deriving DecidableEq, Repr

/-- The commands: one constructor per row of spec/opcode_table.json. -/
inductive Instr where
  -- registers and network edge (chapters 0, 7, 17)
  | registerWrite (src addr size value : Nat) (sets clears : Word)
  | netLinkChange (lane : Nat) (up : Bool)
  | arpRequest (lane : Nat) (target : BitVec 128) (srcMac : BitVec 48)
  | neighbourSolicitation (lane : Nat) (target : BitVec 128) (srcMac : BitVec 48)
  | echoRequest (lane : Nat) (target : BitVec 128) (v6 : Bool) (payload : Bytes)
  | ptpMessage (lane : Nat) (frame : Bytes)
  | controlFrame (lane : Nat) (lldp : Bool) (target : BitVec 128) (frame : Bytes)
  | pfcFrame (lane : Nat) (enabled : BitVec 8) (quanta : List Nat)
  | badFrame (lane : Nat) (fault : FrameFault) (cutUnit : Option (Nat × Nat))
  | unreliableDatagram (lane qpn : Nat)
  | xon (lane prio : Nat)
  | pfcStormEgress (lane prio : Nat)
  | pfcStormIngress (lane prio : Nat)
  | pfcWatchdogRestore (lane prio : Nat) (egress : Bool)
  | ptpTxtsPop
  | gidSelect (value : Word)
  | gidCommit (value : Word)
  -- connections and transport (chapter 7)
  | cmReq (r : CmReq)
  | cmRtu (qp : Nat)
  | cmDreq (qp : Nat)
  | cmDrep (qp : Nat)
  | sqdTimeout (qp : Nat)
  | errorStateTimeout (qp : Nat)
  | sendPacket (p : Pkt)
  | rdmaWritePacket (p : Pkt)
  | readResponsePacket (p : Pkt)
  | ackPacket (qp psn : Nat)
  | sequenceErrorNak (qp psn : Nat)
  | rnrNak (qp psn timerNs : Nat)
  | errorNak (qp code : Nat)
  | invalidRequest (qp psn : Nat)
  | contextFetchDone (qp : Nat) (ok : Bool)
  | ackCoalesceTimer (qp : Nat)
  | retransmissionTimeout (qp : Nat)
  | rnrTimer (qp : Nat)
  | resequenceGapTimeout (qp : Nat)
  | readResponseGapTimeout (qp : Nat)
  | pathProbe (qp path : Nat)
  | baseWindowRoll (qp : Nat)
  | qpRevoke (rkey : Nat)
  | revokeTimeout (region : Nat)
  -- host command protocol (chapter 8)
  | capsule (conn queue : Nat)
  | flush (conn queue : Nat)
  | write (conn queue : Nat)
  | read (conn queue : Nat)
  | writeZeroes (conn queue : Nat)
  | deallocate (conn queue : Nat)
  | identify (conn : Nat)
  | getErrorLog (conn : Nat)
  | restartQueue (conn : Nat)
  | restartComplete (conn queue : Nat)
  | regionRegister (conn : Nat)
  | regionRelease (conn : Nat)
  | reset (conn : Nat)
  | resetTimeout (conn : Nat)
  | authSend (conn : Nat) (msg : Bytes)
  | authReceive (conn : Nat)
  | authTimeout (conn : Nat)
  | eventWait (conn : Nat)
  | disconnect (conn : Nat)
  | commandCompletion (cmd : Nat)
  | connectionLingerExpiry (conn : Nat)
  | writeCapWindow
  | holdStart
  | holdRelease
  | holdWindowEnd
  -- NVMe over Fabrics (chapter 8)
  | nvmfConnect (conn queue : Nat) (hostId : BitVec 128) (hostNqn : Bytes)
  | propertyGet (conn : Nat)
  | propertySet (conn : Nat)
  | authenticationSend (conn : Nat) (msg : Bytes)
  | authenticationReceive (conn : Nat)
  | nvmfDisconnect (conn queue : Nat)
  | nvmfIdentify (conn : Nat)
  | getLogPage (conn : Nat)
  | setFeatures (conn : Nat)
  | getFeatures (conn : Nat)
  | asynchronousEventRequest (conn : Nat)
  | keepAlive (conn : Nat)
  | keepAliveExpiry (conn : Nat)
  | abort (conn : Nat)
  | nvmfFlush (conn queue : Nat)
  | nvmfWrite (conn queue : Nat)
  | nvmfRead (conn queue : Nat)
  | nvmfWriteZeroes (conn queue : Nat)
  | datasetManagement (conn queue : Nat) (ranges : List (Nat × Nat))
  -- writing (chapter 2)
  | stripeAllocate (pool wseq : Nat)
  | pullReadIssue (pool wseq : Nat)
  | driveWriteIssue (pool wseq pos : Nat)
  | driveCellRead (port pool wseq pos block : Nat)
  | cellReadTimeout (port : Nat)
  | nvmeWriteComplete (slot cid : Nat) (status : NvmeStatus)
  | nvmeReadComplete (slot cid : Nat) (status : NvmeStatus) (blocks : List (Option Blk))
  | nvmeFlushSubmit (slot : Nat)
  | nvmeFlushComplete (slot : Nat)
  | headerRingWrite (pool : Nat)
  | logRecordIssue (pool stream : Nat)
  | writeAck (pool wseq : Nat)
  | undeliveredNotice (pool wseq target reason : Nat)
  | foldStripe (pool : Nat) (bad : List (Nat × Nat))
  | foldWatermarkAdjust (pool : Nat)
  | reclaimBand (pool : Nat) (bad : List (Nat × Nat))
  | bandFree (pool band : Nat)
  | stripeLockGrant (pool wseq : Nat) (bad : List (Nat × Nat))
  | inplaceWriteIssue (pool wseq : Nat)
  | intentClose (pool wseq : Nat)
  | rotationStep (vol : Nat) (bad : List (Nat × Nat))
  -- the Hatbox (chapter 3)
  | hatboxRecordAccept (ring : Nat)
  | mramWriteComplete (ring seq : Nat) (ok : Bool)
  | remapCopyDone (ring : Nat)
  | watermark (ring : Nat)
  | journalPageIssue (pool : Nat)
  | lagStall (pool : Nat)
  | copyMemberEvict (pool member : Nat)
  | epochOpen (pool reason : Nat)
  | epochCommit (pool : Nat)
  | hatboxDieFault
  | forceDriveJournal
  | hbxSelftestStart
  | hbxSelftestDone (failed : List Nat)
  | poolTailAdvance (ring : Nat) (value : Word)
  | replay (pool : Nat) (bad : List (Nat × Nat))
  -- reading and repair (chapter 4)
  | readAroundTimer (cmd block : Nat)
  | latencyWindow
  | driveCommandTimeout (slot cid : Nat)
  | driveLinkDownTimeout (slot : Nat)
  | controllerFatalStatus (slot : Nat)
  | controllerResetTimeout (slot : Nat)
  | repairStripe (pool : Nat) (bad : List (Nat × Nat))
  | repairPaceAdjust (pool : Nat)
  | latencyDriftWindow
  | evacuationStart (slot : Nat) (reason : EvacReason)
  | evacBand (slot : Nat) (bad : List (Nat × Nat))
  | scrubStripe (pool band stripe : Nat) (bad : List (Nat × Nat))
  | bandConvert (pool band : Nat) (bad : List (Nat × Nat))
  -- the map and the Map Cache (chapter 5)
  | checkpointStart (vol : Nat)
  | checkpointRoot (vol : Nat)
  | checkpointFree (vol : Nat)
  | leafPageIn (vol low : Nat)
  | nodeRebuild (vol low : Nat) (flashOk : Bool)
  | mapCacheLoad (requester addr : Nat) (ecc : Ecc)
  | mapCacheStore (addr : Nat) (bytes : Bytes)
  | mapCacheFill (addr : Nat)
  | writeThroughDrain (slice : Nat)
  | invalidate (tag : Nat) (spareLocked : Bool)
  | prefetch (tag : Nat)
  | lock (tag : Nat)
  | unlock (tag : Nat)
  | verify (tag : Nat)
  | rangeOpComplete (eccs : List (Nat × Ecc))
  | cacheDisable
  | diagWindowAccess (off : Nat) (write : Option Word)
  -- the fabric (chapter 6)
  | cellAdmission (input : Nat) (cell : Cell)
  | cellDepart (port : Nat) (ecc : Ecc)
  | fabricPortDown (port : Nat)
  | accumulatorBind (b : AccBind)
  | accumulatorCell (acc position offset : Nat) (isNew poison : Bool) (payload : Bytes)
  | accumulatorTimeout (acc : Nat)
  -- control cores and mailboxes (chapter 10)
  | pairMismatch (pair : Nat)
  | doorbellRing (ch : Nat)
  | doorbellAck (ch : Nat)
  | operationEnd (opId : Nat)
  | entdaa (addr : Nat)
  | mctpMessage (endpoint tag : Nat) (request : Bytes)
  | setEndpointId (eid : Nat)
  | getEndpointId
  | getMctpVersionSupport
  | getMessageTypeSupport
  | getVendorDefinedMessageSupport
  | inbandDatagram (lane : Nat) (source : BitVec 128) (port : Nat) (payload : Bytes)
  | mailboxIdentify (ch : Nat)
  | getOperation (ch : Nat)
  | getEvents (ch : Nat)
  | poolCreate (ch : Nat)
  | poolImport (ch : Nat) (bad : List (Nat × Nat))
  | poolExport (ch : Nat)
  | poolDelete (ch : Nat)
  | poolQuery (ch : Nat)
  | poolSet (ch : Nat)
  | poolConvert (ch : Nat)
  | lossRead (ch : Nat)
  | lossAck (ch : Nat)
  | volumeCreate (ch : Nat)
  | volumeDelete (ch : Nat)
  | volumeSet (ch : Nat)
  | volumeQuery (ch : Nat)
  | volumeAccess (ch : Nat)
  | driveInventory (ch : Nat)
  | driveAdmit (ch : Nat) (formatOk : Bool)
  | driveFail (ch : Nat)
  | driveEvacuate (ch : Nat)
  | driveRelease (ch : Nat)
  | policyGet (ch : Nat)
  | policySet (ch : Nat)
  | fwDownload (ch : Nat)
  | fwVerify (ch : Nat)
  | fwActivate (ch : Nat)
  | activationAdopt
  | activationTimeout
  | fwStatus (ch : Nat)
  | fwCommit (ch : Nat)
  | kekSession (ch : Nat)
  | kekSessionLapse (session : Nat)
  | kekLoad (ch : Nat)
  | keyLoad (ch : Nat)
  | keyRotate (ch : Nat)
  | keyUnload (ch : Nat)
  | hostSecretSet (ch : Nat)
  | inbandSecretSet (ch : Nat)
  | healthReport (ch : Nat)
  | counterRead (ch : Nat)
  | dumpConfig (ch : Nat)
  | sampleConfig (ch : Nat)
  | feedStatus (ch : Nat)
  | crownHandover (ch : Nat)
  | slotPower (ch : Nat)
  | softReset (ch : Nat)
  | regRead (ch : Nat)
  | regWrite (ch : Nat)
  | selfTest (ch : Nat) (fail : Bool)
  | rollbackRaise (value : Nat)
  -- Data Movers (chapter 11)
  | shadowWrite (ch reg : Nat) (value : Word)
  | shadowArm (ch : Nat) (withDisarm : Bool)
  | disarm (ch : Nat)
  | stop (ch : Nat)
  | stopDrained (ch : Nat)
  | clear (ch : Nat)
  | shadowHandOver (ch : Nat)
  | nextFetch (ch : Nat) (ok : Bool)
  | moverReadGrant (half : Nat)
  | moverDataReturn (ch : Nat) (r : MoverRead)
  | descriptorComplete (ch : Nat)
  -- feeds, Gloves and power domains (chapter 12)
  | gloveAlive (g : Glove)
  | feedConversion (g : Glove) (va vb : Int) (imonA imonB : Nat) (faultNA faultNB fbA fbB : Bool)
  | feedStateChange (feed : Glove)
  | gloveFrameSend (g : Glove)
  | gloveFrameReceive (g : Glove) (valid : Bool) (periodNs : Nat)
  | linkLost (g : Glove)
  | linkUp (g : Glove)
  | leaseExpiry (g : Glove)
  | crownWaitExpiry (g : Glove)
  | gateFbTimeout (feed : Glove)
  | gateReraise (feed : Glove)
  | interlockConflict
  | conflictClear
  | deadTimeExpiry
  | senseWireTest (g : Glove) (stepMv : Nat)
  | adcReferenceTest (g : Glove) (errPerMille : Nat)
  | adcAgreementTest
  | oscTimebaseTest (g : Glove) (khz : Nat)
  | standbyRailTest (g : Glove) (mv : Nat)
  | interlockTest (stage1Passes stage2Passes : Bool)
  | crownCmdHandover (dest : Glove)
  | powerGoodFall (rail : Nat)
  | feedOkRestart
  | domainRequest (value : Word)
  | domainSwitch
  | domainPowerGoodTimeout (domain : Nat)
  -- rails, starting and clocks (chapters 13, 16)
  | railSequenceStart
  | railPgRise (rail : Nat)
  | railPgTimeout (rail : Nat)
  | railRetry
  | sysRstNAssert
  | sysRstNRelease
  | bootRom
  | imageCheck
  | startSelfTest (faults : SelfTestFaults)
  | ddrTrainingDone
  | networkBringUp
  | driveEnumeration (slot : Nat) (ident : DriveIdent)
  | ledgerRead
  | mapRootLoad (vol : Nat)
  | esLevelSet (level : Nat)
  | warmStartDrainTimeout
  | bootWdogDone
  | bootWdogKick
  | wdogWarn
  | watchdogExpiry
  | clockLoss (c : CoreClock)
  | referenceReturn
  | pllLockLost (p : Pll)
  | lastTimeUpdate
  | timeSet (value : Word)
  | timeAdj (slewNs freqPpb : Int)
  -- the service endpoint (chapter 14)
  | sepLinkTraining (speed width : Nat)
  | bar0Request (pf : Nat) (tlp : Tlp)
  | bar2Request (tlp : Tlp) (eccError : Bool)
  | masterEnableClear (pf : Nat)
  | functionLevelReset (pf : Nat)
  | flrReady (pf : Nat)
  | d3hotEntry (pf : Nat)
  | winCommit (entry : Nat)
  | windowDrainDone (entry : Nat)
  | pf0Raise (vector : Nat)
  | pf1DumpWrite
  -- telemetry (chapter 15)
  | counterWrap (counter value : Nat)
  | snapshotPeriodic
  | snap
  | dumpWriteComplete (buffer : Nat)
  | frameSampleExport
  -- drive-slot sideband and package (chapter 16)
  | sgFrame (west : Bool) (inputs : List SgIn)
  | presenceDebounce (slot : Nat)
  | perstRelease (slot : Nat)
  | driveLinkTraining (slot : Nat) (f : LaneFindings)
  | sidebandRead (slot : Nat) (smart : Smart)
  | thermtrip (degrees : Int)
  | gloveLoss (g : Glove)
  | criticalWarning (slot : Nat) (smart : Smart)
  | cmRej (qp : Nat)
  | sepLinkDown (perst : Bool)
  | masterEnableSet (pf : Nat)
  | d0Return (pf : Nat)
  | completionTimeout (ch : Nat)
deriving DecidableEq, Repr

end Sys2Proof
end

