-- ==== Sys2Proof/Machine/TypesNet.lean ====
section
/-! DEFINITION. Types of the state: network ports (R194 to R201), queue pairs, resequencer and regions (R202 to R225), connections,
queues, started commands and the error log (R227 to R260). -/

namespace Sys2Proof.Machine

/-- One GID table entry (R198, Table 7.15). -/
structure Gid where
  addr : BitVec 128 := 0
  valid : Bool := false
  vlanEn : Bool := false
  vlanId : BitVec 12 := 0
deriving DecidableEq, Repr

/-- One priority of one port: pause from the peer, XOFF by the device, ingress-buffer use and the two watchdogs (R199, R200). -/
structure PfcPrio where
  pausedFrom : Option Nat := none
  pausedUntil : Nat := 0
  xoffFrom : Option Nat := none
  use : Nat := 0
  egressWdAt : Option Nat := none
  ingressWdAt : Option Nat := none
deriving DecidableEq, Repr

/-- A port, named by its first lane (R194): link state, priorities, GID table and the rate-limit windows of Table 7.2
(window start, frames passed in it). -/
structure NetPort where
  link : Bool := false
  fecLock : Bool := false
  pcsLock : Bool := false
  anDone : Bool := false
  prios : Tab PfcPrio := []
  gids : Tab Gid := []
  echoWin : Nat × Nat := (0, 0)
  ctlWin : Nat × Nat := (0, 0)
deriving DecidableEq, Repr

/-- A transmit stamp (R201, Table 7.14). -/
structure TxStamp where
  port : Nat
  tag : Nat
  time : Nat
deriving DecidableEq, Repr

/-- The network edge. -/
structure Net where
  ports : Tab NetPort := []
  stamps : List TxStamp := []
  popValid : Bool := false
  popTag : Nat := 0
  popPort : Nat := 0
  popTime : Nat := 0
deriving DecidableEq, Repr

/-- Queue-pair states (Table 7.5). -/
inductive QpState where | reset | init | rtr | rts | sqd | error
deriving DecidableEq, Repr

/-- One path of a queue pair (R216, R217): the last mark, minimum round trips of the current and previous 1 s window, last probe. -/
structure Path where
  congested : Bool := false
  curMin : Option Nat := none
  prevMin : Option Nat := none
  probeAt : Nat := 0
  sampleFrom : Option (Nat × Nat) := none   -- PSN of the AckReq packet in flight, its transmission time
deriving DecidableEq, Repr

/-- An unacknowledged outgoing message: first PSN, packets, what it is, its bytes and host address (R209). -/
inductive TxKind where | send | rdmaWrite (rkey addr : Nat) | readReq (rkey addr len : Nat)
deriving DecidableEq, Repr

structure TxMsg where
  psn : Nat
  packets : Nat
  kind : TxKind
  bytes : Bytes
deriving DecidableEq, Repr

/-- An outstanding RDMA READ Request (R203, R209, R214): its PSN range, the unit and first block it feeds, response PSNs injected, and
the start of a response gap. -/
structure ReadReq where
  psn : Nat
  packets : Nat
  rkey : Nat
  addr : Nat
  pool : Nat
  wseq : Nat
  firstByte : Nat
  bytes : Nat
  got : List Nat := []
  gapFrom : Option Nat := none
  reissued : Bool := false
deriving DecidableEq, Repr

/-- A received packet that waits for its context (R206). -/
inductive WaitPkt where
  | send (p : Pkt) | write (p : Pkt) | readResp (p : Pkt)
  | ack (psn : Nat) | seqNak (psn : Nat) | rnrNak (psn timerNs : Nat) | errNak (code : Nat) | invalid (psn : Nat)
deriving DecidableEq, Repr

/-- A queue-pair context (R205 to R217). -/
structure Qp where
  state : QpState := .reset
  conn : Nat := 0
  queue : Nat := 0
  lane : Nat := 0                            -- its fabric port (R177, R197)
  gid : Nat := 0                             -- its entry of the port's GID table
  remoteQpn : Nat := 0
  mtu : Nat := 4096
  sprayed : Bool := false
  txPaths : Nat := 1
  rxPaths : Nat := 1
  epsn : Nat := 0
  nextPsn : Nat := 0
  accepted : List Nat := []
  held : List Pkt := []
  gapFrom : Option Nat := none
  nakSent : Bool := false
  sinceAck : Nat := 0
  oldestUnacked : Option Nat := none
  dupAckAt : Option Nat := none
  partialMsg : Bytes := []
  delivered : List Bytes := []
  unacked : List TxMsg := []
  reads : List ReadReq := []
  maxReads : Nat := 16
  retryCount : Nat := 7
  retryLeft : Nat := 7
  rnrCount : Nat := 7
  rnrLeft : Nat := 7
  rnrUntil : Option (Nat × Nat) := none     -- end of an RNR wait, and the PSN to resend from
  timerFrom : Option Nat := none
  rate : Rat := 0
  nextAdjust : Nat := 0
  paceAt : Nat := 0                         -- when paced data may leave again (R216)
  paths : Tab Path := []
  rotor : Nat := 0
  enteredAt : Nat := 0
  cached : Bool := false
  lastUse : Nat := 0
  fences : List (Nat × Nat) := []
  waiting : List (Bool × WaitPkt) := []     -- in order; marked where the packet is held at ingress
  dreq : Bool := false                      -- a DREQ to answer
  drep : Bool := false                      -- a DREP received
deriving DecidableEq, Repr

/-- Region states (R218). -/
inductive RegionState where | free | active | revoking
deriving DecidableEq, Repr

/-- A gather-window region table entry (R218 to R223): `data` holds the placed bytes by offset; `pages` the backed page indices;
`naming` the command slots in flight that name the region. `release` is the (connection, CID) of a REGION_RELEASE that waits. -/
structure Region where
  state : RegionState := .free
  tag : Nat := 0
  base : Nat := 0
  length : Nat := 0
  conn : Nat := 0
  resend : Bool := false
  rnrCode : Nat := 0
  pages : List Nat := []
  data : List (Nat × Byte) := []
  naming : List Nat := []
  revokeFrom : Nat := 0
  byFirmware : Bool := false
  release : Option (Nat × Nat) := none
deriving DecidableEq, Repr

/-- The transport: contexts, regions, queue pairs waiting for a context fetch, and REQs held during an activation (R225). -/
structure Rdma where
  qps : Tab Qp := []
  regions : Tab Region := []
  fetches : List Nat := []
  heldReqs : List CmReq := []
  lastRevokeKey : Nat := 0
  revokeTimedOut : Bool := false
  useClock : Nat := 0
deriving DecidableEq, Repr

/-- A submission entry (Table 8.4). -/
structure SubEntry where
  opcode : Nat
  ordered : Bool := false
  integrity : Bool := false
  dataMode : Nat := 0
  cid : Nat
  volumeId : Nat := 0
  start : Nat := 0
  count : Nat := 0
  rkey : Nat := 0
  addr : Nat := 0
  length : Nat := 0
  guardKey : Nat := 0
  guardAddr : Nat := 0
  param0 : Nat := 0
  param1 : Nat := 0
  reservedOk : Bool := true
deriving DecidableEq, Repr

/-- A block at the network edge (R38): its stored bytes and tag, its guard outcome, and whether the key it needs was loaded (R42); with no key nothing of
it is stored. -/
structure EdgeBlk where
  blk : Blk
  guardOk : Bool
  keyOk : Bool := true
deriving DecidableEq, Repr

/-- A capsule in its ring (R231, R234). `nvme` marks an NVMe-oF entry, whose raw 64 bytes are kept beside the common form. -/
structure Capsule where
  e : SubEntry
  nvme : Bool := false
  raw : Bytes := []
  icd : List EdgeBlk := []
  icdGen : Nat := 0
  subSeq : Nat
  acceptedAt : Nat
deriving DecidableEq, Repr

/-- A queue (R227, R231, R240): ring of unstarted capsules, counts, and the freeze. -/
structure Queue where
  qp : Nat
  entries : Nat
  icd : Nat
  ring : List Capsule := []
  subSeq : Nat := 0
  started : Nat := 0
  frozen : Bool := false
  lost : Bool := false
  connected : Bool := true                       -- false on an NVMe-oF queue before its Connect
  restart : List (Nat × Bool) := []              -- waiting RESTART_QUEUEs: CID, DISCARD
deriving DecidableEq, Repr

/-- An error log entry (Table 8.11). -/
structure ErrEntry where
  seq : Nat
  time : Nat
  subSeq : Nat
  fetched : Nat
  queue : Nat
  opcode : Nat
  cid : Nat
  status : Nat
  froze : Bool := false
  undelivered : Bool := false
  queueLost : Bool := false
  more : Bool := false
  volumeId : Nat := 0
  start : Nat := 0
  count : Nat := 0
  cause : Nat := 0
  badFirst : Nat := 0
  badCount : Nat := 0
  lossRef : Nat := 0
deriving DecidableEq, Repr

/-- The NVMe-oF controller of an association (R258, R259). -/
structure NvmfCtl where
  cc : BitVec 32 := 0
  csts : BitVec 32 := 0
  kato : Nat := 0
  lastKeepAlive : Nat := 0
  numQueues : Nat := 0
  asyncCfg : Nat := 0
  errInfo : List (Nat × Nat × Nat × Nat × Nat) := []   -- SQID, CID, status, LBA, CAUSE; newest first
  changedNs : List Nat := []
  pendingEvents : List Nat := []
deriving DecidableEq, Repr

/-- A connection (R227 to R232, R239, R248 to R257). -/
structure Conn where
  id : Nat
  hostId : BitVec 128
  nvme : Bool := false
  version : Nat := 0
  queues : Tab Queue := []
  log : List ErrEntry := []
  nextError : Nat := 1
  readBelow : Nat := 1
  pendingEvents : List (Nat × Nat) := []   -- code, detail; oldest first
  lingerFrom : Option Nat := none
  authed : Bool := false
  authFails : Nat := 0
  authTranscript : Bytes := []
  repAt : Nat := 0
  resetCid : Option Nat := none
  resetFrom : Nat := 0
  regions : List Nat := []
  ctl : NvmfCtl := {}
deriving DecidableEq, Repr

/-- Where one block of a read comes from (R109): a constant, an in-flight unit, or a flash location by band and data-order
offset, or a map leaf that is not resident (R161); `got` is the checked stored block once it has it, `around` whether a reconstruction plan is also out (R121). -/
inductive RdSrc where
  | zeros | lost | torn
  | inflight (wseq : Nat)
  | flash (band off keyGen : Nat)
  | page (low : Nat)
deriving DecidableEq, Repr

structure RdBlk where
  block : Nat
  src : RdSrc
  got : Option Bytes := none
  bad : Option Nat := none          -- 1 lost, 2 torn, 3 key not loaded
  issuedAt : Option Nat := none
  around : Bool := false
  inputs : List (Nat × Option Blk) := []   -- positions read for it so far, with what the drive returned
  failed : List Nat := []                  -- those of them whose block failed its check (R113)
deriving DecidableEq, Repr

/-- A run of bad blocks reported for a command (R244, R248). -/
structure BadRun where
  first : Nat
  count : Nat
  cause : Nat
  lossRef : Nat := 0
deriving DecidableEq, Repr

/-- A started command (R240). `status` is none while it runs. -/
structure Cmd where
  conn : Nat
  queue : Nat
  e : SubEntry
  nvme : Bool := false
  raw : Bytes := []
  icd : List EdgeBlk := []
  subSeq : Nat
  acceptedAt : Nat
  startedAt : Nat
  pool : Nat := 0
  units : List Nat := []            -- WRITE_SEQs of its units still running
  unitCount : Nat := 0
  failures : List (Nat × Nat × Nat) := [] -- failed units: first block, blocks, status
  snapshot : Nat := 0
  reads : List RdBlk := []
  status : Option Nat := none
  result : Nat := 0
  runs : List BadRun := []
  cause : Nat := 0
  firstIo : Option Nat := none
  lastIo : Option Nat := none
  doneAt : Option Nat := none
  mark : Option Nat := none         -- SKID of a command sample mark (R364)
  raFlag : Bool := false
  inflightFlag : Bool := false
  redrivenFlag : Bool := false
  missFlag : Bool := false
deriving DecidableEq, Repr

/-- The activation hold (R254). -/
structure Hold where
  active : Bool := false
  start : Nat := 0
  windowMs : Nat := 1500
  exceeded : Bool := false
  lastMs : Nat := 0
deriving DecidableEq, Repr

/-- The host-queue block. `stopped` is set while a warm start keeps every queue from starting (R263); `capUnits` and `capBytes` are
what the level-3 window that began at `capStart` has used (R333). -/
structure Hq where
  conns : Tab Conn := []            -- by connection slot, 0 to 1,023
  cmds : Tab Cmd := []              -- by command slot
  hold : Hold := {}
  stopped : Bool := false
  stopAt : Nat := 0
  capStart : Nat := 0
  capUnits : Nat := 0
  capBytes : Nat := 0
deriving DecidableEq, Repr

end Sys2Proof.Machine
end

