-- ==== Sys2Proof/Machine/TypesPool.lean ====
section
/-! DEFINITION. Types of the state: drives and slots, bands, volumes, extent maps, write units, Hatbox records and rings,
pools and their on-flash images (chapters 1 to 5). -/

namespace Sys2Proof.Machine

/-! ## Hatbox records (Table 3.4) -/

/-- Record bodies, one constructor per type of Table 3.4. -/
inductive RecBody where
  | mapDelta (zeroes dealloc conditional fullStripe run poison torn : Bool)
      (wseq vol keyGen count block newBand newOff oldBand oldOff : Nat)
  | logEntry (direct zeroes : Bool) (wseq vol keyGen count block band headerBlock dataOffset entry : Nat)
  | intent (journaled mirror rotation fold : Bool)
      (wseq vol keyGen band stripe gen firstRow rowCount memberMask dataPage dataBlocks : Nat)
  | intentDone (wseq vol band stripe : Nat)
  | abandon (log : Bool) (wseq band stripe headerBlock : Nat)
  | band (band gen event position member slot : Nat)
  | keyRotate (done : Bool) (vol newKeyGen listIndex stripe row : Nat)
  | watermark (ackedBelow tailSeq nextWseq time : Nat)
  | mapRoot (vol rootBand rootOff mapGen ckptSeq : Nat)
  | epochOpen (newEpoch prevEpoch hbxBand prevBand startSeq : Nat) (controller : Word) (reason : Nat)
  | checkpointEnd (epoch recordCount firstSeq lastSeq setCrc : Nat)
  | mode (mode cause : Nat)
  | clean (lastSeq nextWseq time : Nat)
  | unknown (type : Nat)
deriving DecidableEq, Repr

/-- A record (Table 3.3). `crcOk` is whether its stored CRC matches; a torn write leaves it false (R82). -/
structure Rec where
  format : Nat := 4
  carried : Bool := false
  epoch : Nat
  seq : Nat
  body : RecBody
  crcOk : Bool := true
deriving DecidableEq, Repr

/-- A record waiting at the Hatbox port for its SEQ (R81). `carried` marks a copy made by R87, R103 or R261, and `epoch` is then the EPOCH that the
record was first written with (Table 3.3). -/
structure RecReq where
  body : RecBody
  carried : Bool := false
  epoch : Nat := 0
deriving DecidableEq, Repr

/-- A pool directory entry (Table 3.2). -/
structure DirEntry where
  assigned : Bool := false
  driveJournal : Bool := false
  poolId : Word := 0
  epoch : Nat := 0
  hbxBand : Nat := 0
  floorSeq : Nat := 0
deriving DecidableEq, Repr

/-- One journal ring (R78, R81, R87): its directory entry, its slots by slot number, writes in flight (SEQ, retries used),
records whose validity is known with the shelf time they became valid, retired SEQs, and requests not yet accepted. -/
structure Ring where
  dir : DirEntry := {}
  slots : Tab Rec := []
  queue : List RecReq := []
  inflight : List (Nat × Nat) := []
  validAt : Tab Nat := []
  retired : List Nat := []
  head : Nat := 0
  tail : Nat := 0
  epoch : Nat := 0
  stalled : Bool := false
  lagStalled : Bool := false
  remapBusy : List Nat := []                 -- logical segments whose live records are being copied to a spare (R103)
deriving DecidableEq, Repr

/-- The boot record (Table 13.4). -/
structure BootRec where
  attempts : Nat := 0
  bootSlot : Nat := 0
  lastSlot : Nat := 0
  seq : Nat := 0
  attemptSerial : Nat := 0
  pfSerial : Nat := 0
  pfTime : Nat := 0
  pfVA : Nat := 0
  pfVB : Nat := 0
  lastCause : Nat := 0
  lastTime : Nat := 0
deriving DecidableEq, Repr

/-- The Hatbox die and port: rings, remap table (logical segment to physical), writes by physical 64-byte line and writes
of every line of a physical segment, failed physical segments, shelf-area records,
self-test, and drive-journal mode (R78 to R106, R326). `boot` copies are none when not valid. -/
structure Hatbox where
  rings : Tab Ring := []
  remap : Tab Nat := []
  segFailed : List Nat := []
  lineWrites : Tab Nat := []
  segWrites : Tab Nat := []
  spareFree : Nat := 28
  dead : Bool := false
  mramOk : Bool := false
  driveJournal : Bool := false
  djCause : Nat := 0
  selftestBusy : Bool := false
  selftestResult : Nat := 0
  selftestFailed : Nat := 0
  remaps : Nat := 0
  verifyFails : Nat := 0
  boot0 : Option BootRec := none
  boot1 : Option BootRec := none
  bootStandby : Option BootRec := none
  rollback0 : Option Nat := none
  rollback1 : Option Nat := none
  nextEventSeq : Option Nat := none
  pfWarning : Option (Nat × Nat × Nat) := none
deriving DecidableEq, Repr

/-! ## Drives and slots -/

/-- Inventory states (R284). -/
inductive DrvState where
  | empty | present | noformat | stale | ready | member | evacuating | failed | removed | linkFault
deriving DecidableEq, Repr

/-- What an outstanding drive command is for: a segment of a unit's position, an input of a host read, a block of the header ring, a journal page (by its first SEQ), journaled data (R65), a log record's copy, a write of a system job, a deallocate. -/
inductive CmdOwner where
  | unit (pool wseq pos seg : Nat)
  | hostRead (cmd block pos : Nat)
  | header (pool ringBlock : Nat)
  | page (pool first : Nat)
  | jdata (pool wseq first : Nat)
  | logRec (pool stream band rec pos : Nat)
  | sys (pool job item : Nat)
  | slot (slot : Nat)
deriving DecidableEq, Repr

/-- NVMe operations the device issues. -/
inductive NvmeOp where | read | write | flush | dealloc
deriving DecidableEq, Repr

/-- An outstanding NVMe command. -/
structure DrvCmd where
  cid : Nat
  op : NvmeOp
  lba : Nat
  count : Nat
  owner : CmdOwner
  queue : Nat := 0
  submitAt : Nat
  tries : Nat := 0
  around : Bool := false
deriving DecidableEq, Repr

/-- The latency model of one direction (R118): mean, window histogram of 64 buckets (sparse), p99 and rate of the previous window. -/
structure Lat where
  mean : Rat := 0
  hist : Tab Nat := []
  p99 : Nat := 0
  bytes : Nat := 0
  rate : Rat := 0
deriving DecidableEq, Repr

/-- A member entry of a Pool Ledger (Table 4.12). -/
inductive MemberState where | unused | active | evacuating | failed | removed
deriving DecidableEq, Repr

structure Member where
  uid : BitVec 64
  state : MemberState
  flushed : Bool := false
  plp : Bool := false
  fdp : Bool := false
  meta64 : Bool := false
  slots : Nat
  capacity : Nat
  admitted : Nat
  serial : Bytes := []
  driveSlot : Option Nat := none
  used : List Nat := []
deriving DecidableEq, Repr

/-- A loss record (Table 4.7). -/
structure Loss where
  seq : Nat
  time : Nat
  vol : Nat
  torn : Bool
  cause : Nat
  count : Nat
  first : Nat
  band : Nat
  stripe : Nat
  position : Nat
  member : Nat
deriving DecidableEq, Repr

/-- A bad-block entry (Table 4.15). -/
structure BadBlock where
  vol : Nat
  torn : Bool
  count : Nat
  first : Nat
deriving DecidableEq, Repr

/-- Band states and classes (Table 4.14). -/
inductive BandState where | free | opened | closed | converting
deriving DecidableEq, Repr

/-- A Band Table entry (Table 4.14) with the DRAM state that goes with it: the next unallocated stripe (or log block), abandoned stripes,
live blocks (R71) and the stripes rebuilt on each substituted position (R125). -/
structure Band where
  gen : Nat
  state : BandState
  cls : Nat
  fmt : Nat := 4
  k : Nat
  w : Nat
  stripShift : Nat
  repairMask : List Nat := []
  allocCount : Nat
  allocTime : Nat
  scrubTime : Nat
  scrubNext : Nat := 0                       -- stripes below this are scrubbed in the pass under way (R139)
  evac : Option (Nat × Nat × Nat) := none    -- position, member, slot
  convertCursor : Nat := 0
  g2gen : Nat := 0
  members : List (Nat × Nat)                 -- member index, slot, by position
  next : Nat := 0
  abandoned : List Nat := []
  live : Nat := 0
  rebuilt : List (Nat × Nat) := []           -- position and stripe
  unknownRebuild : List Nat := []            -- positions whose rebuilt stripes a restart forgot (R125)
  movesSeq : Nat := 0                        -- SEQ below which the records that emptied it lie (R61)
deriving DecidableEq, Repr

/-! ## Volumes and the extent map -/

/-- Extent kinds (Table 5.2). -/
inductive ExtKind where | mapped | zeroes | lost | torn
deriving DecidableEq, Repr

/-- An extent record (Table 5.2). -/
structure Extent where
  start : Nat
  len : Nat
  kind : ExtKind
  band : Nat := 0xFFFFFF
  off : Nat := 0
  keyGen : Nat := 0
deriving DecidableEq, Repr

/-- A leaf node of a volume's tree (Table 5.1): key range, entries, whether changed since the last checkpoint, resident in a frame,
its flash place, and its last use. While a leaf is not resident its entries here stand for those that its place on flash holds. -/
structure Leaf where
  low : Nat
  high : Nat
  extents : List Extent := []
  dirty : Bool := false
  resident : Bool := true
  place : Option (Nat × Nat) := none
  lastUse : Nat := 0
deriving DecidableEq, Repr

/-- An interior node of a volume's tree (Tables 5.1, 5.3): level, key range, whether changed since the last checkpoint, and its flash place. Its children are
the nodes one level down whose ranges lie in its own. -/
structure Inner where
  level : Nat
  low : Nat
  high : Nat
  dirty : Bool := true
  place : Option (Nat × Nat) := none
deriving DecidableEq, Repr

/-- A map node as flash holds it (Tables 5.1 to 5.3): a leaf has extents, an interior node children (KEY, CHILD_BAND, CHILD_BLOCK). -/
structure MapNode where
  fmt : Nat := 4
  level : Nat
  vol : Nat
  mapGen : Nat
  low : Nat
  high : Nat
  seq : Nat
  extents : List Extent := []
  children : List (Nat × Nat × Nat) := []
  reservedKind : Bool := false               -- an extent record's KIND is reserved (R154)
deriving DecidableEq, Repr

/-- A running checkpoint (R158): cut S, the image (leaves and interior nodes), the system job that writes its nodes, whether MAP_ROOT has been sent, and
the places of the superseded nodes. -/
structure Ckpt where
  cut : Nat
  image : List Leaf
  inner : List Inner := []
  job : Option Nat := none
  rootSent : Bool := false
  oldPlaces : List (Nat × Nat) := []
deriving DecidableEq, Repr

/-- A key rotation (R42, R96): the pointer (band-list index, stripe, row). -/
structure Rotation where
  list : Nat := 0
  stripe : Nat := 0
  row : Nat := 0
deriving DecidableEq, Repr

/-- A pending-block index entry (R60): block, WRITE_SEQ, and where the log holds it. -/
structure PendingBlk where
  block : Nat
  wseq : Nat
  band : Nat
  off : Nat
  keyGen : Nat
  zeroes : Bool := false
deriving DecidableEq, Repr

/-- Volume kinds (Table 4.15). -/
inductive VolKind where | mapped | direct
deriving DecidableEq, Repr

/-- A volume (Table 4.15) with its access list, map, checkpoint, overlay and index. -/
structure Volume where
  pool : Nat
  kind : VolKind
  encrypted : Bool
  passThrough : Bool
  keyGen : Nat := 0
  prevKeyGen : Nat := 0
  capacity : Nat
  bandList : List Nat := []
  listBand : Nat := 0xFFFFFFFF               -- where the band list lies (R146)
  listOff : Nat := 0
  listPages : Nat := 0
  listSeq : Nat := 0                         -- PAGE_SEQ of its band-list pages
  gens : List (Nat × Nat × Nat) := []        -- direct: runs [start, end) under a key generation that the rotation pointer does not give (log entry 48)
  keyCheck : BitVec 32 := 0
  nguid : BitVec 128 := 0
  created : Nat := 0
  hosts : List (BitVec 128) := []
  leaves : List Leaf := []
  inner : List Inner := []
  overlay : List RecBody := []               -- records replayed before the root was loaded, in WRITE_SEQ order (R163)
  rootLoaded : Bool := true
  mapGen : Nat := 0
  cut : Nat := 0
  rootPlace : Option (Nat × Nat) := none
  nodePlaces : List (Nat × Nat) := []        -- flash places of the nodes that the root reaches: the node table (R161)
  ckpt : Option Ckpt := none
  dirtySince : Option Nat := none
  rotation : Option Rotation := none
  rotating : Bool := false
  pending : List PendingBlk := []
deriving DecidableEq, Repr

/-! ## Write units -/

/-- Write paths (Table 2.3, R62, R68). -/
inductive WPath where
  | fullFresh | log | freshRun | plainRun | padded | fullInPlace | rmw | mirrorInPlace | plainInPlace | mapOnly
deriving DecidableEq, Repr

/-- How far a unit has come. `waitPlace` waits for STRIPE_ALLOCATE, `waitLock` for its stripe lock, `waitIntent` for INPLACE_WRITE_ISSUE. -/
inductive UStage where | waitPlace | waitLock | waitIntent | writing | acked | failed
deriving DecidableEq, Repr

/-- A member position that a unit writes: the band position, drive slot, first LBA, its blocks, segments issued and done, and whether
it was lost from the delivery mask (R186). -/
structure Target where
  pos : Nat
  slot : Nat
  lba : Nat
  count : Nat
  issued : Nat := 0
  done : Nat := 0
  onFlash : Nat := 0
  missing : Bool := false
deriving DecidableEq, Repr

/-- Where a block that a background unit moves stood: volume block, old place and key generation, and the WRITE_SEQ of the log entry that held it. -/
structure Move where
  vol : Nat
  block : Nat
  band : Nat
  off : Nat
  keyGen : Nat
  wseq : Nat := 0
deriving DecidableEq, Repr

/-- A write unit in the in-flight write table (R43, R45). `zero` marks WRITE_ZEROES, `dealloc` DEALLOCATE; `data` holds the
blocks the edge has passed so far (none: not yet arrived). A unit of folding, reclaim or relocation has `fold` and, in `moves`, the old place of each
of its blocks; one that rotates a key has `rotation`, spans its stripe, and writes only `rows` of it: first row and count; its `data` then lists those rows position by
position. `headers` counts header-ring slots not yet on flash, `recsLeft` locating records not yet accepted; `recSeq` is
the SEQ of the last one accepted and `recValid` whether R85 has told of their validity. -/
structure Unit where
  vol : Nat
  cmd : Option Nat
  start : Nat
  count : Nat
  path : WPath
  stage : UStage
  keyGen : Nat := 0
  zero : Bool := false
  dealloc : Bool := false
  fold : Bool := false
  rotation : Bool := false
  moves : List Move := []
  rows : Option (Nat × Nat) := none
  data : List (Option EdgeBlk) := []
  raw : List (Nat × Bytes) := []             -- pulled bytes not yet past the edge, by offset, merged
  band : Nat := 0
  stripe : Nat := 0
  off : Nat := 0
  hdrBlock : Nat := 0
  entry : Nat := 0
  acc : Option Nat := none
  headers : Nat := 0
  recSent : Bool := false
  recsLeft : Nat := 0
  recSeq : Option Nat := none
  recValid : Bool := false
  targets : List Target := []
  fails : Nat := 0
  cmdSeq : Nat := 0                          -- WRITE_SEQ of its command's first unit: units with the same share an entry of the table (R45)
  journaled : Bool := false
  jPlaced : Bool := false                    -- its journaled data has its place and is being written
  closing : Bool := false                    -- its INTENT_DONE has been sent and is not valid yet
  dataPage : Nat := 0                        -- where its journaled data begins in the drive copy (R83)
  jTodo : List (Nat × Nat) := []             -- writes of journaled data not yet on flash: member, first block (R65)
  applied : Bool := false
  intentOpen : Bool := false
  pulled : Nat := 0
  oldRows : List (Nat × Nat × Bytes) := []   -- position, row, stored bytes of old row blocks that the parity needs (R64)
  delta : List Nat := []                     -- rows whose parity comes by read-modify (R64)
  toMove : List Nat := []                    -- positions to move to a substitute (R395)
  wantGuard : Bool := false
  cold : Bool := false                       -- its Mitten copy went missing (R73)
  waitsHold : List (Nat × Nat × Nat × Nat) := []   -- held drive reads: port, position, block, since when (R49)
deriving DecidableEq, Repr

/-- An entry of a log record: WRITE_SEQ, first data block in the slot, data blocks, and whether its unit is gone from it (R53, R74). -/
structure LogEnt where
  wseq : Nat
  off : Nat
  count : Nat
  dead : Bool := false
deriving DecidableEq, Repr

/-- A mirror-log record (R53, R55): its header block in the slot, entries, data blocks, whether and when issued, and the positions that have it. -/
structure LogRec where
  band : Nat
  headerBlock : Nat
  entries : List LogEnt := []
  dataBlocks : Nat := 0
  issued : Bool := false
  issuedAt : Nat := 0
  donePos : List Nat := []
  subst : List Nat := []                     -- positions whose copy goes to a substitute (R73)
deriving DecidableEq, Repr

/-- A log stream (R52): its open band and its records, oldest first; the last unissued one is open. -/
structure LogStream where
  band : Option Nat := none
  recs : List LogRec := []
deriving DecidableEq, Repr

/-- A Mitten entry (R56): blocks kept in DRAM until folded or superseded. -/
structure MittenBlk where
  vol : Nat
  block : Nat
  wseq : Nat
  blk : Blk
deriving DecidableEq, Repr

/-- A stripe write header (Table 2.4). -/
structure StripeHdr where
  direct : Bool := false
  encrypted : Bool := false
  fold : Bool := false
  mixed : Bool := false
  padded : Bool := false
  part : Bool := false
  k : Nat
  w : Nat
  wseq : Nat
  band : Nat
  stripe : Nat
  gen : Nat
  vol : Nat
  keyGen : Nat
  blockCount : Nat
  volBlock : Nat
  time : Nat
  firstOff : Nat := 0
deriving DecidableEq, Repr

/-- A ring block of the header ring in flight: headers and the copy members still to complete (R51). -/
structure HdrBlock where
  idx : Nat
  band : Nat := 0
  headers : List StripeHdr
  todo : List Nat
deriving DecidableEq, Repr

/-- A journal page in flight (R90, R91): its place in the journal area, the band, epoch and time of its header, its records. -/
structure JPage where
  idx : Nat
  band : Nat := 0
  epoch : Nat := 0
  time : Nat := 0
  firstSeq : Nat
  recs : List Rec
  oldestValid : Nat
  todo : List Nat
deriving DecidableEq, Repr

/-- A journal-area block in use (R90, R92), by its place counted from the start of the area: a page with the SEQs of its records, or journaled data with
its unit's WRITE_SEQ; `ckpt` marks a block of the epoch's checkpoint set. -/
structure AreaBlk where
  band : Nat := 0
  idx : Nat
  count : Nat := 1
  first : Nat := 0
  last : Nat := 0
  data : Option Nat := none
  ckpt : Bool := false
deriving DecidableEq, Repr

/-- An epoch being opened (R93): number, reason, the new band and its members, the job that writes its band header, and once EPOCH_OPEN has its SEQ, that SEQ,
the checkpoint set and the job that writes it; the next places of its journal area and the first of its header ring. -/
structure Opening where
  epoch : Nat
  reason : Nat
  band : Nat
  members : List Nat
  job : Nat := 0
  openSeq : Option Nat := none
  set : List Rec := []
  setJob : Nat := 0
  nextPage : Nat := 0
  hdrBase : Nat := 0
deriving DecidableEq, Repr

/-- The Hatbox drive copy of a pool (R89 to R95): band, members in use, pages in flight, pages on flash, header ring and journaled data. -/
structure DriveCopy where
  band : Nat := 0xFFFFFFFF
  members : List Nat := []
  nextPage : Nat := 0    -- place of the next page or journaled block in the journal area
  nextHdr : Nat := 0     -- ring blocks placed so far, those of the band in use from hdrBase
  hdrBase : Nat := 0
  openWseq : Nat := 0    -- units below it were there when the epoch being opened began (R93 step 4)
  copied : Nat := 0
  gapAt : Option Nat := none                 -- lowest SEQ that replay found in MRAM alone: only a new epoch brings it to the drives
  pagedTo : Nat := 0                         -- next SEQ to go into a page
  inflight : List JPage := []
  area : List AreaBlk := []                  -- newest first
  hdrQueue : List StripeHdr := []
  hdrInflight : List HdrBlock := []
  hdrPlaced : List (Nat × List StripeHdr) := []   -- ring blocks of the band in use, newest first (R51)
  opening : Option Opening := none
  freeing : Option (Nat × Nat) := none       -- the previous band, freed once a job has recorded the new epoch (R93 step 6)
  exposed : Bool := false
deriving DecidableEq, Repr

/-! ## System structures on flash -/

/-- A volume entry of the volume table (Table 4.15). -/
structure VolEntry where
  vol : Nat
  kind : VolKind
  encrypted : Bool
  passThrough : Bool
  keyGen : Nat
  prevKeyGen : Nat
  capacity : Nat
  listBand : Nat
  listOff : Nat
  listPages : Nat
  keyCheck : BitVec 32
  nguid : BitVec 128
  created : Nat
  gens : List (Nat × Nat × Nat) := []        -- not a field of Table 4.15 (log entry 48)
deriving DecidableEq, Repr

/-- A word of the slot directory (R144). -/
structure SlotWord where
  band : Nat
  gen : Nat
  pos : Nat
  cls : Nat
deriving DecidableEq, Repr

/-- A Pool Ledger copy (Tables 4.10 to 4.12): header fields, member table, system band directory, volume table, this drive's slot directory and the loss
area. `valid` is false between the write of changed body blocks and that of the header, while BODY_CRC does not match (R142). In format 3 the Band Table and
the band lists lie in the copy itself (Table 4.16). -/
structure Ledger where
  fmt : Nat := 4
  copy : Nat := 0
  formatOldest : Nat := 4
  state : Nat := 0
  poolId : Word
  gen : Nat
  seed : Word
  controller : Word
  layout : Nat
  k : Nat
  stripShift : Nat
  spare : Nat
  balance : Nat
  logReserve : Nat
  epoch : Nat := 0
  hbxBand : Nat := 0xFFFFFFFF
  bbtBand : Nat := 0xFFFFFFFF
  bbtPages : Nat := 0
  lossHead : Nat := 0
  lossAcked : Nat := 0
  created : Nat := 0
  updated : Nat := 0
  members : Tab Member := []
  dirSeq : Nat := 0
  dir : Tab Band := []                       -- the Band Table bands
  vols : List VolEntry := []
  slots : Tab SlotWord := []
  losses : List Loss := []
  bands3 : Tab Band := []                    -- format 3: Band Table entries, and each volume's band list
  lists3 : Tab (List Nat) := []
  valid : Bool := true
deriving DecidableEq, Repr

/-- The header of a page of Table 4.13. -/
structure PageHdr where
  fmt : Nat := 4
  count : Nat
  index : Nat
  vol : Nat := 0
  seq : Nat
  poolId : Word
deriving DecidableEq, Repr

/-- The header of a journal page (Table 3.8). -/
structure JPageHdr where
  gen : Nat
  band : Nat
  epoch : Nat
  index : Nat
  first : Nat
  last : Nat
  time : Nat
deriving DecidableEq, Repr

/-- A record of a format-3 journal (Table 4.17): an INTENT, or with `done` an INTENT_DONE. -/
structure Rec3 where
  done : Bool := false
  vol : Nat
  band : Nat
  stripe : Nat
  firstRow : Nat
  rowCount : Nat
  journaled : Bool := false
  mirror : Bool := false
  seq : Nat
  dataPage : Nat := 0
  crcOk : Bool := true
deriving DecidableEq, Repr

/-- What a 4 KiB system block holds: a Band Table, Bad Block Table or band-list page, a map node, the header, a ring block or a journal page of a Hatbox band,
a page of a format-3 journal, or a structure of a format or MAGIC that the device does not know (R147). -/
inductive SysBody where
  | bandPage (h : PageHdr) (entries : Tab Band)
  | badPage (h : PageHdr) (entries : List BadBlock)
  | listPage (h : PageHdr) (bands : List Nat)
  | node (n : MapNode)
  | hbxHeader (gen band epoch : Nat) (poolId : Word) (created : Nat)
  | ringBlock (headers : List StripeHdr)
  | journalPage (h : JPageHdr) (recs : List Rec)
  | journal3 (recs : List Rec3)
  | unknown (data : Bytes)
deriving DecidableEq, Repr

/-- A system block on flash (R40): what it holds and its tag's REF. A block that a power cut tore has `torn`, and fails its tag check. -/
structure SysBlk where
  body : SysBody
  ref : BitVec 48
  torn : Bool := false
deriving DecidableEq, Repr

/-- One write of a system job: a system block at an LBA, or a part of a Pool Ledger copy: changed body blocks, the header, a block of the slot directory, the
loss area; or a block of journaled data that a new Hatbox band takes over (R93, R136, R142, R144). -/
inductive SysPut where
  | block (lba : Nat) (b : SysBlk)
  | body (l : Ledger)
  | head (l : Ledger)
  | slots (copy : Nat) (words : Tab SlotWord)
  | losses (copy : Nat) (l : List Loss)
  | data (lba : Nat) (x : Blk)
deriving DecidableEq, Repr

/-- A job of system writes (R142, R144 to R146, R158): phases in order, each a list of drive slots and writes; a phase is issued when the one before it is on
flash. `bands` are the bands whose BAND records must be valid first (R145); a job with `free` waits for no job before it; `todo` numbers the writes of the phase issued that are not on flash. -/
structure SysJob where
  id : Nat
  bands : List Nat := []
  entries : List Nat := []                   -- the bands whose Band Table entries it writes
  free : Bool := false
  phases : List (List (Nat × SysPut))
  issued : Bool := false
  todo : List Nat := []
deriving DecidableEq, Repr

/-- The zero blocks that R391 wrote over a whole slot: an LBA of the slot with no entry in the drive's flash holds its zero block. `pos` is the position in
the band, `first` the volume block of the band's first. -/
structure Fill where
  vol : Nat
  band : Nat
  gen : Nat
  pos : Nat
  k : Nat
  stripShift : Nat
  mirror : Bool
  first : Nat
deriving DecidableEq, Repr

/-- What the drives of a pool hold of its system structures, as a reader puts it together (R90, R142 to R146, R154). The PAGE_SEQs are by Band Table page
and by volume. -/
structure PoolImage where
  bands : Tab Band := []
  pageSeqs : Tab Nat := []
  bbt : List BadBlock := []
  bbtSeq : Nat := 0
  vols : List VolEntry := []
  lists : Tab (List Nat) := []
  listSeqs : Tab Nat := []
  losses : List Loss := []
  journal : List Rec := []
  headers : List StripeHdr := []
  area : List AreaBlk := []                  -- blocks of the journal area in use, and ring blocks, of the band that the ledger names
  ring : List (Nat × List StripeHdr) := []
  g2open : List Rec3 := []
  badPlace : Option (Nat × Nat) := none      -- drive slot and LBA of a structure that R147 refuses
deriving DecidableEq, Repr

/-- What a Write on a drive in flushed mode replaced: at an LBA its block, and of a Pool Ledger copy the copy as it was; `covered` by a Flush under way. While no
Flush has covered it the drive's volatile cache may lose the Write with its power (R33, R34). -/
structure CachedWrite where
  lba : Nat
  blk : Option Blk
  sys : Option SysBlk
  copy : Option (Nat × Option Ledger) := none
  covered : Bool := false
deriving DecidableEq, Repr

/-- A drive and its slot: sideband (R379 to R381), link, inventory, Identify, queues, latency model, health, and what its flash holds. -/
structure Drive where
  state : DrvState := .empty
  pool : Option Nat := none
  member : Option Nat := none
  ident : Option DriveIdent := none
  metaFmt : Nat := 16
  prsntN : Bool := true
  prsntSince : Nat := 0
  prsnt : Bool := false
  pwren : Bool := false
  pwrenAt : Nat := 0
  perst : Bool := true
  faultLatched : Bool := false
  setOff : Bool := false
  pwrfltN : Bool := true
  linkUp : Bool := false
  downSince : Option Nat := none
  gen : Nat := 0
  width : Nat := 0
  reversed : Bool := false
  polInv : Bool := false
  degraded : Bool := false
  linkFault : Bool := false
  flushed : Bool := false
  plp : Bool := false
  cmds : List DrvCmd := []
  held : List DrvCmd := []                   -- commands that wait for room in their queue (R69)
  nextCid : Nat := 0
  flushing : Option (List (CmdOwner × Nat)) := none
  unflushed : List (CmdOwner × Nat) := []
  cached : List CachedWrite := []            -- newest first
  rd : Lat := {}
  wr : Lat := {}
  timeouts : List Nat := []
  timeoutCount : Nat := 0
  mediaTimes : List Nat := []
  mediaCount : Nat := 0
  lastMedia : Option (Nat × Nat × Nat) := none   -- LBA, time, cause
  driftHits : Nat := 0
  critWarning : BitVec 8 := 0
  pctUsed : Nat := 0
  tempK : Nat := 0
  evacReason : Nat := 0
  evacWaiting : Bool := false
  evacOp : Option Nat := none
  queues : Nat := 0                          -- I/O queue pairs created and their depth (R69)
  queueDepth : Nat := 0
  window : Nat := 0                          -- next position of the port's write window (R49)
  flash : Tab Blk := []
  sys : Tab SysBlk := []
  fills : Tab Fill := []
  ledger0 : Option Ledger := none
  ledger1 : Option Ledger := none
deriving DecidableEq, Repr

/-- A reconstructed block of a mapped volume that waits for the pool's next fold stripe (R116): its old place and stored bytes. -/
structure Reloc where
  vol : Nat
  block : Nat
  band : Nat
  off : Nat
  keyGen : Nat
  data : Bytes
deriving DecidableEq, Repr

/-- A block that waits to be written at its own place by a repair (R116). -/
structure Mend where
  band : Nat
  stripe : Nat
  pos : Nat
  row : Nat
  blk : Blk
deriving DecidableEq, Repr

/-- An imported pool. -/
structure Pool where
  id : Word
  ring : Nat
  layout : Nat                               -- Table 4.11 code
  k : Nat
  stripShift : Nat
  spare : Nat
  balance : Nat
  logReserve : Nat
  seed : Word
  gen : Nat := 1
  formatOldest : Nat := 4
  created : Nat := 0
  state : Nat := 0                           -- Table 4.8
  tableBands : List Nat := []                -- Band Table bands in directory order (R144)
  tabled : Tab Band := []                    -- Band Table entries as last given to a page write
  pageSeqs : Tab Nat := []                   -- PAGE_SEQ of each page written, by band table page; the directory's is dirSeq
  dirSeq : Nat := 0
  bbtBand : Option Nat := none
  bbtTabled : List (List BadBlock) := []     -- Bad Block Table pages as last written
  bbtSeq : Nat := 0
  volsTabled : List VolEntry := []           -- volume table as last given to a ledger write
  listTable : Option Nat := none             -- the open band of band-list pages
  jobs : List SysJob := []
  nextJob : Nat := 0
  online : Bool := true
  members : Tab Member := []
  bands : Tab Band := []
  allocCount : Nat := 0
  losses : List Loss := []
  lossHead : Nat := 0
  lossAcked : Nat := 0
  lossOverflow : Bool := false
  lossReports : List (Nat × Nat × Nat) := []   -- losses to report once the jobs below a number are done: that number, LOSS_SEQ, volume (R136)
  bbt : List BadBlock := []
  wseq : Nat := 0
  units : Tab Unit := []
  openBands : Tab Nat := []                  -- Command Engine to its open data band
  foldBands : List Nat := []
  streams : List LogStream := []
  bandRr : Nat := 0
  streamRr : Nat := 0
  locks : List (Nat × Nat × Nat) := []       -- band, stripe, WRITE_SEQ holding the lock
  mitten : List MittenBlk := []
  relocs : List Reloc := []
  mends : List Mend := []                    -- repairs in place that wait for a stripe lock
  watermark : Nat := 64                      -- in 256ths of the Mitten share
  folding : Bool := false
  logWinTotal : Nat := 0
  logWinSuperseded : Nat := 0
  logHalf : Bool := false
  foldStart : Nat := 0                       -- when the 100 ms window of R58 under way began
  winBlocks : List (Nat × Nat × Nat) := []   -- blocks logged in the window and not superseded yet: volume, block, WRITE_SEQ (R58)
  reclaimPct : Nat := 3
  copy : DriveCopy := {}
  epoch : Nat := 0
  replayed : Bool := true
  rootsLoaded : Bool := true
  policies : Tab Nat := []                   -- values that differ from the default
  f4 : Nat := 12                             -- read-around factor in quarters
  raBytes : Nat := 0
  readBytes : Nat := 0
  raCapped : Bool := false
  winLat : List Nat := []                    -- foreground read latencies of the window, ns
  share : Rat := 70
  paceLat : List Nat := []
  paceStart : Nat := 0                       -- when the 10 ms window under way began (R128)
  repairTotal : Nat := 0
  scrubTables : Nat := 0                     -- when the ledger copies and Band Table pages were last checked (R139)
  parityFixed : Nat := 0
  mirrorFixed : Nat := 0
  g2Copy0 : Bool := false                    -- copy 0 of the ledgers stays in format 3 until the first write (R149)
  areaStall : Bool := false                  -- new records wait for a map frame (R162)
  background : Bool := true                  -- false while an activation pauses it (R291)
deriving DecidableEq, Repr

end Sys2Proof.Machine
end

