-- ==== Sys2Proof/Config.lean ====
section
/-! DEFINITION. What one implementation fixes and the spec leaves open: fuse values, the DH-HMAC-CHAP
messages that the NVMe Base Specification defines (uninterpreted), and the free values. Every constant here is opaque:
no proof can see what it is. -/

namespace Sys2Proof.Config

/-- A fresh free natural number; the argument is the state's draw counter (log entry 2). -/
opaque freeNat : Nat → Nat

/-- A fresh free 64-bit word; the argument is the state's draw counter (log entry 2). -/
opaque freeWord : Nat → BitVec 64

/-- A fresh free run of bytes: draw counter, length wanted (log entry 2). -/
opaque freeBytes : Nat → Nat → List (BitVec 8)

/-- SYS_ID bits 63:8, PCIe identities from the fuses (Table 17.4). -/
opaque sysIdFuses : BitVec 56

/-- Device unique identifier bytes 0 to 7 (SYS_UID_LO, Table 17.4). -/
opaque uidLo : BitVec 64

/-- Device unique identifier bytes 8 to 15 (SYS_UID_HI, Table 17.4). -/
opaque uidHi : BitVec 64

/-- Revoked image keys, SYS_KEY_REVOKE.REVOKED (Table 17.4). -/
opaque keyRevoked : BitVec 4

/-- Fused SHA-384 hash of image key i (R289). -/
opaque keyHash : Nat → List (BitVec 8)

/-- Anti-rollback floor fused at manufacture (R290). -/
opaque rollbackFloor : Nat

/-- Enterprise number of CTL_MCTP_CFG.IANA (Table 10.14). -/
opaque ianaFuses : BitVec 32

/-- DRAM installed, in GiB (R387: an address at or above it is undecoded). -/
opaque installedDramGib : Nat

/-- The DIMM of a DRAM channel: 0 absent, 1 RDIMM, 2 MRDIMM (Table 15.5). -/
opaque dimmType : Nat → Nat

/-- Size in GiB of the DIMM of a channel. -/
opaque dimmGib : Nat → Nat

/-- Data rate in MT/s of the DIMM of a channel. -/
opaque dimmRate : Nat → Nat

/-- DRAM channel of an internal address (the spec gives no interleaving). -/
opaque dramChannelOf : Nat → Nat

/-- Salt of the HKDF that derives a KEK session's key (R285 gives none). -/
opaque hkdfSalt : List (BitVec 8)

/-- Information string of that HKDF (R285 gives none). -/
opaque hkdfInfo : List (BitVec 8)

/-- One DH-HMAC-CHAP message from a host, by the NVMe Base Specification: hash code, host secret, controller secret, transcript so
far, message. 0 the transaction goes on, 1 it succeeded, 2 it failed (R256). -/
opaque dhChapStep : Nat → List (BitVec 8) → List (BitVec 8) → List (BitVec 8) → List (BitVec 8) → Nat

/-- The next DH-HMAC-CHAP message of the device: hash code, host secret, controller secret, transcript (R256). -/
opaque dhChapReply : Nat → List (BitVec 8) → List (BitVec 8) → List (BitVec 8) → List (BitVec 8)

/-- Identity bytes of the NVMe-oF controller that the spec does not give: item 0 PCI vendor identifiers, 1 serial number, 2 subsystem NQN. -/
opaque nvmeIdentity : Nat → List (BitVec 8)

/-- How a negative feed reading shows in an unsigned 16-bit field (R319 gives no form). -/
opaque negativeReading : Int → Nat

/-- The Command Engine that runs a command slot (Table 12.5 rests on it; the spec does not say which engine takes a command). -/
opaque engineOf : Nat → Nat

/-- What the flash of a drive holds that comes from outside the shelf: unique identifier, draw counter; volume, log and journaled data blocks and system blocks
by LBA, and the two ledger copies. Another controller, an MBP-G2 among them, wrote it (R2, log entry 67). -/
opaque foreignFlash : BitVec 64 → Nat → Tab Blk × Tab Machine.SysBlk × Option Machine.Ledger × Option Machine.Ledger

end Sys2Proof.Config
end

