-- ==== Sys2Proof/Machine/TypesChip.lean ====
section
/-! DEFINITION. Types of the state: the Core fabric and Parity Units (R177 to R192), the Map Cache (R165 to R175), Data Movers
(R294 to R306), the service endpoint (R340 to R354) and telemetry (R357 to R368). -/

namespace Sys2Proof.Machine

/-! ## Fabric -/

/-- A cell held by an output; `id` names its payload, shared by the copies of a multicast (R185). -/
structure QCell where
  id : Nat
  cell : Cell
deriving DecidableEq, Repr

/-- A frame at an output: its source, priority and sequence number, whether it cuts through (R184), is poisoned (R188), has its EOF
cell, and how many cells have left and have been admitted. -/
structure OutFrame where
  src : Nat
  prio : Nat
  seq : Nat
  ct : Bool
  poisoned : Bool := false
  eof : Bool := false
  left : Nat := 0
  cells : Nat := 0
  discard : Bool := false
deriving DecidableEq, Repr

/-- An output (R177, R182 to R184): queued cells in order of arrival, frames partly received or queued, the weighted round-robin
position, one round-robin pointer per priority, the frame on the wire, and Parity Unit buffer charges by accumulator (R190). -/
structure OutPort where
  cells : List QCell := []
  frames : List OutFrame := []
  wrrPrio : Nat := 0
  wrrLeft : Nat := 0
  rr : List Nat := [0, 0, 0, 0]
  sending : Option (Nat × Nat × Nat) := none
  charges : List (Nat × Nat) := []
deriving DecidableEq, Repr

/-- A frame a source is sending, for the sampler (R192) and for poison (R188): directions sampled (fabric port and whether egress), its first bytes,
and the cells of it that each down target did not get (R186). -/
structure InFrame where
  input : Nat
  prio : Nat
  seq : Nat
  sofAt : Nat
  sampled : List (Nat × Bool) := []
  head : Bytes := []
  len : Nat := 0
  ct : Bool := false
  poisoned : Bool := false
  bad : Bool := false                        -- found bad by the network edge: its tail cell is marked poisoned (R74)
  cmd : Nat := 0
  lost : List (Nat × Nat) := []
deriving DecidableEq, Repr

/-- An undelivered notice (R186). -/
structure Notice where
  port : Nat
  source : Nat
  reason : Nat
  cells : Nat
  cmd : Nat
  stripe : Nat
  position : Nat
  seq : Nat
deriving DecidableEq, Repr

/-- A frame sample record (Table 6.7). -/
structure FrameSample where
  time : Nat
  port : Nat
  egress : Bool
  len : Nat
  disposition : Nat
  captured : Bytes
  cmd : Nat
  seq : Nat
  sampleSeq : Nat
deriving DecidableEq, Repr

/-- The fabric: outputs by port, cells waiting at their sources in order of offer, frames being sent, sample counters by
(port × 2 + direction), sample records on their way to port 158, notices sent (newest first), the payload counter, and one write-arbiter
pointer per output (R183). -/
structure Fabric where
  ports : Tab OutPort := []
  waiting : List (Nat × Cell) := []
  inFrames : List InFrame := []
  sampleCtr : Tab Nat := []
  sampleSeq : Nat := 0
  samples : List FrameSample := []
  notices : List Notice := []
  nextId : Nat := 0
  arb : Tab Nat := []
deriving DecidableEq, Repr

/-- One cell received by an accumulator (R191). -/
structure AccCell where
  position : Nat
  offset : Nat
  isNew : Bool
  payload : Bytes
deriving DecidableEq, Repr

/-- A bound accumulator (R190, R191). -/
structure Acc where
  bind : AccBind
  boundAt : Nat
  expected : Nat
  seen : Nat := 0
  poisoned : Bool := false
  cells : List AccCell := []
  undelivered : Nat := 0           -- output cells not yet delivered after completion
  done : Bool := false
deriving DecidableEq, Repr

/-- The Parity Units: bound accumulators by index and bindings that wait for their buffer charge (R190). -/
structure Parity where
  accs : Tab Acc := []
  waiting : List AccBind := []
  next : Nat := 0                            -- the unit that the next stripe's accumulator is sought in first (R48)
deriving DecidableEq, Repr

/-! ## Map Cache -/

/-- A line of a way (R165, R174, R175). `parityOk` is false when its tag parity does not match. -/
structure McLine where
  tag : Nat
  valid : Bool := true
  lock : Bool := false
  parityOk : Bool := true
  data : Bytes
deriving DecidableEq, Repr

/-- A Cuff entry (R168): line address divided by 64, data, and its order of entry. -/
structure CuffLine where
  line : Nat
  valid : Bool := true
  data : Bytes
  age : Nat
deriving DecidableEq, Repr

/-- A write-through queue entry (R166): line address divided by 64 and its masked bytes. -/
structure WtEntry where
  line : Nat
  bytes : List (Nat × Byte)
deriving DecidableEq, Repr

/-- A DRAM fill on its way (R166): its line, who waits for it, and the way kept for it. -/
structure McFill where
  line : Nat
  requesters : List Nat := []
  wayKept : Option Nat := none
deriving DecidableEq, Repr

/-- A range operation (R172). -/
structure RangeOp where
  op : Nat
  base : Nat
  lines : Nat
  tag : Nat
  spare : Bool
deriving DecidableEq, Repr

/-- The Map Cache: ways keyed by (slice × 16,384 + set) × 16 + way, pseudo-LRU trees by slice × 16,384 + set, the Cuff by entry number,
one transit register per slice, one write-through queue per slice, stores waiting for a full queue, fills, G2-mode evictions
waiting for write-throughs, and the range engine. -/
structure MapCache where
  ways : Tab McLine := []
  plru : Tab Nat := []
  cuff : Tab CuffLine := []
  cuffAge : Nat := 0
  transit : Tab CuffLine := []
  wtq : Tab (List WtEntry) := []
  storeWait : List (Nat × Bytes) := []
  fills : List McFill := []
  evicting : List Nat := []
  rangeQ : List RangeOp := []
  lastTag : Nat := 0
  affected : Nat := 0
  dropped : Nat := 0
  skipped : Nat := 0
  eccValid : Bool := false
  eccKind : Nat := 0
  eccSyndrome : Nat := 0
  eccLine : Nat := 0
  lockRefused : Nat := 0
  tagParity : Nat := 0
  uncorrected : Nat := 0
  corrected : Nat := 0
deriving DecidableEq, Repr

/-! ## Data Movers -/

/-- A Mover descriptor (Table 11.1). -/
structure MovDesc where
  src : Nat := 0
  dst : Nat := 0
  length : Nat := 0
  flags : Nat := 0
  tag : Nat := 0
  next : Nat := 0
deriving DecidableEq, Repr

inductive MovState where | idle | running | halted
deriving DecidableEq, Repr

/-- The channel's running checksum (R298): its mode and state. -/
inductive MovCrc where | none | crc32c (state : BitVec 32) | crc64 (state : BitVec 64)
deriving DecidableEq, Repr

/-- A descriptor of a channel that has been loaded and has not completed (R297, R300): bytes requested, bytes whose data has returned,
bytes written, and the checksum in final form once its last byte has been read. -/
structure MovJob where
  desc : MovDesc
  requested : Nat := 0
  returned : Nat := 0
  written : Nat := 0
  crcVal : Option Word := none
deriving DecidableEq, Repr

/-- A Mover channel (R294 to R306). `jobs` are its loaded descriptors, oldest first; `next` the NEXT of the last one, to be fetched once its last
read is issued; `pendErr` an error of the next descriptor (code, its address), that halts the channel once the loaded ones have completed. `inHandOver`
is a hand-over cycle left open by a completed descriptor with NEXT 0, `armStart` SHADOW_ARM at its start, `armAgain` a write of 1 to SHADOW_ARM that
landed in it while the bit already read 1, `stopInHandOver` a STOP that did; `stopped` a STOP in force; `outstanding` reads not yet returned, `late` those
whose completions will be discarded (R352);
`waitFrom` since when a read has been ready without a grant. -/
structure MovCh where
  shadow : MovDesc := {}
  arm : Bool := false
  inHandOver : Bool := false
  armStart : Bool := false
  armAgain : Bool := false
  stopInHandOver : Bool := false
  prio : Nat := 2
  state : MovState := .idle
  err : Nat := 0
  shadowBusy : Bool := false
  jobs : List MovJob := []
  next : Option Nat := none
  pendErr : Option (Nat × Nat) := none
  crc : MovCrc := .none
  crcFinal : Word := 0
  lastTag : Nat := 0
  completed : Nat := 0
  bytesDone : Nat := 0
  cur : Nat := 0
  fromShadow : Bool := false
  stopped : Bool := false
  outstanding : List Nat := []
  late : Nat := 0
  waitFrom : Nat := 0
deriving DecidableEq, Repr

/-! ## Service endpoint -/

/-- One physical function (R342 to R354): Master Enable, D3hot, resetting, MSI and MSI-X enables, MSI-X table and pending bits, mask, and Enable Relaxed
Ordering, which PCIe sets at reset (log entry 15). -/
structure SepFn where
  me : Bool := false
  d3 : Bool := false
  flr : Bool := false
  msi : Bool := false
  msiMasked : Bool := false
  msiPending : Bool := false
  msix : Bool := false
  msixMask : Bool := false
  relaxed : Bool := true
  table : Tab (Word × Word) := []      -- MSI-X entries: address; data and vector control
  pba : BitVec 64 := 0
deriving DecidableEq, Repr

/-- A window entry's active set and version (R348); its shadow set and its commit bit stand in the register bank. -/
structure SepWin where
  base : Word := 0
  ctrl : Word := 0
  version : Nat := 0
deriving DecidableEq, Repr

/-- The endpoint: link, when SEP_PERST_N was last asserted, functions, PF0 interrupt sources, windows and PF1's ring registers (Table 14.5). -/
structure Sep where
  linkUp : Bool := false
  speed : Nat := 0
  width : Nat := 0
  perstAt : Option Nat := none
  pf0 : SepFn := {}
  pf1 : SepFn := {}
  intPend : BitVec 64 := 0
  wins : Tab SepWin := []
  ringBase : Word := 0
  slots : Nat := 0
  ringEn : Bool := false
  head : Nat := 0
  tail : Nat := 0
  dropped : Nat := 0
deriving DecidableEq, Repr

/-! ## Telemetry -/

/-- A counter (R357 to R359). -/
structure Ctr where
  value : Nat := 0
  edge : Bool := false
  chain : Bool := false
  ovf : Bool := false
deriving DecidableEq, Repr

/-- A snapshot in a dump buffer (R361, R362): its sequence number, triggers, time, counters, and the writes still to finish. -/
structure Dump where
  seq : Nat
  trigger : Nat
  period : Nat
  time : Nat
  missed : Nat
  ctrs : Tab Ctr
  dramLeft : Bool
  pf1Left : Bool
deriving DecidableEq, Repr

/-- Telemetry. `stateOn` are the STATE counters true in the last cycle counted; `bufs` the dump buffers in use by number, 0 and 1; `lastPeriodic` the time
of the last period multiple accounted for. -/
structure Tel where
  ctrs : Tab Ctr := []
  stateOn : List Nat := []
  bufs : Tab Dump := []
  dumpSeq : Nat := 0
  missed : Nat := 0
  missedSince : Nat := 0
  lastPeriodic : Nat := 0
  starts : Nat := 0                    -- starts since the last trigger (R364)
  armedSkid : Option Nat := none       -- a mark on its way: commands still to skip, and the skid
  markSkid : Nat := 0
  sampleSeq : Nat := 0
deriving DecidableEq, Repr

/-- One DRAM channel: DIMM type, size, rate and error figures (Table 15.5). -/
structure Dimm where
  type : Nat := 0
  sizeGib : Nat := 0
  rate : Nat := 0
  corrected : Nat := 0
  uncorrected : Nat := 0
  errTimes : List (Nat × Bool) := []
  lastAddr : Nat := 0
  lastTime : Nat := 0
  lastKind : Nat := 0
deriving DecidableEq, Repr

end Sys2Proof.Machine
end

