-- ==== Sys2Proof/Machine/TypesShelf.lean ====
section
/-! DEFINITION. Types of the state: mailboxes, operations, keys, images and policies (R269 to R292), feeds, Gloves and power
domains (R308 to R321), starts and clocks (R323 to R338), and the package's sequencer and chains (R376 to R386). -/

namespace Sys2Proof.Machine

/-! ## Mailboxes -/

inductive ChanState where | idle | busy | done
deriving DecidableEq, Repr

/-- Where a response goes (R278, R279): nowhere but the buffer, an I3C endpoint, or an in-band client. -/
inductive Route where
  | pf0
  | i3c (endpoint tag : Nat)
  | inband (lane : Nat) (source : BitVec 128) (port : Nat) (nonce : Word) (counter client : Nat)
deriving DecidableEq, Repr

/-- A channel (R271 to R273): the two 4 KiB buffers as bytes by offset, the request copied at RING, the bytes a transport received (none on
PF0), its order of acceptance and where its response goes. Keys 8 and up of the channel table hold requests that a function-level reset
of PF0 left to run, whose responses are discarded. -/
structure Chan where
  state : ChanState := .idle
  tag : Nat := 0
  reqBuf : List (Nat × Byte) := []
  respBuf : List (Nat × Byte) := []
  req : Bytes := []
  received : Option Nat := none
  order : Nat := 0
  route : Route := .pf0
deriving DecidableEq, Repr

/-- Objects a running operation holds (R274). -/
inductive OpObj where | drive (slot : Nat) | pool (idx : Nat) | volume (id : Nat) | none
deriving DecidableEq, Repr

/-- A tracked operation (R275): `state` 1 running, 2 done, 3 failed; `status` its final status, ACCEPTED while it runs; `result` as the
command's response; `plan` the final status once nothing is left to wait for; `phase` and `cleanSeq` how far an export has come;
`index` the operations started before it. -/
structure Op where
  opcode : Nat
  obj : OpObj := .none
  state : Nat := 1
  status : Nat := 1
  started : Nat := 0
  ended : Nat := 0
  result : Bytes := []
  index : Nat := 0
  plan : Option Nat := none
  phase : Nat := 0
  cleanSeq : Nat := 0
deriving DecidableEq, Repr

/-- A management event (Table 10.6). -/
structure MgmtEvent where
  seq : Nat
  time : Nat
  code : Nat
  object : Nat
  detail : Nat
deriving DecidableEq, Repr

/-- A volume key in the key store (R285). -/
structure VolKey where
  vol : Nat
  gen : Nat
  key : Bytes
deriving DecidableEq, Repr

/-- A host's authentication record: REQUIRE and HASH persist in the configuration area; the secrets are in the key store (R285). -/
structure HostSec where
  hostId : BitVec 128
  require : Bool
  hash : Nat
  host : Option Bytes := none
  ctrl : Option Bytes := none
deriving DecidableEq, Repr

/-- An ephemeral KEK session (R285). -/
structure KekSession where
  id : Nat
  pair : Nat
  clientPub : Bytes
  since : Nat
deriving DecidableEq, Repr

/-- An image slot of the firmware store (Table 10.8): bytes received, whether marked invalid, and whether FW_VERIFY or the boot ROM accepted it. -/
structure FwSlot where
  valid : Bool := false
  bytes : Bytes := []
  downloading : Bool := false
deriving DecidableEq, Repr

/-- An activation under way (R291, R292): its slot and operation, whether under a hold and since when, and the order of acceptance from which
requests wait for the new image. -/
structure Activation where
  slot : Nat
  opId : Nat
  hold : Bool
  holdFrom : Nat
  waitFrom : Nat
deriving DecidableEq, Repr

/-- The control complex. `opCount` operations have been started; `configPol` are the stored pool policies by POOL_ID;
`pairs` one bit per running pair; `inband` the last counters by client, most recently used first. -/
structure Control where
  chans : Tab Chan := []
  rr : Nat := 0                        -- one past the last channel served (R274)
  accepted : Nat := 0
  ops : Tab Op := []
  opCount : Nat := 0
  events : List MgmtEvent := []
  nextEvent : Nat := 1
  overwritten : Nat := 0
  restartedNumbering : Bool := false
  policies : Tab Nat := []
  policyGen : Nat := 0
  configPol : List (Word × Tab Nat) := []
  keks : Tab Bytes := []
  keys : List VolKey := []
  hosts : List HostSec := []
  inbandSecret : Option Bytes := none
  sessions : List KekSession := []
  inband : List (Nat × Nat) := []
  nonce : Word := 0
  i3cAddr : Option Nat := none
  eid : Nat := 0
  slotA : FwSlot := {}
  slotB : FwSlot := {}
  recovery : FwSlot := {}
  running : Nat := 0
  bootSlot : Nat := 0
  safeMode : Bool := false
  activation : Option Activation := none
  pairsUp : BitVec 2 := 0b11
  halted : BitVec 2 := 0
  mismatch0 : Nat := 0
  mismatch1 : Nat := 0
  mittenGib : Nat := 16                -- Mitten size in force; MITTEN_GIB takes effect at a warm start
deriving DecidableEq, Repr

/-! ## Feeds and Gloves -/

/-- A Glove's message (R310). -/
inductive GMsg where | none | claim | renew | yield
deriving DecidableEq, Repr

/-- A feed as classified (R309): its state, the condition that waits for DEBOUNCE with its start, readings in 10 mV by its own Glove and by the
other, current in 10 mA, inputs, the extremes of the second `winAt` and of the one before it, and counts. -/
structure Feed where
  state : Nat := 0
  cand : Option (Nat × Nat) := none
  vOwn : Option Int := none
  vPeer : Option Int := none
  current : Nat := 0
  faultN : Bool := true
  fb : Bool := false
  wire : Nat := 0                      -- 0 good, 6 open, 7 shorted (Table 12.3)
  wasLow : Bool := false
  wasHigh : Bool := false
  winAt : Nat := 0
  winMin : Option Int := none
  winMax : Option Int := none
  vMin : Option Int := none
  vMax : Option Int := none
  changes : Nat := 0
  changeTime : Nat := 0
  okSince : Option Nat := none
  disagreeFrom : Option Nat := none    -- FB against EN (R316)
  stuckOn : Bool := false
  stuckOff : Bool := false
  fbLowFrom : Option Nat := none
deriving DecidableEq, Repr

/-- A Glove (R310 to R317). `crown` says that it holds the Crown and `view` which other holder it has seen (0 none, 1 A, 2 B); `lastRenewRx` is
when it last received RENEW (or began watching), `lastRenewTx` when it last sent one; `claiming`, `claimSent`, `yieldDue` and `yieldSeen`
describe the handshake; `link` and `lost` what it has declared of the link; `oscPeer` and `oscBase` its oscillator out of range by its peer's
test and by the timebase test; `failed` the bits of Table 12.3 failing. -/
structure GloveSt where
  alive : Bool := false
  aliveAt : Nat := 0
  crown : Bool := false
  view : Nat := 0
  request : Bool := false
  claiming : Bool := false
  claimSent : Bool := false
  yieldDue : Bool := false
  yieldSeen : Bool := false
  frames : Nat := 0
  lastRenewTx : Nat := 0
  lastRenewRx : Nat := 0
  lastFrame : Option Nat := none
  unbrokenFrom : Option Nat := none
  link : Bool := false
  lost : Bool := false
  oscPeer : Bool := false
  oscBase : Bool := false
  oscKhz : Nat := 0
  failed : BitVec 16 := 0
  stuckHold : Bool := false            -- request dropped under R316, Crown kept
  wire : List (GMsg × Nat) := []       -- frames on their way to it: message, the sender's view of the holder
deriving DecidableEq, Repr

/-- The Standby die: feeds, Gloves, the interlock (R315) with the time since when both outputs are low, and counts. -/
structure Standby where
  feedA : Feed := {}
  feedB : Feed := {}
  a : GloveSt := {}
  b : GloveSt := {}
  outA : Bool := false
  outB : Bool := false
  lowSince : Nat := 0
  conflict : Bool := false
  faultLatched : Bool := false
  testCycles : Nat := 0
  crownChanges : Nat := 0
  crownTime : Nat := 0
  pfWarned : Bool := false
deriving DecidableEq, Repr

/-! ## Rails, starts, clocks -/

/-- The rail sequencer (R376, R377) and SYS_RST_N: enables, power-goods, when the last enable was raised, the wait for a retry after a failed
sequence, the wait for a feed after a power-good loss (R318), and the core's reset. `aliveFrom` is when the first Glove became alive, `crownFrom`
when a Glove first took the Crown. -/
structure Rails where
  en : BitVec 8 := 0
  pg : BitVec 8 := 0
  enAt : Nat := 0
  retryAt : Option Nat := none
  waitFeed : Bool := false
  sysRstN : Bool := true
  coreReset : Bool := true
  aliveFrom : Option Nat := none
  crownFrom : Option Nat := none
  thermtrip : Bool := false
deriving DecidableEq, Repr

/-- Power domains (R320, R321): the state bits, requests waiting, a switch under way, and the domain last switched. -/
structure Domains where
  on : BitVec 62 := BitVec.allOnes 62
  busy : BitVec 62 := 0
  target : BitVec 62 := BitVec.allOnes 62
  last : Nat := 61
deriving DecidableEq, Repr

/-- A start (Table 13.2): the step completed last (0 to 13), whether warm, its cause and the one before, C, the slot being started, the halt
code, the boot watchdog, a warm start that waits for its drain (its cause), the slot that FW_ACTIVATE asks the boot ROM for, the operation of
an activation without HOLD with its slot, and DRAM in self-refresh. -/
structure Boot where
  step : Nat := 0
  warm : Bool := false
  cause : Nat := 1
  prevCause : Nat := 0
  attempts : Nat := 0
  slot : Nat := 0
  halt : Nat := 0
  warmStarts : Nat := 0
  wdogRunning : Bool := false
  wdogFrom : Nat := 0
  wdogLoad : Nat := 600                -- seconds that the count began from
  wdogWarned : Bool := false
  wdogDone : Bool := false
  quiesce : Option Nat := none
  want : Option Nat := none
  actOp : Option (Nat × Nat) := none
  dramSelfRefresh : Bool := false
deriving DecidableEq, Repr

/-- Clocks and shelf time (R337, R338): time in ns, the fraction of the tick accumulator, correction and slew left, the references and PLL locks,
whether a cold start waits for the 25 MHz reference, channels whose PLL lost lock, and when LAST_TIME was last written. -/
structure Clocks where
  now : Nat := 0
  frac : Nat := 0
  ppb : Int := 0
  slewLeft : Int := 0
  slewFrac : Int := 0
  lost25 : Bool := false
  waitRef : Bool := false
  ddrBad : BitVec 8 := 0
  ddrLock : BitVec 8 := 0
  netLock : BitVec 8 := 0
  drvLock : BitVec 16 := 0
  sepLock : Bool := false
  timeLock : Bool := false
  hclkLock : Bool := false
  latStart : Nat := 0                        -- when the 100 ms latency window under way began (R118)
  driftStart : Nat := 0                      -- when the 1 h drift window under way began (Table 4.6)
  kclkLock : Bool := true
  cclkLock : Bool := true
  ref156 : Bool := true
  ref100 : Bool := true
  lastTimeAt : Nat := 0
deriving DecidableEq, Repr

/-- A serial GPIO chain (R379): frames in a row with every bit 3 reading 1, frames with every bit 3 reading 0, whether it is taken as broken, and the
outputs (PERST_N, PWREN by slot) kept while it is. -/
structure Chain where
  onesRun : Nat := 0
  zerosRun : Nat := 0
  broken : Bool := false
  kept : List (Bool × Bool) := []
deriving DecidableEq, Repr

/-- How an NVMe command is put to a drive: its I/O queue pair (R69), its data pointer into the port's window, an SGL Data Block descriptor or a PRP list (R49),
and how it carries metadata: bytes per block, in a separate buffer or as extended LBA data (R11). -/
structure NvmeForm where
  queue : Nat := 0
  sgl : Bool := false
  window : Nat := 0
  metaSize : Nat := 16
  metaSeparate : Bool := false
deriving DecidableEq, Repr

/-- A packet of the transport or of its connection management. A message stands whole, with the UDP source port of each of its packets; an RDMA WRITE says whether
every packet carries a RETH (R212); a retransmission carries what is sent again, from its first PSN (R209). -/
inductive Packet where
  | ack (qp sport psn : Nat)
  | nak (qp sport psn code : Nat)
  | rnrNak (qp sport psn timerCode : Nat)
  | sendMsg (qp : Nat) (sports : List Nat) (psn : Nat) (bytes : Bytes)
  | rdmaWrite (qp : Nat) (sports : List Nat) (psn rkey addr : Nat) (eachReth : Bool) (bytes : Bytes)
  | readRequest (qp sport psn rkey addr len : Nat)
  | retransmit (qp psn : Nat) (again : List TxMsg)
  | probe (qp path : Nat)
  | cmRep (qpn : Nat) (payload : Bytes)
  | cmRej (gid reason code version : Nat)
  | cmMra (lane gid timeout : Nat)
  | cmDreq (qp : Nat)
  | cmDrep (qp : Nat)
deriving DecidableEq, Repr

/-- How the network edge heads a packet: DSCP, ECN field, VLAN ID and PCP where the GID entry carries a VLAN (R199), UDP checksum (R202), and the AETH syndrome of an
answer, whose credit count in an ACK is the invalid one (R203). -/
structure RoceHdr where
  dscp : Nat
  ecn : Nat
  vlan : Option (Nat × Nat) := none
  udpCheck : Nat := 0
  syndrome : Option Nat := none
deriving DecidableEq, Repr

/-- What the device sends out: every emission of a command, newest first in the state's list. -/
inductive Out where
  -- network edge
  | pause (lane prio : Nat) (on : Bool)
  | arpReply (lane : Nat) (target : BitVec 128) (mac : BitVec 48)
  | neighbourAdvert (lane : Nat) (target : BitVec 128) (mac : BitVec 48)
  | echoReply (lane : Nat) (target : BitVec 128) (payload : Bytes)
  | toControl (lane : Nat) (stamp : Nat) (frame : Bytes)
  -- transport and connections
  | roce (hdr : RoceHdr) (packet : Packet)
  -- drives
  | nvme (slot cid : Nat) (op : NvmeOp) (lba count : Nat) (handle : Option Nat) (form : NvmeForm)
  | nvmeAbort (slot cid : Nat)
  | nvmeReset (slot : Nat)
  | nvmeFormat (slot : Nat)
  | nvmeEnable (slot : Nat)
  | cellData (port block : Nat) (ok : Bool)
  -- fabric
  | cellOut (port : Nat) (cell : Cell)
  | fill (requester line : Nat) (data : Bytes)
  -- control
  | mctp (endpoint tag : Nat) (bytes : Bytes)
  | mctpControl (command : Nat) (bytes : Bytes)
  | ibi
  | datagram (lane : Nat) (dest : BitVec 128) (port : Nat) (bytes : Bytes)
  | uart (code : Nat)
  -- endpoint
  | completion (pf : Nat) (data : Bytes) (poisoned : Bool)
  | unsupported (pf : Nat)
  | msix (pf vector : Nat)
  | msi
  | hostWrite (pf addr : Nat) (bytes : Bytes) (relaxed : Bool)
  | hostRead (pf addr len : Nat)
  | moverRead (ch addr len priority : Nat)
  -- power
  | glove (g : Glove) (msg : GMsg) (view feed : Nat)
  | gate (feed : Glove) (on : Bool)
  | railEn (rail : Nat) (on : Bool)
  | thermtripN (low : Bool)
  | chainOut (west : Bool) (outputs : List (Bool × Bool))
  -- register reads
  | regData (dest : Nat) (value : Word)
deriving DecidableEq, Repr

end Sys2Proof.Machine
end

