-- ==== Sys2Proof/Machine/State.lean ====
section
/-! DEFINITION. The state of the device, its fault and refusal names, and the state at reset. -/

namespace Sys2Proof.Machine

/-- Faults. The device reports every failure in its registers, statuses and logs, so no command ends in a fault: the
type has no constructor. -/
inductive Fault where
deriving DecidableEq, Repr

/-- Refusals. -/
inductive Refusal where
  /-- Raised by an arm of `exec` for a command that has no meaning yet; safe. -/
  | notModelled (mnemonic : String)
deriving DecidableEq, Repr

/-- The state of the device. Sparse tables list only entries that differ from the default of their element type, or
that exist. -/
structure State where
  /-- Stored bits of registers by internal address (Table 17.2); an unlisted register holds its reset value. -/
  bank : Tab Word := []
  /-- SYS_DECODE_LOG (Table 17.4): VALID, COUNT, SRC, ADDR. -/
  decValid : Bool := false
  decCount : Nat := 0
  decSrc : Nat := 0
  decAddr : Nat := 0
  /-- DRAM and the cell buffer window (Table 17.1), in canonical form: an unlisted byte reads as 0. -/
  mem : List Host.Cell := []
  net : Net := {}
  rdma : Rdma := {}
  hq : Hq := {}
  /-- Imported pools by index 0 to 3, volumes by VOLUME_ID, drives and slots by slot 0 to 63. -/
  pools : Tab Pool := []
  volumes : Tab Volume := []
  drives : Tab Drive := []
  hbx : Hatbox := {}
  fab : Fabric := {}
  par : Parity := {}
  mc : MapCache := {}
  mov : Tab MovCh := []
  ctl : Control := {}
  stby : Standby := {}
  rails : Rails := {}
  dom : Domains := {}
  boot : Boot := {}
  clk : Clocks := {}
  sep : Sep := {}
  tel : Tel := {}
  dimms : Tab Dimm := []
  chainE : Chain := {}
  chainW : Chain := {}
  /-- Packets that wait at a paused network output or for their queue pair's rate, oldest first: lane, frames, packet (R199, R216). -/
  txWait : List (Nat × Nat × Packet) := []
  /-- Emissions, newest first. -/
  out : List Out := []
  /-- The model's own draw counter for free values (log entry 2). -/
  fresh : Nat := 0
  /-- Commands waiting, first in, first out. -/
  pending : List Instr := []
deriving DecidableEq, Repr

/-- The device as it comes up unpowered (cause POWER_UP of Table 13.1): every register at its reset value, the Gloves not alive, the
core in reset, every slot empty, no pool, no connection, and no command waiting. -/
def State.reset : State := {}

end Sys2Proof.Machine
end

