-- ==== Sys2Proof/Machine/Regs.lean ====
section
/-! DEFINITION. The registers of the device: names, addresses (Table 17.2) and the stored fields of each by the register
tables of the chapters: which bits are RW, W1C and W1S (Table 0.4), and the reset value of the stored bits. A field that is RO or WO
stores nothing: Machine/RegRead.lean computes what a read returns. -/

namespace Sys2Proof.Machine

/-- A register (Table 17.2); an indexed register carries its instance number. -/
inductive Reg where
  | fabCtrl
  | fabStatus
  | fabEvent
  | fabEventEn
  | fabBrimCfg
  | fabGwCfg
  | fabWrrCfg
  | fabSampleCfg
  | fabPortCtrl (i : Nat)
  | fabPortStatus (i : Nat)
  | netCtrl
  | netPrioCfg
  | netPfcCfg
  | netWdogCfg
  | netEvent
  | netEventEn
  | netPtpTxtsTag
  | netPtpTxtsTime
  | netGidSel
  | netGidAddrHi
  | netGidAddrLo
  | netGidAttr
  | netGroupCfg (i : Nat)
  | netPortCtrl (i : Nat)
  | netPortStatus (i : Nat)
  | netPortMac (i : Nat)
  | qpCtrl
  | qpCtxBase
  | qpStatus
  | qpAckCfg
  | qpCcCfg
  | qpRegionCfg
  | qpEvent
  | qpEventEn
  | qpRevokeCmd
  | qpRevokeStatus
  | qpCtxSel
  | qpCtxState
  | hqCtrl
  | hqAreaBase
  | hqAreaSize
  | hqLimitCfg
  | hqEs
  | hqHold
  | hqStatus
  | hqEvent
  | hqEventEn
  | hqQueueSel
  | hqQueueState
  | hqQueueSeq
  | mapCtrl
  | mapAreaBase
  | mapAreaSize
  | mapCkptCfg
  | mapStatus
  | mapEvent
  | mapEventEn
  | mcCtrl
  | mcStatus
  | mcEvent
  | mcEventEn
  | mcRangeBase
  | mcRangeLines
  | mcRangeCmd
  | mcRangeStatus
  | mcRangeCount
  | mcEccLog
  | mcErrCount
  | hbxCtrl
  | hbxStatus
  | hbxEvent
  | hbxEventEn
  | hbxLagCfg
  | hbxRingCfg
  | hbxSelftest
  | hbxWearSel
  | hbxWearData
  | hbxPoolHead (i : Nat)
  | hbxPoolTail (i : Nat)
  | hbxPoolCopied (i : Nat)
  | hbxPoolEpoch (i : Nat)
  | movCtrl
  | movStatus
  | movEvent
  | movEventEn
  | movDonePend
  | movErrPend
  | movShdSrc (i : Nat)
  | movShdDst (i : Nat)
  | movShdCtrl (i : Nat)
  | movShdNext (i : Nat)
  | movChCtrl (i : Nat)
  | movChStatus (i : Nat)
  | movChCur (i : Nat)
  | movChCrc (i : Nat)
  | movChProgress (i : Nat)
  | parCtrl
  | parStatus
  | parEvent
  | parEventEn
  | parTimeoutCfg
  | parAccSel
  | parAccState
  | drvCtrl
  | drvEvent
  | drvEventEn
  | drvPortStatus (i : Nat)
  | sepCtrl
  | sepStatus
  | sepEvent
  | sepEventEn
  | sepPf0Raise
  | sepWinCommit
  | sepWinShdBase (i : Nat)
  | sepWinShdCtrl (i : Nat)
  | sepWinActBase (i : Nat)
  | sepWinActCtrl (i : Nat)
  | telCtrl
  | telStatus
  | telEvent
  | telEventEn
  | telAreaBase
  | telDumpCfg
  | telSampleCfg
  | telSnapCmd
  | telCtrCfg (i : Nat)
  | telCtr (i : Nat)
  | glvStatus
  | glvCrownCmd
  | glvEvent
  | glvEventEn
  | glvFeedCfg
  | glvImonCfg
  | glvFeedA
  | glvFeedB
  | glvSelftest
  | glvOsc
  | pwrCtrl
  | pwrDomainReq
  | pwrDomainState
  | pwrDomainBusy
  | pwrEvent
  | pwrEventEn
  | pwrDomainFault
  | clkStatus
  | clkEvent
  | clkEventEn
  | clkResetCause
  | clkBootWdog
  | clkTime
  | clkTimeSet
  | clkTimeAdj
  | ctlCtrl
  | ctlStatus
  | ctlEvent
  | ctlEventEn
  | ctlMbxCfg
  | ctlInbandCfg
  | ctlMctpCfg
  | ctlRollback
  | ctlPairStatus
  | ctlMbxDoorbell (i : Nat)
  | ctlMbxState (i : Nat)
  | sysId
  | sysUidLo
  | sysUidHi
  | sysKeyRevoke
  | sysDecodeLog
deriving DecidableEq, Repr

/-- Base of register space (Table 17.1). -/
def regSpace : Nat := 0x0F0000000000

/-- The address of a register (R389, Table 17.2). -/
def regAddr : Reg → Nat
  | .fabCtrl => 0xF0000000000
  | .fabStatus => 0xF0000000008
  | .fabEvent => 0xF0000000010
  | .fabEventEn => 0xF0000000018
  | .fabBrimCfg => 0xF0000000020
  | .fabGwCfg => 0xF0000000028
  | .fabWrrCfg => 0xF0000000030
  | .fabSampleCfg => 0xF0000000038
  | .fabPortCtrl i => 0xF0000001000 + i * 0x10
  | .fabPortStatus i => 0xF0000001008 + i * 0x10
  | .netCtrl => 0xF0000100000
  | .netPrioCfg => 0xF0000100008
  | .netPfcCfg => 0xF0000100010
  | .netWdogCfg => 0xF0000100018
  | .netEvent => 0xF0000100020
  | .netEventEn => 0xF0000100028
  | .netPtpTxtsTag => 0xF0000100030
  | .netPtpTxtsTime => 0xF0000100038
  | .netGidSel => 0xF0000100040
  | .netGidAddrHi => 0xF0000100048
  | .netGidAddrLo => 0xF0000100050
  | .netGidAttr => 0xF0000100058
  | .netGroupCfg i => 0xF0000100100 + i * 0x8
  | .netPortCtrl i => 0xF0000101000 + i * 0x20
  | .netPortStatus i => 0xF0000101008 + i * 0x20
  | .netPortMac i => 0xF0000101010 + i * 0x20
  | .qpCtrl => 0xF0000200000
  | .qpCtxBase => 0xF0000200008
  | .qpStatus => 0xF0000200010
  | .qpAckCfg => 0xF0000200018
  | .qpCcCfg => 0xF0000200020
  | .qpRegionCfg => 0xF0000200028
  | .qpEvent => 0xF0000200030
  | .qpEventEn => 0xF0000200038
  | .qpRevokeCmd => 0xF0000200040
  | .qpRevokeStatus => 0xF0000200048
  | .qpCtxSel => 0xF0000200050
  | .qpCtxState => 0xF0000200058
  | .hqCtrl => 0xF0000300000
  | .hqAreaBase => 0xF0000300008
  | .hqAreaSize => 0xF0000300010
  | .hqLimitCfg => 0xF0000300018
  | .hqEs => 0xF0000300020
  | .hqHold => 0xF0000300028
  | .hqStatus => 0xF0000300030
  | .hqEvent => 0xF0000300038
  | .hqEventEn => 0xF0000300040
  | .hqQueueSel => 0xF0000300048
  | .hqQueueState => 0xF0000300050
  | .hqQueueSeq => 0xF0000300058
  | .mapCtrl => 0xF0000400000
  | .mapAreaBase => 0xF0000400008
  | .mapAreaSize => 0xF0000400010
  | .mapCkptCfg => 0xF0000400018
  | .mapStatus => 0xF0000400020
  | .mapEvent => 0xF0000400028
  | .mapEventEn => 0xF0000400030
  | .mcCtrl => 0xF0000500000
  | .mcStatus => 0xF0000500008
  | .mcEvent => 0xF0000500010
  | .mcEventEn => 0xF0000500018
  | .mcRangeBase => 0xF0000500020
  | .mcRangeLines => 0xF0000500028
  | .mcRangeCmd => 0xF0000500030
  | .mcRangeStatus => 0xF0000500038
  | .mcRangeCount => 0xF0000500040
  | .mcEccLog => 0xF0000500048
  | .mcErrCount => 0xF0000500050
  | .hbxCtrl => 0xF0000600000
  | .hbxStatus => 0xF0000600008
  | .hbxEvent => 0xF0000600010
  | .hbxEventEn => 0xF0000600018
  | .hbxLagCfg => 0xF0000600020
  | .hbxRingCfg => 0xF0000600028
  | .hbxSelftest => 0xF0000600030
  | .hbxWearSel => 0xF0000600038
  | .hbxWearData => 0xF0000600040
  | .hbxPoolHead i => 0xF0000600100 + i * 0x20
  | .hbxPoolTail i => 0xF0000600108 + i * 0x20
  | .hbxPoolCopied i => 0xF0000600110 + i * 0x20
  | .hbxPoolEpoch i => 0xF0000600118 + i * 0x20
  | .movCtrl => 0xF0000700000
  | .movStatus => 0xF0000700008
  | .movEvent => 0xF0000700010
  | .movEventEn => 0xF0000700018
  | .movDonePend => 0xF0000700020
  | .movErrPend => 0xF0000700028
  | .movShdSrc i => 0xF0000701000 + i * 0x80
  | .movShdDst i => 0xF0000701008 + i * 0x80
  | .movShdCtrl i => 0xF0000701010 + i * 0x80
  | .movShdNext i => 0xF0000701018 + i * 0x80
  | .movChCtrl i => 0xF0000701020 + i * 0x80
  | .movChStatus i => 0xF0000701028 + i * 0x80
  | .movChCur i => 0xF0000701030 + i * 0x80
  | .movChCrc i => 0xF0000701038 + i * 0x80
  | .movChProgress i => 0xF0000701040 + i * 0x80
  | .parCtrl => 0xF0000800000
  | .parStatus => 0xF0000800008
  | .parEvent => 0xF0000800010
  | .parEventEn => 0xF0000800018
  | .parTimeoutCfg => 0xF0000800020
  | .parAccSel => 0xF0000800028
  | .parAccState => 0xF0000800030
  | .drvCtrl => 0xF0000900000
  | .drvEvent => 0xF0000900008
  | .drvEventEn => 0xF0000900010
  | .drvPortStatus i => 0xF0000901000 + i * 0x8
  | .sepCtrl => 0xF0000A00000
  | .sepStatus => 0xF0000A00008
  | .sepEvent => 0xF0000A00010
  | .sepEventEn => 0xF0000A00018
  | .sepPf0Raise => 0xF0000A00020
  | .sepWinCommit => 0xF0000A00028
  | .sepWinShdBase i => 0xF0000A01000 + i * 0x20
  | .sepWinShdCtrl i => 0xF0000A01008 + i * 0x20
  | .sepWinActBase i => 0xF0000A01010 + i * 0x20
  | .sepWinActCtrl i => 0xF0000A01018 + i * 0x20
  | .telCtrl => 0xF0000B00000
  | .telStatus => 0xF0000B00008
  | .telEvent => 0xF0000B00010
  | .telEventEn => 0xF0000B00018
  | .telAreaBase => 0xF0000B00020
  | .telDumpCfg => 0xF0000B00028
  | .telSampleCfg => 0xF0000B00030
  | .telSnapCmd => 0xF0000B00038
  | .telCtrCfg i => 0xF0000B10000 + i * 0x10
  | .telCtr i => 0xF0000B10008 + i * 0x10
  | .glvStatus => 0xF0000C00000
  | .glvCrownCmd => 0xF0000C00008
  | .glvEvent => 0xF0000C00010
  | .glvEventEn => 0xF0000C00018
  | .glvFeedCfg => 0xF0000C00020
  | .glvImonCfg => 0xF0000C00028
  | .glvFeedA => 0xF0000C00030
  | .glvFeedB => 0xF0000C00038
  | .glvSelftest => 0xF0000C00040
  | .glvOsc => 0xF0000C00048
  | .pwrCtrl => 0xF0000D00000
  | .pwrDomainReq => 0xF0000D00008
  | .pwrDomainState => 0xF0000D00010
  | .pwrDomainBusy => 0xF0000D00018
  | .pwrEvent => 0xF0000D00020
  | .pwrEventEn => 0xF0000D00028
  | .pwrDomainFault => 0xF0000D00030
  | .clkStatus => 0xF0000D80000
  | .clkEvent => 0xF0000D80008
  | .clkEventEn => 0xF0000D80010
  | .clkResetCause => 0xF0000D80018
  | .clkBootWdog => 0xF0000D80020
  | .clkTime => 0xF0000D80028
  | .clkTimeSet => 0xF0000D80030
  | .clkTimeAdj => 0xF0000D80038
  | .ctlCtrl => 0xF0000E00000
  | .ctlStatus => 0xF0000E00008
  | .ctlEvent => 0xF0000E00010
  | .ctlEventEn => 0xF0000E00018
  | .ctlMbxCfg => 0xF0000E00020
  | .ctlInbandCfg => 0xF0000E00028
  | .ctlMctpCfg => 0xF0000E00030
  | .ctlRollback => 0xF0000E00038
  | .ctlPairStatus => 0xF0000E00040
  | .ctlMbxDoorbell i => 0xF0000E00100 + i * 0x10
  | .ctlMbxState i => 0xF0000E00108 + i * 0x10
  | .sysId => 0xF0000F00000
  | .sysUidLo => 0xF0000F00008
  | .sysUidHi => 0xF0000F00010
  | .sysKeyRevoke => 0xF0000F00018
  | .sysDecodeLog => 0xF0000F00020

/-- The registers at consecutive 8-byte offsets from the base of a block (Table 17.2). -/
def blockRegs : Nat → List Reg
  | 0 => [.fabCtrl, .fabStatus, .fabEvent, .fabEventEn, .fabBrimCfg, .fabGwCfg, .fabWrrCfg, .fabSampleCfg]
  | 1 => [.netCtrl, .netPrioCfg, .netPfcCfg, .netWdogCfg, .netEvent, .netEventEn, .netPtpTxtsTag, .netPtpTxtsTime, .netGidSel, .netGidAddrHi, .netGidAddrLo, .netGidAttr]
  | 2 => [.qpCtrl, .qpCtxBase, .qpStatus, .qpAckCfg, .qpCcCfg, .qpRegionCfg, .qpEvent, .qpEventEn, .qpRevokeCmd, .qpRevokeStatus, .qpCtxSel, .qpCtxState]
  | 3 => [.hqCtrl, .hqAreaBase, .hqAreaSize, .hqLimitCfg, .hqEs, .hqHold, .hqStatus, .hqEvent, .hqEventEn, .hqQueueSel, .hqQueueState, .hqQueueSeq]
  | 4 => [.mapCtrl, .mapAreaBase, .mapAreaSize, .mapCkptCfg, .mapStatus, .mapEvent, .mapEventEn]
  | 5 => [.mcCtrl, .mcStatus, .mcEvent, .mcEventEn, .mcRangeBase, .mcRangeLines, .mcRangeCmd, .mcRangeStatus, .mcRangeCount, .mcEccLog, .mcErrCount]
  | 6 => [.hbxCtrl, .hbxStatus, .hbxEvent, .hbxEventEn, .hbxLagCfg, .hbxRingCfg, .hbxSelftest, .hbxWearSel, .hbxWearData]
  | 7 => [.movCtrl, .movStatus, .movEvent, .movEventEn, .movDonePend, .movErrPend]
  | 8 => [.parCtrl, .parStatus, .parEvent, .parEventEn, .parTimeoutCfg, .parAccSel, .parAccState]
  | 9 => [.drvCtrl, .drvEvent, .drvEventEn]
  | 10 => [.sepCtrl, .sepStatus, .sepEvent, .sepEventEn, .sepPf0Raise, .sepWinCommit]
  | 11 => [.telCtrl, .telStatus, .telEvent, .telEventEn, .telAreaBase, .telDumpCfg, .telSampleCfg, .telSnapCmd]
  | 12 => [.glvStatus, .glvCrownCmd, .glvEvent, .glvEventEn, .glvFeedCfg, .glvImonCfg, .glvFeedA, .glvFeedB, .glvSelftest, .glvOsc]
  | 13 => [.pwrCtrl, .pwrDomainReq, .pwrDomainState, .pwrDomainBusy, .pwrEvent, .pwrEventEn, .pwrDomainFault]
  | 14 => [.ctlCtrl, .ctlStatus, .ctlEvent, .ctlEventEn, .ctlMbxCfg, .ctlInbandCfg, .ctlMctpCfg, .ctlRollback, .ctlPairStatus]
  | 15 => [.sysId, .sysUidLo, .sysUidHi, .sysKeyRevoke, .sysDecodeLog]
  | _ => []

/-- The CLK_ registers, from offset 0x8_0000 of block 13. -/
def clkRegs : List Reg := [.clkStatus, .clkEvent, .clkEventEn, .clkResetCause, .clkBootWdog, .clkTime, .clkTimeSet, .clkTimeAdj]

/-- The per-instance rows of Table 17.2: block, first offset, stride, instances, and the registers of instance i. -/
def instRegs (i : Nat) : List (Nat × Nat × Nat × Nat × List Reg) := [
  (0, 0x1000, 0x10, 160, [.fabPortCtrl i, .fabPortStatus i]),
  (1, 0x100, 0x8, 8, [.netGroupCfg i]),
  (1, 0x1000, 0x20, 64, [.netPortCtrl i, .netPortStatus i, .netPortMac i]),
  (6, 0x100, 0x20, 4, [.hbxPoolHead i, .hbxPoolTail i, .hbxPoolCopied i, .hbxPoolEpoch i]),
  (7, 0x1000, 0x80, 64, [.movShdSrc i, .movShdDst i, .movShdCtrl i, .movShdNext i, .movChCtrl i, .movChStatus i, .movChCur i, .movChCrc i, .movChProgress i]),
  (9, 0x1000, 0x8, 64, [.drvPortStatus i]),
  (10, 0x1000, 0x20, 64, [.sepWinShdBase i, .sepWinShdCtrl i, .sepWinActBase i, .sepWinActCtrl i]),
  (11, 0x10000, 0x10, 2048, [.telCtrCfg i, .telCtr i]),
  (14, 0x100, 0x10, 8, [.ctlMbxDoorbell i, .ctlMbxState i])]


/-- The register that occupies an aligned 64-bit quantity of register space, if any (R388, R389). -/
def regOfAddr (a : Nat) : Option Reg :=
  if a < regSpace ∨ 0x0F0001000000 ≤ a ∨ a % 8 ≠ 0 then none
  else
    let b := (a - regSpace) / 0x100000
    let off := (a - regSpace) % 0x100000
    match (blockRegs b)[off / 8]? with
    | some r => some r
    | none =>
      if b = 13 ∧ 0x80000 ≤ off then clkRegs[(off - 0x80000) / 8]?
      else
        (instRegs 0).foldl (fun acc row =>
          match acc with
          | some r => some r
          | none =>
            if row.1 = b ∧ row.2.1 ≤ off ∧ (off - row.2.1) / row.2.2.1 < row.2.2.2.1 then
              let i := (off - row.2.1) / row.2.2.1
              ((instRegs i).find? (fun q => q.1 == b && q.2.1 == row.2.1)).bind
                (fun q => q.2.2.2.2[((off - row.2.1) % row.2.2.1) / 8]?)
            else none) none

/-- The stored bits of a register: RW, W1C and W1S masks and the reset value. -/
structure RegInfo where
  rw : Word := 0
  w1c : Word := 0
  w1s : Word := 0
  reset : Word := 0
deriving DecidableEq, Repr

/-- The stored bits of each register, from the register tables (Table 0.4 codes). -/
def regInfo : Reg → RegInfo
  | .fabCtrl => { rw := 0x101, reset := 0x100 }
  | .fabStatus => {}
  | .fabEvent => { w1c := 0xFF }
  | .fabEventEn => { rw := 0xFF }
  | .fabBrimCfg => { rw := 0xFFFFF, reset := 0x77777 }
  | .fabGwCfg => { rw := 0xFFFFF, reset := 0x20000 }
  | .fabWrrCfg => { rw := 0xFFFFFFFF, reset := 0x1040810 }
  | .fabSampleCfg => { rw := 0x300FFFFFF, reset := 0x100000000 }
  | .fabPortCtrl _ => { rw := 0xFFFF0003, reset := 0x400002 }
  | .fabPortStatus _ => {}
  | .netCtrl => { rw := 0xFF01 }
  | .netPrioCfg => { rw := 0x3013F07, reset := 0x11A03 }
  | .netPfcCfg => { rw := 0xFFFFFFFF, reset := 0x2000180 }
  | .netWdogCfg => { rw := 0xFFFFFFFFFFFF, reset := 0x3E800320064 }
  | .netEvent => { w1c := 0x7F }
  | .netEventEn => { rw := 0x7F }
  | .netPtpTxtsTag => {}
  | .netPtpTxtsTime => {}
  | .netGidSel => { rw := 0x3FF }
  | .netGidAddrHi => { rw := 0xFFFFFFFFFFFFFFFF }
  | .netGidAddrLo => { rw := 0xFFFFFFFFFFFFFFFF }
  | .netGidAttr => { rw := 0x11FFF }
  | .netGroupCfg _ => { rw := 0x1FF, reset := 0x1 }
  | .netPortCtrl _ => { rw := 0xFFFCFFFFFFFF0007, reset := 0x17B8000008080002 }
  | .netPortStatus _ => {}
  | .netPortMac _ => { rw := 0xFFFFFFFFFFFF }
  | .qpCtrl => { rw := 0xFFFFFFFF00000F07, reset := 0x1BC8114400000806 }
  | .qpCtxBase => { rw := 0x1FFFF000000 }
  | .qpStatus => {}
  | .qpAckCfg => { rw := 0xF8FFFFFF, reset := 0x60100FA0 }
  | .qpCcCfg => { rw := 0xFFFFFFFFFFFFFFFF, reset := 0x8020001401F40001 }
  | .qpRegionCfg => { rw := 0xFFFFFFFF, reset := 0x640400 }
  | .qpEvent => { w1c := 0x7F }
  | .qpEventEn => { rw := 0x7F }
  | .qpRevokeCmd => {}
  | .qpRevokeStatus => {}
  | .qpCtxSel => { rw := 0xFFFF }
  | .qpCtxState => {}
  | .hqCtrl => { rw := 0xFF07, reset := 0x3306 }
  | .hqAreaBase => { rw := 0x1FFC0000000 }
  | .hqAreaSize => { rw := 0x1FF }
  | .hqLimitCfg => { rw := 0xFF007FFF007FFFFF, reset := 0x3C00400000409000 }
  | .hqEs => { rw := 0x7, reset := 0x1 }
  | .hqHold => { rw := 0xFFFF0000, reset := 0x5DC0000 }
  | .hqStatus => {}
  | .hqEvent => { w1c := 0x3F }
  | .hqEventEn => { rw := 0x3F }
  | .hqQueueSel => { rw := 0x3FF003F }
  | .hqQueueState => {}
  | .hqQueueSeq => {}
  | .mapCtrl => { rw := 0x1 }
  | .mapAreaBase => { rw := 0x1FFC0000000 }
  | .mapAreaSize => { rw := 0x7FF }
  | .mapCkptCfg => { rw := 0xFFFFFFFFFFFFF, reset := 0x4271000010000 }
  | .mapStatus => {}
  | .mapEvent => { w1c := 0xF }
  | .mapEventEn => { rw := 0xF }
  | .mcCtrl => { rw := 0xF3, reset := 0xF0 }
  | .mcStatus => {}
  | .mcEvent => { w1c := 0xFF }
  | .mcEventEn => { rw := 0xFF }
  | .mcRangeBase => { rw := 0x1FFFFFFFFC0 }
  | .mcRangeLines => { rw := 0xFFFFFFFF }
  | .mcRangeCmd => {}
  | .mcRangeStatus => {}
  | .mcRangeCount => {}
  | .mcEccLog => { w1c := 0x8000000000000000 }
  | .mcErrCount => {}
  | .hbxCtrl => { rw := 0xF1F1, reset := 0x3000 }
  | .hbxStatus => {}
  | .hbxEvent => { w1c := 0x1FF }
  | .hbxEventEn => { rw := 0x1FF }
  | .hbxLagCfg => { rw := 0xFFFFFFFFFFFFFFF, reset := 0x6407D003E805DC }
  | .hbxRingCfg => { rw := 0xFFFFFF, reset := 0x401040 }
  | .hbxSelftest => {}
  | .hbxWearSel => { rw := 0x1FF }
  | .hbxWearData => {}
  | .hbxPoolHead _ => { rw := 0xFFFFFFFFFFFFFFFF }
  | .hbxPoolTail _ => { rw := 0xFFFFFFFFFFFFFFFF }
  | .hbxPoolCopied _ => {}
  | .hbxPoolEpoch _ => { rw := 0xFFFFFFFF }
  | .movCtrl => { rw := 0xFFFF07, reset := 0x3200 }
  | .movStatus => {}
  | .movEvent => { w1c := 0xF }
  | .movEventEn => { rw := 0xF }
  | .movDonePend => { w1c := 0xFFFFFFFFFFFFFFFF }
  | .movErrPend => { w1c := 0xFFFFFFFFFFFFFFFF }
  | .movShdSrc _ => { rw := 0xFFFFFFFFFFFFFFFF }
  | .movShdDst _ => { rw := 0xFFFFFFFFFFFFFFFF }
  | .movShdCtrl _ => { rw := 0xFFFFFFFFFFFFFFFF }
  | .movShdNext _ => { rw := 0xFFFFFFFFFFFFFFFF }
  | .movChCtrl _ => { rw := 0x300, w1s := 0x8, reset := 0x200 }
  | .movChStatus _ => { w1c := 0x200000000000000 }
  | .movChCur _ => {}
  | .movChCrc _ => {}
  | .movChProgress _ => {}
  | .parCtrl => { rw := 0xF }
  | .parStatus => {}
  | .parEvent => { w1c := 0xF }
  | .parEventEn => { rw := 0xF }
  | .parTimeoutCfg => { rw := 0xFFFF, reset := 0xA }
  | .parAccSel => { rw := 0x7FF }
  | .parAccState => {}
  | .drvCtrl => { rw := 0x1FFFF }
  | .drvEvent => { w1c := 0xF }
  | .drvEventEn => { rw := 0xF }
  | .drvPortStatus _ => {}
  | .sepCtrl => { rw := 0x7, reset := 0x4 }
  | .sepStatus => {}
  | .sepEvent => { w1c := 0x7FF }
  | .sepEventEn => { rw := 0x7FF }
  | .sepPf0Raise => {}
  | .sepWinCommit => { w1s := 0xFFFFFFFFFFFFFFFF }
  | .sepWinShdBase _ => { rw := 0xFFFFFFFFF000 }
  | .sepWinShdCtrl _ => { rw := 0xFF00FFFF0007 }
  | .sepWinActBase _ => {}
  | .sepWinActCtrl _ => {}
  | .telCtrl => { rw := 0x1 }
  | .telStatus => {}
  | .telEvent => { w1c := 0x1F }
  | .telEventEn => { rw := 0x1F }
  | .telAreaBase => { rw := 0x1FFFE000000 }
  | .telDumpCfg => { rw := 0x100003FFF }
  | .telSampleCfg => { rw := 0xFFFFFF }
  | .telSnapCmd => {}
  | .telCtrCfg _ => { rw := 0x3, w1c := 0x100 }
  | .telCtr _ => {}
  | .glvStatus => {}
  | .glvCrownCmd => {}
  | .glvEvent => { w1c := 0xFFF }
  | .glvEventEn => { rw := 0xFFF }
  | .glvFeedCfg => { rw := 0xFFFFFFFFFFFFFFFF, reset := 0xFA0173E11306432 }
  | .glvImonCfg => { rw := 0xFFFF }
  | .glvFeedA => {}
  | .glvFeedB => {}
  | .glvSelftest => {}
  | .glvOsc => {}
  | .pwrCtrl => { w1s := 0x1 }
  | .pwrDomainReq => { rw := 0x3FFFFFFFFFFFFFFF, reset := 0x3FFFFFFFFFFFFFFF }
  | .pwrDomainState => {}
  | .pwrDomainBusy => {}
  | .pwrEvent => { w1c := 0xF }
  | .pwrEventEn => { rw := 0xF }
  | .pwrDomainFault => { w1c := 0x3FFFFFFFFFFFFFFF }
  | .clkStatus => {}
  | .clkEvent => { w1c := 0x1F }
  | .clkEventEn => { rw := 0x1F }
  | .clkResetCause => {}
  | .clkBootWdog => { rw := 0xFFFF, reset := 0x258 }
  | .clkTime => {}
  | .clkTimeSet => {}
  | .clkTimeAdj => { rw := 0xFFFFFFFF }
  | .ctlCtrl => { rw := 0xF, reset := 0x6 }
  | .ctlStatus => {}
  | .ctlEvent => { w1c := 0x7F }
  | .ctlEventEn => { rw := 0x7F }
  | .ctlMbxCfg => { rw := 0x3FF03FF03FF, reset := 0x1BF03FF03FF }
  | .ctlInbandCfg => { rw := 0xFFFF, reset := 0x9E34 }
  | .ctlMctpCfg => {}
  | .ctlRollback => {}
  | .ctlPairStatus => {}
  | .ctlMbxDoorbell _ => {}
  | .ctlMbxState _ => {}
  | .sysId => {}
  | .sysUidLo => {}
  | .sysUidHi => {}
  | .sysKeyRevoke => {}
  | .sysDecodeLog => { w1c := 0x8000000000000000 }

/-- The event register of the block that holds a register, and its CFG_REJECT bit; none in block 15, which has no event register. -/
def rejectBit (r : Reg) : Option (Reg × Nat) :=
  match regAddr r / 0x100000 % 16 with
  | 0 => some (.fabEvent, 7)
  | 1 => some (.netEvent, 6)
  | 2 => some (.qpEvent, 6)
  | 3 => some (.hqEvent, 5)
  | 4 => some (.mapEvent, 3)
  | 5 => some (.mcEvent, 7)
  | 6 => some (.hbxEvent, 8)
  | 7 => some (.movEvent, 3)
  | 8 => some (.parEvent, 3)
  | 9 => some (.drvEvent, 3)
  | 10 => some (.sepEvent, 10)
  | 11 => some (.telEvent, 4)
  | 12 => some (.glvEvent, 11)
  | 13 => if regAddr r % 0x100000 < 0x80000 then some (.pwrEvent, 3) else some (.clkEvent, 4)
  | 14 => some (.ctlEvent, 6)
  | _ => none

end Sys2Proof.Machine
end

