-- ==== Sys2Proof/Machine/Ops.lean ====
section
/-! DEFINITION. The named operations every family shares: sparse tables, byte order (R4), memory, register storage and event bits
(R5 to R7), counters (R357 to R359), management events (R286), PF0 sources (R346), emissions, shelf time and free values. -/

namespace Sys2Proof.Machine

/-- What a command answers. -/
abbrev Res := Host.Outcome State Fault Refusal

/-! ## Sparse tables -/

/-- The entry of a key. -/
def tget {α : Type} (t : Tab α) (k : Nat) : Option α :=
  match t with
  | [] => none
  | (j, v) :: r => if j = k then some v else tget r k

/-- The table with the entry of a key set, in rising order of key. -/
def tput {α : Type} (t : Tab α) (k : Nat) (v : α) : Tab α :=
  match t with
  | [] => [(k, v)]
  | (j, w) :: r => if k < j then (k, v) :: (j, w) :: r else if j = k then (k, v) :: r else (j, w) :: tput r k v

/-- The table without a key. -/
def tdel {α : Type} (t : Tab α) (k : Nat) : Tab α :=
  match t with
  | [] => []
  | (j, w) :: r => if j = k then r else (j, w) :: tdel r k

/-- The table with an existing entry changed; unchanged where the key is absent. -/
def tmod {α : Type} (t : Tab α) (k : Nat) (f : α → α) : Tab α :=
  t.map (fun e => if e.1 = k then (e.1, f e.2) else e)

/-- The table with every entry changed. -/
def tmap {α : Type} (t : Tab α) (f : Nat → α → α) : Tab α := t.map (fun e => (e.1, f e.1 e.2))

/-- Whether a key is present. -/
def thas {α : Type} (t : Tab α) (k : Nat) : Bool := (tget t k).isSome

/-- The first unused key at or after a start, cyclically below a bound. -/
def freeKey {α : Type} (t : Tab α) (start bound : Nat) : Option Nat :=
  ((List.range (t.length + 1)).map (fun i => (start + i) % bound)).find? (fun k => !(thas t k))

/-- Fold a list of changes over a state. -/
def forAll {α : Type} (l : List α) (f : State → α → State) (s : State) : State := l.foldl f s

/-- Insertion into a sorted list. -/
def insertBy {α : Type} (le : α → α → Bool) (x : α) : List α → List α
  | [] => [x]
  | y :: r => if le x y then x :: y :: r else y :: insertBy le x r

/-- A list sorted by an order, keeping the order of equal elements. -/
def sortBy {α : Type} (le : α → α → Bool) : List α → List α
  | [] => []
  | x :: r => insertBy le x (sortBy le r)

/-! ## Bytes -/

/-- `n` bytes of a number, least significant first (R4). -/
def leBytes (n v : Nat) : Bytes := (List.range n).map (fun i => BitVec.ofNat 8 (v / 256 ^ i))

/-- The number that bytes spell, least significant first (R4). -/
def leNat : Bytes → Nat
  | [] => 0
  | b :: r => b.toNat + 256 * leNat r

/-- `n` bytes of a number, most significant first (standard wire formats, R4). -/
def beBytes (n v : Nat) : Bytes := (leBytes n v).reverse

/-- `n` zero bytes. -/
def zeros (n : Nat) : Bytes := List.replicate n 0

/-- The first `n` bytes, padded with zeros. -/
def padTo (n : Nat) (b : Bytes) : Bytes := b.take n ++ zeros (n - b.length)

/-- Bytes `off` to `off + n - 1`, zeros past the end. -/
def sub (b : Bytes) (off n : Nat) : Bytes := padTo n (b.drop off)

/-- The little-endian field `off:size` of a structure. -/
def fieldAt (b : Bytes) (off size : Nat) : Nat := leNat (sub b off size)

/-- Bytes with a piece laid over them at an offset. -/
def overlay (b : Bytes) (off : Nat) (piece : Bytes) : Bytes :=
  padTo off b ++ piece ++ b.drop (off + piece.length)

/-- A structure built from fields "off:size" and raw pieces, every unnamed byte zero. -/
def pack (len : Nat) (fields : List (Nat × Nat × Nat)) : Bytes :=
  padTo len (fields.foldl (fun b f => overlay b f.1 (leBytes f.2.1 f.2.2)) (zeros len))

/-- One bit step of a reflected 32-bit CRC. -/
def crc32cBit (c : BitVec 32) : BitVec 32 :=
  if c.getLsbD 0 then (c >>> 1) ^^^ 0x82F63B78#32 else c >>> 1

/-- CRC32C state after a byte (R298). -/
def crc32cByte (c : BitVec 32) (b : Byte) : BitVec 32 :=
  (List.range 8).foldl (fun c _ => crc32cBit c) (c ^^^ b.zeroExtend 32)

/-- CRC32C of bytes: reflected polynomial 0x82F6_3B78, initial value and final XOR 0xFFFF_FFFF (R298). -/
def crc32c (b : Bytes) : BitVec 32 := (b.foldl crc32cByte 0xFFFFFFFF#32) ^^^ 0xFFFFFFFF#32

/-- One bit step of the NVMe 64-bit guard CRC, reflected. PRESUMED polynomial 0xAD93D23594C93659 of the NVM Command Set (log entry 5). -/
def crc64Bit (c : BitVec 64) : BitVec 64 :=
  if c.getLsbD 0 then (c >>> 1) ^^^ 0x9A6C9329AC4BC9B5#64 else c >>> 1

/-- Guard CRC state after a byte. -/
def crc64Byte (c : BitVec 64) (b : Byte) : BitVec 64 :=
  (List.range 8).foldl (fun c _ => crc64Bit c) (c ^^^ b.zeroExtend 64)

/-- The NVMe 64-bit guard CRC of bytes (Table 2.2). -/
def crc64 (b : Bytes) : BitVec 64 :=
  (b.foldl crc64Byte 0xFFFFFFFFFFFFFFFF#64) ^^^ 0xFFFFFFFFFFFFFFFF#64

/-- Run-length storage of a sparse byte map laid over zeros: the bytes of a range. -/
def sparseRead (m : List (Nat × Byte)) (off n : Nat) : Bytes :=
  (List.range n).map (fun i => (tget m (off + i)).getD 0)

/-- A sparse byte map with bytes written at an offset. -/
def sparseWrite (m : List (Nat × Byte)) (off : Nat) (b : Bytes) : List (Nat × Byte) :=
  (b.zipIdx).foldl (fun m p => tput m (off + p.2) p.1) m

/-! ## Memory -/

/-- Canonical form: addresses strictly rising, no byte equal to the 0 that an unlisted address reads as. -/
def memWf : List Host.Cell → Bool
  | [] => true
  | [(_, b)] => b != 0
  | (a, b) :: (a', b') :: r => b != 0 && decide (a < a') && memWf ((a', b') :: r)

/-- The byte at an address; an unlisted address reads as 0 (log entry 3). -/
def memRead (m : List Host.Cell) (a : Nat) : Byte :=
  match m with
  | [] => 0
  | (j, b) :: r => if j = a then b else memRead r a

/-- Memory with one byte written, in canonical form. -/
def memWrite (m : List Host.Cell) (a : Nat) (v : Byte) : List Host.Cell :=
  match m with
  | [] => if v = 0 then [] else [(a, v)]
  | (j, b) :: r =>
    if a < j then (if v = 0 then (j, b) :: r else (a, v) :: (j, b) :: r)
    else if j = a then (if v = 0 then r else (a, v) :: r)
    else (j, b) :: memWrite r a v

/-- `n` bytes of memory from an address. -/
def memReads (m : List Host.Cell) (a n : Nat) : Bytes := (List.range n).map (fun i => memRead m (a + i))

/-- Memory with bytes written from an address. -/
def memWrites (m : List Host.Cell) (a : Nat) : Bytes → List Host.Cell
  | [] => m
  | b :: r => memWrites (memWrite m a b) (a + 1) r

/-- The state with bytes written to DRAM or the cell buffer. -/
def store (s : State) (a : Nat) (b : Bytes) : State := { s with mem := memWrites s.mem a b }

/-! ## Registers -/

/-- Bits `hi:lo` of a word (R3). -/
def bits (w : Word) (hi lo : Nat) : Nat := w.toNat / 2 ^ lo % 2 ^ (hi + 1 - lo)

/-- One bit of a word. -/
def bit (w : Word) (i : Nat) : Bool := w.getLsbD i

/-- A word with bit `i` equal to a Bool, other bits 0. -/
def bitIf (b : Bool) (i : Nat) : Word := if b then (1#64) <<< i else 0#64

/-- A word with a number in bits from `lo` up. -/
def atLo (v lo : Nat) : Word := BitVec.ofNat 64 (v * 2 ^ lo)

/-- The stored bits of a register. -/
def bankGet (s : State) (r : Reg) : Word := (tget s.bank (regAddr r)).getD (regInfo r).reset

/-- The state with a register's stored bits set. -/
def bankSet (s : State) (r : Reg) (v : Word) : State := { s with bank := tput s.bank (regAddr r) v }

/-- A stored field. -/
def fld (s : State) (r : Reg) (hi lo : Nat) : Nat := bits (bankGet s r) hi lo

/-- A stored bit. -/
def flag (s : State) (r : Reg) (i : Nat) : Bool := bit (bankGet s r) i

/-- The state with a stored field set by the device. -/
def setFld (s : State) (r : Reg) (hi lo v : Nat) : State :=
  let m : Word := BitVec.ofNat 64 ((2 ^ (hi + 1 - lo) - 1) * 2 ^ lo)
  bankSet s r ((bankGet s r &&& ~~~m) ||| (atLo v lo &&& m))

/-- The device sets a bit of a register. -/
def setBit (s : State) (r : Reg) (i : Nat) : State := bankSet s r (bankGet s r ||| (1#64 <<< i))

/-- The device clears a bit of a register. -/
def clearBit (s : State) (r : Reg) (i : Nat) : State := bankSet s r (bankGet s r &&& ~~~(1#64 <<< i))

/-- A write of `v` to the stored bits of a register by their access codes (R6, R7). `sets` are W1C bits that the device sets in the
same cycle, `clears` W1S bits that it clears in that cycle: a set wins in both cases. -/
def accessWrite (i : RegInfo) (old v sets clears : Word) : Word :=
  (v &&& i.rw)
    ||| (((old &&& ~~~v) ||| sets) &&& i.w1c)
    ||| (((old &&& ~~~clears) ||| v) &&& i.w1s)

/-- CFG_REJECT of the block that holds a register. -/
def cfgReject (s : State) (r : Reg) : State :=
  match rejectBit r with
  | some (ev, b) => setBit s ev b
  | none => s

/-- Whether a block's interrupt to the control complex is raised: an enabled event bit is 1. -/
def interrupt (s : State) (ev en : Reg) : Bool := (bankGet s ev &&& bankGet s en) != 0

/-- An undecoded access is logged (R388): while VALID is 1 the log keeps its first entry and COUNT goes on, saturating at 127. -/
def undecoded (s : State) (src addr : Nat) : State :=
  if s.decValid then { s with decCount := min 127 (s.decCount + 1) }
  else { s with decValid := true, decCount := min 127 (s.decCount + 1), decSrc := src, decAddr := addr }

/-! ## Emissions, time, free values -/

/-- The device sends something out. -/
def emit (s : State) (o : Out) : State := { s with out := o :: s.out }

/-- Shelf time in ns (R338). -/
def nowOf (s : State) : Nat := s.clk.now

/-- Shelf time has reached an instant: a timed command carries the time forward to when it is due (log entry 6). -/
def reach (s : State) (t : Nat) : State := { s with clk := { s.clk with now := max s.clk.now t } }

/-- A free number (log entry 2). -/
def drawNat (s : State) : Nat × State := (Config.freeNat s.fresh, { s with fresh := s.fresh + 1 })

/-- A free word. -/
def drawWord (s : State) : Word × State := (Config.freeWord s.fresh, { s with fresh := s.fresh + 1 })

/-- Free bytes of a length. -/
def drawBytes (s : State) (n : Nat) : Bytes × State :=
  (padTo n (Config.freeBytes s.fresh n), { s with fresh := s.fresh + 1 })

/-! ## Counters -/

/-- The default of a counter that nothing has counted into. -/
def ctrOf (t : Tab Ctr) (n : Nat) : Ctr := (tget t n).getD {}

/-- Add to a counter's value; answers whether it wrapped (R359). -/
def ctrAdd (t : Tab Ctr) (n v : Nat) : Tab Ctr × Bool :=
  let c := ctrOf t n
  (tput t n { c with value := (c.value + v) % 2 ^ 48 }, decide (2 ^ 48 ≤ c.value + v))

/-- Counter `n` wrapped: a chained one adds 1 to its high half, an unchained one or a high half sets OVF and CTR_OVF (R359). -/
def ctrWrap (s : State) (n : Nat) : State :=
  let c := ctrOf s.tel.ctrs n
  let ovf (s : State) (n : Nat) : State :=
    setBit { s with tel := { s.tel with ctrs := tput s.tel.ctrs n { ctrOf s.tel.ctrs n with ovf := true } } } .telEvent 3
  if c.chain then
    let (t, w) := ctrAdd s.tel.ctrs (n + 1) 1
    let s := { s with tel := { s.tel with ctrs := t } }
    if w then ovf s (n + 1) else s
  else ovf s n

/-- Whether a counter is the high half of a chain. -/
def ctrHigh (t : Tab Ctr) (n : Nat) : Bool := n != 0 && (ctrOf t (n - 1)).chain

/-- A PULSE event of value `v` at counter `n` (R358): added by level, or 1 by edge; the high half of a chain ignores its own event. -/
def countBy (s : State) (n v : Nat) : State :=
  if v = 0 ∨ ctrHigh s.tel.ctrs n then s
  else
    let add := if (ctrOf s.tel.ctrs n).edge then 1 else v
    let (t, w) := ctrAdd s.tel.ctrs n add
    let s := { s with tel := { s.tel with ctrs := t } }
    if w then ctrWrap s n else s

/-- One occurrence of event `n` of Table 15.1. -/
def count (s : State) (n : Nat) : State := countBy s n 1

/-! ## DRAM errors -/

/-- A DRAM error (Table 15.5): `kind` 1 corrected, 2 uncorrectable, at an address of a channel that the spec's text does not derive. -/
def dramError (s : State) (addr kind : Nat) : State :=
  let c := Config.dramChannelOf addr % 8
  match tget s.dimms c with
  | none => s
  | some d =>
    let d := { d with corrected := d.corrected + (if kind = 1 then 1 else 0), uncorrected := d.uncorrected + (if kind = 1 then 0 else 1)
                      errTimes := (nowOf s, kind == 1) :: d.errTimes.filter (fun e => decide (nowOf s < e.1 + 90000000000000))
                      lastAddr := addr, lastTime := nowOf s, lastKind := kind }
    { s with dimms := tput s.dimms c d }

/-! ## Endpoint interrupts -/

/-- A physical function. -/
def sepFn (s : State) (pf : Nat) : SepFn := if pf = 0 then s.sep.pf0 else s.sep.pf1

/-- The state with a function changed. -/
def setSepFn (s : State) (pf : Nat) (f : SepFn → SepFn) : State :=
  if pf = 0 then { s with sep := { s.sep with pf0 := f s.sep.pf0 } } else { s with sep := { s.sep with pf1 := f s.sep.pf1 } }

/-- Whether a function may issue requests: Master Enable, not in D3hot, not resetting (R352 to R354). -/
def fnLive (f : SepFn) : Bool := f.me && !f.d3 && !f.flr

/-- Whether an MSI-X vector is masked, by its function or by its entry, whose mask PCIe sets at reset (log entry 15). -/
def vectorMasked (f : SepFn) (v : Nat) : Bool := f.msixMask || (((tget f.table v).map (fun e => e.2.getLsbD 32)).getD true)

/-- A function signals an MSI-X vector, or keeps it pending (R346, R352). -/
def msixVector (s : State) (pf v : Nat) : State :=
  let f := sepFn s pf
  if !f.msix then s
  else if !(fnLive f) || vectorMasked f v then setSepFn s pf (fun f => { f with pba := f.pba ||| (1#64 <<< v) })
  else emit s (.msix pf v)

/-- PF0's message with MSI enabled without MSI-X, or the wait for one (R346, R352). -/
def msiSend (s : State) : State :=
  let f := s.sep.pf0
  if !f.msi || f.msix then s
  else if !(fnLive f) || f.msiMasked then setSepFn s 0 (fun f => { f with msiPending := true })
  else emit s .msi

/-- Send PF0's interrupt for a source by the mode in force (R346). -/
def pf0Signal (s : State) (v : Nat) (wasZero : Bool) : State :=
  if s.sep.pf0.msix then msixVector s 0 v else if wasZero then msiSend s else s

/-- PF0 interrupt source `v` is raised (R346). -/
def pf0Source (s : State) (v : Nat) : State :=
  let old := s.sep.intPend
  pf0Signal { s with sep := { s.sep with intPend := old ||| (1#64 <<< v) } } v (old == 0)

/-! ## Management events -/

/-- A management event is added (R286, Table 10.6): the 1,024 most recent are kept, EVENT_PENDING is set, PF0 source 4 raised. -/
def mgmt (s : State) (code object detail : Nat) : State :=
  let e : MgmtEvent :=
    { seq := s.ctl.nextEvent, time := nowOf s, code := if s.ctl.restartedNumbering then 11 else code
      object := object, detail := detail }
  let s := { s with ctl := { s.ctl with events := (s.ctl.events ++ [e]).drop (s.ctl.events.length + 1 - 1024)
                                        nextEvent := s.ctl.nextEvent + 1, restartedNumbering := false
                                        overwritten := s.ctl.overwritten + (s.ctl.events.length + 1 - 1024) }
                    hbx := { s.hbx with nextEventSeq := some (s.ctl.nextEvent + 1) } }
  pf0Source (setBit s .ctlEvent 5) 4

end Sys2Proof.Machine
end

