-- ==== Sys2Proof/Machine/Layout.lean ====
section
/-! DEFINITION. Layouts, parity arithmetic, reserves, placement and capacity (chapter 1). -/

namespace Sys2Proof.Machine

/-! ## GF(2^8) (R19) -/

/-- Multiplication by g = 2 in GF(2^8) with polynomial 0x11D (R19). -/
def gfTimes2 (x : Byte) : Byte := if x.getLsbD 7 then (x <<< 1) ^^^ 0x1D#8 else x <<< 1

/-- Division by g (R19). -/
def gfOver2 (x : Byte) : Byte := if x.getLsbD 0 then ((x ^^^ 0x1D#8) >>> 1) ||| 0x80#8 else x >>> 1

/-- The product in GF(2^8). -/
def gfMul (a b : Byte) : Byte :=
  ((List.range 8).foldl (fun (acc : Byte × Byte) i =>
    (if b.getLsbD i then acc.1 ^^^ acc.2 else acc.1, gfTimes2 acc.2)) (0, a)).1

/-- g to the power i. -/
def gfPow : Nat → Byte
  | 0 => 1
  | i + 1 => gfTimes2 (gfPow i)

/-- The inverse of a non-zero element: its 254th power. -/
def gfInv (a : Byte) : Byte := (List.range 253).foldl (fun x _ => gfMul x a) a

/-- XOR of two byte runs. -/
def xorBytes (a b : Bytes) : Bytes := List.zipWith (· ^^^ ·) a b

/-- A byte run scaled by a field element. -/
def gfScale (c : Byte) (b : Bytes) : Bytes := b.map (gfMul c)

/-- P over data strips in order of position (R19). -/
def parityP (n : Nat) (ds : List Bytes) : Bytes := ds.foldl xorBytes (zeros n)

/-- Q over data strips with their positions (R19). -/
def parityQ (n : Nat) (ds : List (Nat × Bytes)) : Bytes :=
  ds.foldl (fun acc d => xorBytes acc (gfScale (gfPow d.1) d.2)) (zeros n)

/-- Solve up to two erased positions of a k+2 row of `n`-byte pieces from the pieces at hand (R19). None when the
row cannot be solved. -/
def gfSolve (k n : Nat) (have_ : List (Nat × Bytes)) (erased : List Nat) : Option (List (Nat × Bytes)) :=
  let data := have_.filter (fun d => d.1 < k)
  let p := (have_.find? (fun d => d.1 == k)).map (·.2)
  let q := (have_.find? (fun d => d.1 == k + 1)).map (·.2)
  let px := parityP n (data.map (·.2))
  let qx := parityQ n data
  let lost := (List.range k).filter (fun i => !(data.any (fun d => d.1 == i)))
  let solved : Option (List (Nat × Bytes)) :=
    match lost with
    | [] => some data
    | [a] =>
      match p, q with
      | some pb, _ => some ((a, xorBytes px pb) :: data)
      | none, some qb => some ((a, gfScale (gfInv (gfPow a)) (xorBytes qx qb)) :: data)
      | none, none => none
    | [a, b] =>
      match p, q with
      | some pb, some qb =>
        let sp := xorBytes px pb
        let sq := xorBytes qx qb
        let da := gfScale (gfInv (gfPow a ^^^ gfPow b)) (xorBytes sq (gfScale (gfPow b) sp))
        some ((a, da) :: (b, xorBytes sp da) :: data)
      | _, _ => none
    | _ => none
  solved.map (fun ds =>
    erased.filterMap (fun e =>
      if e < k then (ds.find? (fun d => d.1 == e))
      else if e = k then some (k, parityP n (ds.map (·.2)))
      else some (k + 1, parityQ n ds)))

/-! ## Layouts (Table 1.2, codes of Table 4.11) -/

/-- Members of a data band. -/
def layoutW (layout k : Nat) : Nat :=
  match layout with
  | 0 => k + 2
  | 1 => 2
  | 2 => 3
  | 3 => k
  | _ => k + 2

/-- Failures a layout tolerates. -/
def layoutTol (layout : Nat) : Nat :=
  match layout with
  | 0 => 2
  | 1 => 1
  | 2 => 2
  | 3 => 0
  | _ => 2

/-- Whether a layout has parity positions. -/
def layoutParity (layout : Nat) : Bool := layout == 0 || layout == 4

/-- Whether a layout keeps copies. -/
def layoutMirror (layout : Nat) : Bool := layout == 1 || layout == 2

/-- The limits of Table 1.2 on K. -/
def layoutOk (layout k : Nat) : Bool :=
  match layout with
  | 0 => decide (2 ≤ k ∧ k ≤ 30)
  | 1 => k == 1
  | 2 => k == 1
  | 3 => decide (2 ≤ k ∧ k ≤ 32)
  | 4 => decide (2 ≤ k ∧ k ≤ 30)
  | _ => false

/-- Slots of a drive of a capacity in bytes (R13). -/
def slotsOf (capacity : Nat) : Nat := (capacity - 0x8000000) / 0x40000000

/-- First LBA of a slot (R13). -/
def slotLba (slot : Nat) : Nat := 0x4000 + slot * 0x40000

/-- Blocks per strip (R27). -/
def stripBlocks (shift : Nat) : Nat := 16 * 2 ^ shift

/-- Stripes in a slot (R14). -/
def stripesPerBand (shift : Nat) : Nat := 16384 / 2 ^ shift

/-- Data strips of a band: 1 for mirrors (R27). -/
def Band.dataK (b : Band) : Nat := b.k

/-- Whether a band is a mirror band: K is 1 (Table 4.14). -/
def Band.mirror (b : Band) : Bool := b.k == 1

/-- Whether a band has P and Q: w = k + 2 with k above 1. -/
def Band.parity (b : Band) : Bool := b.k != 1 && b.w == b.k + 2

/-! ## Drives and members -/

def driveAt (s : State) (slot : Nat) : Drive := (tget s.drives slot).getD {}

def setDrive (s : State) (slot : Nat) (f : Drive → Drive) : State :=
  { s with drives := tput s.drives slot (f (driveAt s slot)) }

def poolAt (s : State) (i : Nat) : Option Pool := tget s.pools i

def setPool (s : State) (i : Nat) (f : Pool → Pool) : State := { s with pools := tmod s.pools i f }

def volAt (s : State) (v : Nat) : Option Volume := tget s.volumes v

def setVol (s : State) (v : Nat) (f : Volume → Volume) : State := { s with volumes := tmod s.volumes v f }

/-- A member is online: its drive is known and its link is up. -/
def memberOnline (s : State) (m : Member) : Bool :=
  match m.driveSlot with
  | some d => (driveAt s d).linkUp
  | none => false

/-- Free slots of a member. -/
def memberFree (m : Member) : Nat := m.slots - m.used.length

/-- A member is eligible for placement (R23). -/
def eligible (s : State) (m : Member) : Bool :=
  memberOnline s m && m.state == .active && decide (0 < memberFree m)

/-- Members that count as present in the pool: active or evacuating (MEMBER_COUNT of Table 4.11). -/
def Pool.present (p : Pool) : List (Nat × Member) :=
  p.members.filter (fun e => e.2.state == .active || e.2.state == .evacuating)

/-- The n of R20: members neither failed, removed nor evacuating. -/
def Pool.activeCount (p : Pool) : Nat := (p.members.filter (fun e => e.2.state == .active)).length

/-- Slots of the pool. -/
def Pool.slotTotal (p : Pool) : Nat := (p.present.map (fun e => e.2.slots)).sum

/-- Free slots in the pool, on active members. -/
def Pool.freeSlots (p : Pool) : Nat :=
  ((p.members.filter (fun e => e.2.state == .active)).map (fun e => memberFree e.2)).sum

/-- The spare reserve: the slot counts of the S largest members (R21). -/
def Pool.spareReserve (p : Pool) : Nat :=
  ((sortBy (fun a b => decide (b ≤ a)) (p.present.map (fun e => e.2.slots))).take p.spare).sum

/-- The log reserve, rounded up to a multiple of 3 slots (R18); none outside double-parity and folded pools. -/
def Pool.logReserveSlots (p : Pool) : Nat :=
  if layoutParity p.layout then
    let x := p.logReserve * p.slotTotal
    let up := (x + 1023) / 1024
    (up + 2) / 3 * 3
  else 0

/-- Slots that log bands hold. -/
def Pool.logHeld (p : Pool) : Nat :=
  ((p.bands.filter (fun e => e.2.cls == 1 && e.2.state != .free)).map (fun e => e.2.w)).sum

/-- The unheld log reserve (R21). -/
def Pool.logUnheld (p : Pool) : Nat := p.logReserveSlots - p.logHeld

/-! ## Placement (R23 to R25) -/

/-- The score function of R23, modulo 2^64. -/
def score (seed : Word) (n : Nat) (u : BitVec 64) : Word :=
  let x := seed ^^^ (BitVec.ofNat 64 n * 0x9E3779B97F4A7C15#64) ^^^ (u * 0xC2B2AE3D27D4EB4F#64)
  let x := (x ^^^ (x >>> 30)) * 0xBF58476D1CE4E5B9#64
  let x := (x ^^^ (x >>> 27)) * 0x94D049BB133111EB#64
  x ^^^ (x >>> 31)

/-- Eligible members in rank order: descending score, then ascending index (R23). -/
def ranked (seed : Word) (n : Nat) (ms : List (Nat × Member)) : List (Nat × Member) :=
  sortBy (fun a b =>
    let x := (score seed n a.2.uid).toNat
    let y := (score seed n b.2.uid).toNat
    decide (y < x) || (x == y && decide (a.1 ≤ b.1))) ms

/-- The balance correction of R24 over a proposal, with the remaining members in rank order. -/
def balance (tol : Nat) (ms : List (Nat × Member)) (chosen rest : List (Nat × Member)) : List (Nat × Member) :=
  let used := (ms.map (fun e => e.2.used.length)).sum
  let total := (ms.map (fun e => e.2.slots)).sum
  let ovr (m : Member) : Bool := decide (m.slots * (used * 100 + tol * total) < m.used.length * total * 100)
  let low (m : Member) : Bool := decide (m.used.length * total ≤ used * m.slots)
  ((chosen.foldl (fun (acc : List (Nat × Member) × List (Nat × Member)) e =>
    if ovr e.2 then
      match acc.2.find? (fun r => low r.2) with
      | some r => (acc.1 ++ [r], acc.2.filter (fun x => x.1 != r.1))
      | none => (acc.1 ++ [e], acc.2)
    else (acc.1 ++ [e], acc.2)) ([], rest))).1

/-- The lowest slot not in use. -/
def lowestSlot (used : List Nat) (slots : Nat) : Option Nat :=
  (List.range (used.length + 1)).find? (fun i => decide (i < slots) && !(used.contains i))

/-- The members and slots of a new band, in the order recorded (R23 to R25); `skip` lists member indices set aside. -/
def propose (s : State) (p : Pool) (band w : Nat) (skip : List Nat) : Option (List (Nat × Nat)) :=
  let ms := p.members.filter (fun e => eligible s e.2 && !(skip.contains e.1))
  if ms.length < w then none
  else
    let r := ranked p.seed band ms
    let sel := balance p.balance ms (r.take w) (r.drop w)
    let placed := sel.filterMap (fun e => (lowestSlot e.2.used e.2.slots).map (fun sl => (e.1, sl)))
    if placed.length = w then some placed else none

/-- The lowest free band number (R143): a number never used or whose entry is FREE. -/
def freeBand (p : Pool) : Nat :=
  ((List.range (p.bands.length + 1)).find? (fun i =>
    match tget p.bands i with
    | some b => b.state == .free
    | none => true)).getD p.bands.length

/-- What a band allocation is for (R21). -/
inductive AllocKind where | data | log | system
deriving DecidableEq, Repr

/-- Whether the reserves allow a band of w slots (R21). -/
def reserveAllows (p : Pool) (kind : AllocKind) (w : Nat) : Bool :=
  match kind with
  | .data => decide (p.spareReserve + p.logUnheld + w ≤ p.freeSlots)
  | .log => decide (w ≤ p.logUnheld ∧ w ≤ p.freeSlots)
  | .system => decide (p.spareReserve + w ≤ p.freeSlots)

/-- Members and data strips of a band of a class in a pool: data bands by layout, log and system bands as mirrors (R17, R18). -/
def bandShape (p : Pool) (cls : Nat) : Nat × Nat :=
  if cls = 0 ∨ cls = 2 then (layoutW p.layout p.k, p.k)
  else if cls = 1 then (3, 1)
  else (if 3 ≤ p.present.length then 3 else 2, 1)

def allocKindOf (cls : Nat) : AllocKind := if cls = 0 ∨ cls = 2 then .data else if cls = 1 then .log else .system

/-- Mark slots of members used. -/
def useSlots (ms : Tab Member) (l : List (Nat × Nat)) : Tab Member :=
  l.foldl (fun ms e => tmod ms e.1 (fun m => { m with used := e.2 :: m.used })) ms

/-- Release slots of members. -/
def releaseSlots (ms : Tab Member) (l : List (Nat × Nat)) : Tab Member :=
  l.foldl (fun ms e => tmod ms e.1 (fun m => { m with used := m.used.filter (· != e.2) })) ms

/-- Allocate a band of a class, with its generation and Band Table entry (R16, R25, R40, R143): none where the reserves of R21 or the
eligible members do not allow it. -/
def allocBand (s : State) (pi cls : Nat) (skip : List Nat) : Option (Nat × State) :=
  match poolAt s pi with
  | none => none
  | some p =>
    let (w, k) := bandShape p cls
    if !(reserveAllows p (allocKindOf cls) w) then none
    else
      let n := freeBand p
      match propose s p n w skip with
      | none => none
      | some ms =>
        let cnt := p.allocCount + 1
        let b : Band :=
          { gen := cnt % 65535, state := .opened, cls := cls, k := k, w := w, stripShift := p.stripShift
            allocCount := cnt, allocTime := nowOf s, scrubTime := nowOf s, members := ms }
        some (n, setPool s pi (fun p =>
          { p with allocCount := cnt, bands := tput p.bands n b, members := useSlots p.members ms }))

/-! ## Capacity (R392) -/

/-- The largest number of further data bands (R392). -/
def moreBands (s : State) (p : Pool) : Nat :=
  let w := layoutW p.layout p.k
  let fs := (p.members.filter (fun e => eligible s e.2)).map (fun e => memberFree e.2)
  let room := p.freeSlots - (p.spareReserve + p.logUnheld)
  let fits (b : Nat) : Bool := decide (w * b ≤ (fs.map (fun f => min f b)).sum ∧ w * b ≤ room)
  let top := if w = 0 then 0 else room / w
  -- bisection over 0 to top, largest b that fits
  ((List.range 40).foldl (fun (lo, hi) _ =>
    if lo + 1 < hi then (if fits ((lo + hi) / 2) then ((lo + hi) / 2, hi) else (lo, (lo + hi) / 2)) else (lo, hi))
    (0, top + 1)).1

/-- USABLE_BLOCKS of POOL_QUERY (R392). -/
def usableBlocks (s : State) (p : Pool) : Nat :=
  let have_ := (p.bands.filter (fun e => (e.2.cls == 0 || e.2.cls == 2) && e.2.state != .free)).length
  (have_ + moreBands s p) * (p.k * 262144)

/-! ## Direct placement (R27) -/

/-- Band-list index, stripe, data position and block in the strip of a direct volume's block (R27). -/
def directPlace (k stripShift b : Nat) : Nat × Nat × Nat × Nat :=
  let sb := stripBlocks stripShift
  let r := b % (k * 262144)
  let u := r % (k * sb)
  (b / (k * 262144), r / (k * sb), u / sb, u % sb)

/-- The data-order offset of a (stripe, position, block) in a band, and back: data blocks are numbered stripe by stripe, position by
position, as R27 numbers them. -/
def dataOff (k stripShift stripe pos o : Nat) : Nat :=
  let sb := stripBlocks stripShift
  stripe * (k * sb) + pos * sb + o

def dataPlace (k stripShift off : Nat) : Nat × Nat × Nat :=
  let sb := stripBlocks stripShift
  let u := off % (k * sb)
  (off / (k * sb), u / sb, u % sb)

/-- The member slot's LBA of a stripe's row at any position (R15). -/
def rowLba (stripShift slot stripe o : Nat) : Nat := slotLba slot + stripe * stripBlocks stripShift + o

end Sys2Proof.Machine
end

