-- ==== Sys2Proof/Machine/Aes.lean ====
section
/-! DEFINITION. AES-256-XTS (R41): the block cipher of FIPS 197, and the XTS mode of IEEE 1619 over data units of 4,096 bytes whose sequence number is the
volume-relative block number as a 128-bit little-endian tweak. R41 names the standards and does not restate them (log entry 40). -/

namespace Sys2Proof.Machine

/-! ## The field and the substitution box of AES -/

/-- Multiplication by x in GF(2^8) with the polynomial of AES, 0x11B. -/
def aesTimes2 (x : Byte) : Byte := if x.getLsbD 7 then (x <<< 1) ^^^ 0x1B#8 else x <<< 1

/-- The product in the field of AES. -/
def aesMul (a b : Byte) : Byte :=
  ((List.range 8).foldl (fun (acc : Byte × Byte) i => (if b.getLsbD i then acc.1 ^^^ acc.2 else acc.1, aesTimes2 acc.2)) (0, a)).1

/-- The inverse in the field of AES, 0 for 0: the 254th power. -/
def aesInv (a : Byte) : Byte := (List.range 253).foldl (fun x _ => aesMul x a) a

/-- The substitution of a byte: inverse, then the affine map. -/
def aesSub (a : Byte) : Byte :=
  let b := aesInv a
  b ^^^ b.rotateLeft 1 ^^^ b.rotateLeft 2 ^^^ b.rotateLeft 3 ^^^ b.rotateLeft 4 ^^^ 0x63#8

/-- The substitution box, its inverse, and the products that the column maps use, by byte. -/
def aesBox : Array Byte := ((List.range 256).map (fun i => aesSub (BitVec.ofNat 8 i))).toArray
def aesUnbox : Array Byte := ((List.range 256).map (fun i => BitVec.ofNat 8 (aesBox.toList.findIdx (fun b => b == BitVec.ofNat 8 i)))).toArray
def aesBy (c : Byte) : Array Byte := ((List.range 256).map (fun i => aesMul c (BitVec.ofNat 8 i))).toArray
def aesBy2 : Array Byte := aesBy 2
def aesBy3 : Array Byte := aesBy 3
def aesBy9 : Array Byte := aesBy 9
def aesBy11 : Array Byte := aesBy 11
def aesBy13 : Array Byte := aesBy 13
def aesBy14 : Array Byte := aesBy 14

/-- The entry of a table for a byte. -/
def lut (t : Array Byte) (b : Byte) : Byte := (t[b.toNat]?).getD 0

/-! ## The cipher (FIPS 197), a state as 16 bytes in column order -/

/-- The words of the key schedule from a 32-byte key, newest first: 60 words of 4 bytes. -/
def aesWords (key : Bytes) : List Bytes :=
  let start : List Bytes := (List.range 8).foldl (fun ws i => sub key (4 * i) 4 :: ws) []
  ((List.range 52).foldl (fun (acc : List Bytes × Byte) n =>
    let i := n + 8
    let prev := acc.1.headD []
    let back := (acc.1[7]?).getD []
    let t := if i % 8 = 0 then xorBytes ((prev.drop 1 ++ prev.take 1).map (lut aesBox)) [acc.2, 0, 0, 0]
      else if i % 8 = 4 then prev.map (lut aesBox) else prev
    (xorBytes back t :: acc.1, if i % 8 = 0 then aesTimes2 acc.2 else acc.2)) (start, 1#8)).1

/-- The 15 round keys of 16 bytes, first to last. -/
def aesRoundKeys (key : Bytes) : List Bytes :=
  let ws := (aesWords key).reverse
  (List.range 15).map (fun r => ((ws.drop (4 * r)).take 4).flatten)

/-- The bytes of a state in a new order. -/
def reorder (idx : List Nat) (x : Bytes) : Bytes := idx.map (fun i => (x[i]?).getD 0)

/-- Row r of the state moves left by r columns; and back. -/
def aesShift : List Nat := [0, 5, 10, 15, 4, 9, 14, 3, 8, 13, 2, 7, 12, 1, 6, 11]
def aesUnshift : List Nat := [0, 13, 10, 7, 4, 1, 14, 11, 8, 5, 2, 15, 12, 9, 6, 3]

/-- A map over each column of the state. -/
def aesColumns (f : Byte → Byte → Byte → Byte → Bytes) : Bytes → Bytes
  | a :: b :: c :: d :: r => f a b c d ++ aesColumns f r
  | r => r

/-- The mixing of a column, and its inverse. -/
def aesMix (a b c d : Byte) : Bytes :=
  [lut aesBy2 a ^^^ lut aesBy3 b ^^^ c ^^^ d, a ^^^ lut aesBy2 b ^^^ lut aesBy3 c ^^^ d, a ^^^ b ^^^ lut aesBy2 c ^^^ lut aesBy3 d,
   lut aesBy3 a ^^^ b ^^^ c ^^^ lut aesBy2 d]
def aesUnmix (a b c d : Byte) : Bytes :=
  [lut aesBy14 a ^^^ lut aesBy11 b ^^^ lut aesBy13 c ^^^ lut aesBy9 d, lut aesBy9 a ^^^ lut aesBy14 b ^^^ lut aesBy11 c ^^^ lut aesBy13 d,
   lut aesBy13 a ^^^ lut aesBy9 b ^^^ lut aesBy14 c ^^^ lut aesBy11 d, lut aesBy11 a ^^^ lut aesBy13 b ^^^ lut aesBy9 c ^^^ lut aesBy14 d]

/-- The cipher over one 16-byte block under its round keys. -/
def aesEncrypt (rks : List Bytes) (x : Bytes) : Bytes :=
  match rks with
  | [] => x
  | k0 :: r =>
    let s := (r.take 13).foldl (fun s k => xorBytes (aesColumns aesMix (reorder aesShift (s.map (lut aesBox)))) k) (xorBytes x k0)
    xorBytes (reorder aesShift (s.map (lut aesBox))) ((r[13]?).getD [])

/-- The inverse cipher, which undoes the rounds from the last. -/
def aesDecrypt (rks : List Bytes) (x : Bytes) : Bytes :=
  match rks.reverse with
  | [] => x
  | kl :: r =>
    let s := (r.take 13).foldl (fun s k => aesColumns aesUnmix (xorBytes ((reorder aesUnshift s).map (lut aesUnbox)) k)) (xorBytes x kl)
    xorBytes ((reorder aesUnshift s).map (lut aesUnbox)) ((r[13]?).getD [])

/-! ## XTS (IEEE 1619) -/

/-- The tweak times x in GF(2^128), least significant byte first. -/
def xtsTimes2 (t : Bytes) : Bytes :=
  let v := 2 * leNat t
  leBytes 16 (if v < 2 ^ 128 then v else (v - 2 ^ 128) ^^^ 0x87)

/-- One pass over the 16-byte blocks of a data unit with a rising tweak. -/
def xtsBlocks (f : Bytes → Bytes) (n : Nat) (data tweak : Bytes) : Bytes :=
  ((List.range n).foldl (fun (acc : List Bytes × Bytes × Bytes) _ =>
    (xorBytes (f (xorBytes (sub acc.2.1 0 16) acc.2.2)) acc.2.2 :: acc.1, acc.2.1.drop 16, xtsTimes2 acc.2.2)) ([], data, tweak)).1.reverse.flatten

/-- The first tweak of a data unit: its number as a 128-bit little-endian value, under the second half of the 512-bit key (R41). -/
def xtsTweak (key : Bytes) (unit : Nat) : Bytes := aesEncrypt (aesRoundKeys (sub key 32 32)) (leBytes 16 unit)

/-- Encryption of a 4,096-byte data unit (R41). -/
def xtsEncrypt (key : Bytes) (unit : Nat) (plain : Bytes) : Bytes :=
  let ks := aesRoundKeys (sub key 0 32)
  xtsBlocks (aesEncrypt ks) 256 plain (xtsTweak key unit)

/-- Decryption of a 4,096-byte data unit (R41, R117). -/
def xtsDecrypt (key : Bytes) (unit : Nat) (stored : Bytes) : Bytes :=
  let ks := aesRoundKeys (sub key 0 32)
  xtsBlocks (aesDecrypt ks) 256 stored (xtsTweak key unit)

end Sys2Proof.Machine
end

