-- ==== Sys2Proof/Machine/Crypto.lean ====
section
/-! DEFINITION. The standard functions that chapter 10 names (R279, R285, R289): SHA-384 (FIPS 180-4), HMAC and HKDF (RFC 2104, RFC 5869), AES key wrap
(RFC 3394), AES-256-GCM (SP 800-38D), and ECDSA and ECDH on P-384 (FIPS 186-5). The spec names the standards and does not restate them; the octet order
of x‖y and of r‖s is that of the standards, most significant first (log entry 40). -/

namespace Sys2Proof.Machine

/-- A number from bytes, most significant first. -/
def beNat (b : Bytes) : Nat := b.foldl (fun n x => n * 256 + x.toNat) 0

/-! ## SHA-384 -/

/-- The first eighty primes. -/
def shaPrimes : List Nat :=
  [2, 3, 5, 7, 11, 13, 17, 19, 23, 29, 31, 37, 41, 43, 47, 53, 59, 61, 67, 71, 73, 79, 83, 89, 97, 101, 103, 107, 109, 113,
   127, 131, 137, 139, 149, 151, 157, 163, 167, 173, 179, 181, 191, 193, 197, 199, 211, 223, 227, 229] ++
  [233, 239, 241, 251, 257, 263, 269, 271, 277, 281, 283, 293, 307, 311, 313, 317, 331, 337, 347, 349, 353, 359, 367, 373,
   379, 383, 389, 397, 401, 409]

/-- The whole part of the k-th root of a number below 2^(72 k). -/
def wholeRoot (k n : Nat) : Nat :=
  (List.range 72).foldl (fun r i => if (r + 2 ^ (71 - i)) ^ k ≤ n then r + 2 ^ (71 - i) else r) 0

/-- The round constants: the first 64 bits of the fractions of the cube roots of the primes. -/
def shaK : List Word := shaPrimes.map (fun p => BitVec.ofNat 64 (wholeRoot 3 (p * 2 ^ 192)))

/-- The start of SHA-384: the first 64 bits of the fractions of the square roots of the ninth to the sixteenth prime. -/
def shaStart : List Word := ((shaPrimes.drop 8).take 8).map (fun p => BitVec.ofNat 64 (wholeRoot 2 (p * 2 ^ 128)))

/-- Word i of a list, 0 past its end. -/
def wordAt (l : List Word) (i : Nat) : Word := (l[i]?).getD 0

/-- The message schedule of a block of 128 bytes: 80 words, first to last. -/
def shaSchedule (block : Bytes) : List Word :=
  let start : List Word := (List.range 16).foldl (fun ws i => BitVec.ofNat 64 (beNat (sub block (8 * i) 8)) :: ws) []
  ((List.range 64).foldl (fun ws _ =>
    let x := wordAt ws 14
    let y := wordAt ws 1
    ((y.rotateRight 19 ^^^ y.rotateRight 61 ^^^ (y >>> 6)) + wordAt ws 6
      + (x.rotateRight 1 ^^^ x.rotateRight 8 ^^^ (x >>> 7)) + wordAt ws 15) :: ws) start).reverse

/-- One round over the eight working words with its constant and its word of the schedule. -/
def shaRound (v : List Word) (k w : Word) : List Word :=
  let a := wordAt v 0
  let b := wordAt v 1
  let c := wordAt v 2
  let e := wordAt v 4
  let t1 := wordAt v 7 + (e.rotateRight 14 ^^^ e.rotateRight 18 ^^^ e.rotateRight 41)
    + ((e &&& wordAt v 5) ^^^ (~~~e &&& wordAt v 6)) + k + w
  let t2 := (a.rotateRight 28 ^^^ a.rotateRight 34 ^^^ a.rotateRight 39) + ((a &&& b) ^^^ (a &&& c) ^^^ (b &&& c))
  [t1 + t2, a, b, c, wordAt v 3 + t1, e, wordAt v 5, wordAt v 6]

/-- A block of 128 bytes enters the hash value. -/
def shaBlock (h : List Word) (block : Bytes) : List Word :=
  let v := (shaK.zip (shaSchedule block)).foldl (fun v e => shaRound v e.1 e.2) h
  (List.range 8).map (fun i => wordAt h i + wordAt v i)

/-- A message with its padding: a bit 1, zeros, and its length in bits as 16 bytes. -/
def shaPadded (m : Bytes) : Bytes := m ++ [0x80#8] ++ List.replicate ((239 - m.length % 128) % 128) 0 ++ beBytes 16 (8 * m.length)

/-- SHA-384: 48 bytes. -/
def sha384 (m : Bytes) : Bytes :=
  let p := shaPadded m
  let h := (List.range (p.length / 128)).foldl (fun (acc : List Word × Bytes) _ => (shaBlock acc.1 (acc.2.take 128), acc.2.drop 128)) (shaStart, p)
  ((h.1.take 6).map (fun w => beBytes 8 w.toNat)).flatten

/-- HMAC-SHA-384 of a message under a key. -/
def hmacSha384 (key msg : Bytes) : Bytes :=
  let k := padTo 128 (if 128 < key.length then sha384 key else key)
  sha384 (k.map (· ^^^ 0x5C#8) ++ sha384 (k.map (· ^^^ 0x36#8) ++ msg))

/-- HKDF-SHA-384 with a salt and an information string: 32 bytes. -/
def hkdf32 (salt info secret : Bytes) : Bytes := (hmacSha384 (hmacSha384 salt secret) (info ++ [1])).take 32

/-! ## AES key wrap (RFC 3394) -/

/-- The unwrapping of a wrapped key under a KEK; none when the integrity check fails. -/
def aesKeyUnwrap (kek wrapped : Bytes) : Option Bytes :=
  let n := wrapped.length / 8 - 1
  if wrapped.length % 8 ≠ 0 ∨ n < 2 then none
  else
    let ks := aesRoundKeys kek
    let r0 : Tab Bytes := (List.range n).map (fun i => (i + 1, sub wrapped (8 * (i + 1)) 8))
    let steps := (List.range (6 * n)).map (fun i => 6 * n - i)
    let (a, r) := steps.foldl (fun (acc : Bytes × Tab Bytes) t =>
      let i := (t - 1) % n + 1
      let b := aesDecrypt ks (xorBytes acc.1 (beBytes 8 t) ++ (tget acc.2 i).getD [])
      (b.take 8, tput acc.2 i (b.drop 8))) (sub wrapped 0 8, r0)
    if a = List.replicate 8 0xA6#8 then some ((r.map (·.2)).flatten) else none

/-! ## AES-256-GCM (SP 800-38D) -/

/-- The product in the field of GCM, whose first bit is the most significant. -/
def gcmMul (x y : Nat) : Nat :=
  ((List.range 128).foldl (fun (acc : Nat × Nat) i =>
    (if x.testBit (127 - i) then acc.1 ^^^ acc.2 else acc.1, if acc.2 % 2 = 1 then (acc.2 / 2) ^^^ (0xE1 * 2 ^ 120) else acc.2 / 2)) (0, y)).1

/-- The text in blocks of 16 bytes, the last one padded with zeros. -/
def gcmBlocks (b : Bytes) : List Bytes := (List.range ((b.length + 15) / 16)).map (fun i => sub b (16 * i) 16)

/-- Decryption with a 12-byte IV and no further data; none when the tag differs. -/
def gcmDecrypt (key iv text tag : Bytes) : Option Bytes :=
  let ks := aesRoundKeys key
  let hash := beNat (aesEncrypt ks (List.replicate 16 0))
  let ctr (i : Nat) : Bytes := aesEncrypt ks (iv ++ beBytes 4 i)
  let g := (gcmBlocks text ++ [beBytes 16 (8 * text.length)]).foldl (fun y b => gcmMul (y ^^^ beNat (padTo 16 b)) hash) 0
  if beBytes 16 (g ^^^ beNat (ctr 1)) ≠ tag then none
  else some (((gcmBlocks text).zipIdx.map (fun e => xorBytes e.1 (ctr (e.2 + 2)))).flatten.take text.length)

/-! ## P-384 (FIPS 186-5, SP 800-186) -/

/-- The field's prime, the order of the group, b, and the base point. -/
def p384P : Nat := 2 ^ 384 - 2 ^ 128 - 2 ^ 96 + 2 ^ 32 - 1
def p384N : Nat := 0xFFFFFFFFFFFFFFFFFFFFFFFFFFFFFFFFFFFFFFFFFFFFFFFFC7634D81F4372DDF581A0DB248B0A77AECEC196ACCC52973
def p384B : Nat := 0xB3312FA7E23EE7E4988E056BE3F82D19181D9C6EFE8141120314088F5013875AC656398D8A2ED19D2A85C8EDD3EC2AEF
def p384G : Nat × Nat :=
  (0xAA87CA22BE8B05378EB1C71EF320AD746E1D3B628BA79B9859F741E082542A385502F25DBF55296C3A545E3872760AB7,
   0x3617DE4A96262C6F5D9E98BF9292DC29F8F41DBD289A147CE9DA3113B5F0B8C00A60B1CE1D7E819D7A431D7C90EA0E5F)

/-- A power modulo m with an exponent of at most 384 bits, and from it the inverse modulo a prime. -/
def powMod (b e m : Nat) : Nat :=
  (List.range 384).foldl (fun r i => if e.testBit (383 - i) then r * r % m * b % m else r * r % m) 1
def invMod (a m : Nat) : Nat := powMod a (m - 2) m

/-- A point of the curve, none at infinity. -/
abbrev EcPoint := Option (Nat × Nat)

/-- The sum of two points. -/
def ecAdd (p q : EcPoint) : EcPoint :=
  match p, q with
  | none, _ => q
  | _, none => p
  | some (x1, y1), some (x2, y2) =>
    if x1 = x2 ∧ (y1 + y2) % p384P = 0 then none
    else
      let l := if x1 = x2 then (3 * x1 * x1 + p384P - 3) * invMod (2 * y1 % p384P) p384P % p384P
        else (y2 + p384P - y1) * invMod ((x2 + p384P - x1) % p384P) p384P % p384P
      let x := (l * l + 2 * p384P - x1 - x2) % p384P
      some (x, (l * (x1 + p384P - x) + p384P - y1) % p384P)

/-- A multiple of a point. -/
def ecMul (k : Nat) (p : EcPoint) : EcPoint :=
  (List.range 384).foldl (fun r i => if k.testBit (383 - i) then ecAdd (ecAdd r r) p else ecAdd r r) none

/-- A point from x‖y; none where it does not lie on the curve. -/
def ecPoint (b : Bytes) : EcPoint :=
  let x := beNat (sub b 0 48)
  let y := beNat (sub b 48 48)
  if x < p384P ∧ y < p384P ∧ y * y % p384P = (x * x * x + (p384P - 3) * x + p384B) % p384P then some (x, y) else none

/-- x‖y of a point. -/
def ecBytes (p : EcPoint) : Bytes :=
  match p with
  | some (x, y) => beBytes 48 x ++ beBytes 48 y
  | none => List.replicate 96 0

/-- ECDSA verification over SHA-384 of a message, with a key x‖y and a signature r‖s (R289). -/
def ecdsaP384Verify (key msg sig : Bytes) : Bool :=
  let r := beNat (sub sig 0 48)
  let t := beNat (sub sig 48 48)
  match ecPoint key with
  | none => false
  | some q =>
    if r = 0 ∨ p384N ≤ r ∨ t = 0 ∨ p384N ≤ t then false
    else
      let w := invMod t p384N
      match ecAdd (ecMul (beNat (sha384 msg) * w % p384N) (some p384G)) (ecMul (r * w % p384N) (some q)) with
      | some (x, _) => x % p384N == r
      | none => false

/-- The private number of the ephemeral pair drawn at a draw count, 1 to n − 1; its value is free (log entry 2). -/
def p384Secret (pair : Nat) : Nat := Config.freeNat pair % (p384N - 1) + 1

/-- The public half of that pair. -/
def p384Public (pair : Nat) : Bytes := ecBytes (ecMul (p384Secret pair) (some p384G))

/-- ENC_KEK decrypted by AES-256-GCM under the key that HKDF-SHA-384 derives from the ECDH secret of a pair and the client's key; none where the key lies on
no curve point or the tag fails. The spec gives HKDF neither salt nor information string: both are free (R285, log entry 40). -/
def kekDecrypt (pair : Nat) (client iv text tag : Bytes) : Option Bytes :=
  match ecPoint client with
  | none => none
  | some q =>
    match ecMul (p384Secret pair) (some q) with
    | none => none
    | some (x, _) => gcmDecrypt (hkdf32 Config.hkdfSalt Config.hkdfInfo (beBytes 48 x)) iv text tag

end Sys2Proof.Machine
end

