-- ==== Sys2Proof/Machine/Records.lean ====
section
/-! DEFINITION. The bytes of Hatbox records, pool directory entries and boot records (R79, R80, R83, R326), and what a read of the Hatbox MRAM by
address returns (R78, Table 3.1). -/

namespace Sys2Proof.Machine

/-- A flag at a bit of a number. -/
def flagBit (b : Bool) (i : Nat) : Nat := if b then 2 ^ i else 0

/-- TYPE, bits 15:8 of FLAGS in place, and the body fields of a record (Table 3.4). -/
def recFields : RecBody → Nat × Nat × List (Nat × Nat × Nat)
  | .mapDelta z d c f r p t w v g n b nb no ob oo =>
    (1, flagBit z 8 + flagBit d 9 + flagBit c 10 + flagBit f 11 + flagBit r 12 + flagBit p 13 + flagBit t 14,
      [(16, 8, w), (24, 2, v), (26, 2, g), (28, 2, n), (30, 6, b), (36, 4, nb), (40, 4, no), (44, 4, ob), (48, 4, oo)])
  | .logEntry d z w v g n b lb hb off e =>
    (2, flagBit d 8 + flagBit z 9,
      [(16, 8, w), (24, 2, v), (26, 2, g), (28, 2, n), (30, 6, b), (36, 4, lb), (40, 4, hb), (44, 4, off), (48, 1, e)])
  | .intent j m r f w v g b st gen row rows mask page blocks =>
    (3, flagBit j 8 + flagBit m 9 + flagBit r 10 + flagBit f 11,
      [(16, 8, w), (24, 2, v), (26, 2, g), (28, 4, b), (32, 2, st), (34, 2, gen), (36, 2, row), (38, 2, rows), (40, 4, mask), (44, 4, page),
       (48, 4, blocks)])
  | .intentDone w v b st => (4, 0, [(16, 8, w), (24, 2, v), (28, 4, b), (32, 2, st)])
  | .abandon l w b st hb => (5, flagBit l 8, [(16, 8, w), (28, 4, b), (32, 2, st), (36, 4, hb)])
  | .band b gen ev pos m sl => (6, 0, [(16, 4, b), (20, 2, gen), (22, 1, ev), (23, 1, pos), (24, 1, m), (28, 4, sl)])
  | .keyRotate d v g i st row => (7, flagBit d 8, [(16, 2, v), (18, 2, g), (20, 4, i), (24, 2, st), (26, 2, row)])
  | .watermark a t n tm => (8, 0, [(16, 8, a), (24, 8, t), (32, 8, n), (40, 8, tm)])
  | .mapRoot v b o g c => (9, 0, [(16, 2, v), (20, 4, b), (24, 4, o), (28, 4, g), (32, 8, c)])
  | .epochOpen e p b pb st c r => (10, 0, [(16, 4, e), (20, 4, p), (24, 4, b), (28, 4, pb), (32, 8, st), (40, 8, c.toNat), (48, 1, r)])
  | .checkpointEnd e n f l c => (11, 0, [(16, 4, e), (20, 4, n), (24, 8, f), (32, 8, l), (40, 4, c)])
  | .mode m c => (12, 0, [(16, 1, m), (17, 1, c)])
  | .clean l n tm => (13, 0, [(16, 8, l), (24, 8, n), (32, 8, tm)])
  | .unknown t => (t, 0, [])

/-- 60 bytes and their CRC32C. -/
def sealed (b : Bytes) : Bytes := padTo 60 b ++ leBytes 4 (crc32c (padTo 60 b)).toNat

/-- The 64 bytes of a record (Table 3.3). -/
def recBytes (x : Rec) : Bytes :=
  let f := recFields x.body
  sealed (pack 60 ([(0, 1, f.1), (1, 1, x.format), (2, 2, flagBit x.carried 0 + f.2.1), (4, 4, x.epoch), (8, 8, x.seq)] ++ f.2.2))

/-- The 64 bytes of a pool directory entry (Table 3.2). -/
def dirBytes (d : DirEntry) : Bytes :=
  sealed (pack 60 [(0, 4, 0x48425044), (4, 1, 4), (5, 1, flagBit d.assigned 0), (6, 1, flagBit d.driveJournal 0), (8, 8, d.poolId.toNat),
                   (16, 4, d.epoch), (20, 4, d.hbxBand), (24, 8, d.floorSeq)])

/-- The 64 bytes of a copy of the boot record (Table 13.4). -/
def bootBytes (r : BootRec) : Bytes :=
  sealed (pack 60 [(0, 4, 0x424F4F54), (4, 1, 4), (5, 1, r.attempts), (6, 1, r.bootSlot), (7, 1, r.lastSlot), (8, 8, r.seq),
                   (16, 8, r.attemptSerial), (24, 8, r.pfSerial), (32, 8, r.pfTime), (40, 2, r.pfVA), (42, 2, r.pfVB), (44, 1, r.lastCause),
                   (48, 8, r.lastTime)])

/-- The 64-byte line of the MRAM at 64 × `line`: directory entries at offset 0 (R79), boot records at 0x1000 and 0x1040 (R326), and ring slots from
0x0200_0000 (R78, R81). None where the spec gives no layout (the rest of the shelf area, the spare segments), where a write is in flight or torn,
and where the ring or the die holds nothing in force. -/
def mramLine (h : Hatbox) (line : Nat) : Option Bytes :=
  let ring (n : Nat) : Ring := (tget h.rings n).getD {}
  if h.dead then none
  else if line < 4 then some (dirBytes (ring line).dir)
  else if line = 64 then h.boot0.map bootBytes
  else if line = 65 then h.boot1.map bootBytes
  else if line < 0x80000 ∨ 0x800000 ≤ line then none
  else
    let n := (line - 0x80000) / 1966080
    let slot := (line - 0x80000) % 1966080
    let r := ring n
    if !r.dir.assigned || r.dir.driveJournal then none
    else
      match tget r.slots slot with
      | none => some (zeros 64)
      | some x => if !x.crcOk || r.inflight.any (fun i => i.1 == x.seq) then none else some (recBytes x)

/-- `n` bytes of the MRAM from an offset; bytes that `mramLine` does not give are free (log entry 16). -/
def mramRead (s : State) (off n : Nat) : State × Bytes :=
  let (b, s) := drawBytes s n
  (s, b.zipIdx.map (fun p =>
    let o := off + p.2
    match mramLine s.hbx (o / 64) with
    | some l => (l[o % 64]?).getD 0
    | none => p.1))

end Sys2Proof.Machine
end

