-- ==== Sys2Proof/Machine/FlashBytes.lean ====
section
/-! DEFINITION. The bytes of what the device writes to drives, least significant byte first (R4): block tags and metadata (R11, R39, R148), stripe write
headers and ring blocks (R50, R51), Hatbox band headers and journal pages (R89, R90), Pool Ledger copies (R141), pages of the tables (R143 to R146), map
nodes (R151) and format-3 journals (R148). -/

namespace Sys2Proof.Machine

/-! ## Tags and metadata -/

/-- REF of a system block (Table 2.2). -/
def sysRef (band idx : Nat) : BitVec 48 := BitVec.ofNat 48 (band % 2 ^ 30 * 2 ^ 18 + idx % 2 ^ 18)

/-- The 16 bytes of a block tag (Table 2.2, Table 4.16). -/
def tagBytes (t : Tag) : Bytes :=
  if t.fmt = 3 then leBytes 8 t.crc.toNat ++ leBytes 6 t.ref.toNat ++ leBytes 1 t.gen.toNat ++ [3]
  else leBytes 8 t.crc.toNat ++ leBytes 6 t.ref.toNat ++ leBytes 2 t.gen.toNat

/-- The metadata that the device writes with a block on a drive of 16 or 64 bytes of metadata: the tag, then zeros (R11). -/
def metaBytes (size : Nat) (x : Blk) : Bytes := padTo size (tagBytes x.tag)

/-- The tag that metadata bytes spell: bytes past the 16th are ignored (R11). -/
def tagOfMeta (fmt : Nat) (m : Bytes) : Tag :=
  { crc := BitVec.ofNat 64 (fieldAt m 0 8), ref := BitVec.ofNat 48 (fieldAt m 8 6)
    gen := BitVec.ofNat 16 (if fmt = 3 then fieldAt m 14 1 else fieldAt m 14 2), fmt := fmt }

/-- A format-4 block over its stored bytes. -/
def mkBlk (data : Bytes) (ref : BitVec 48) (gen : Nat) : Blk :=
  { data := data, tag := { crc := crc64 data, ref := ref, gen := BitVec.ofNat 16 gen } }

/-- A system block (R40). -/
def sysBlk (data : Bytes) (band idx : Nat) : Blk := mkBlk data (sysRef band idx) 0xFFFF

/-- `n` bytes and their CRC32C. -/
def crcTail (n : Nat) (b : Bytes) : Bytes := padTo n b ++ leBytes 4 (crc32c (padTo n b)).toNat

/-- A flag list as bits from bit 0. -/
def flagBits (l : List Bool) : Nat := (l.zipIdx.map (fun x => flagBit x.1 x.2)).sum

/-! ## The header ring (Table 2.4) -/

/-- The 64 bytes of a stripe write header. -/
def headerBytes (h : StripeHdr) : Bytes :=
  crcTail 60 (pack 60 [(0, 4, 0x53484452), (4, 1, 4), (5, 1, flagBits [h.direct, h.encrypted, h.fold, h.mixed, h.padded, h.part]), (6, 1, h.k), (7, 1, h.w)
    , (8, 8, h.wseq), (16, 4, h.band), (20, 2, h.stripe), (22, 2, h.gen), (24, 2, h.vol), (26, 2, h.keyGen), (28, 4, h.blockCount), (32, 8, h.volBlock)
    , (40, 8, h.time), (48, 4, h.firstOff)])

/-- A ring block: 64 slots, unused ones zero (R51). -/
def ringBlockBytes (l : List StripeHdr) : Bytes := padTo 4096 (l.map headerBytes).flatten

/-! ## Hatbox bands (Tables 3.6 to 3.8) -/

/-- The band header (Table 3.7). -/
def hbxHeaderBytes (gen band epoch : Nat) (poolId : Word) (created : Nat) : Bytes :=
  padTo 4096 (crcTail 60 (pack 60 [(0, 4, 0x48425842), (4, 1, 4), (6, 2, gen), (8, 4, band), (12, 4, epoch), (16, 8, poolId.toNat), (24, 4, 16384)
    , (28, 4, 245759), (32, 8, created)]))

/-- A journal page: the header of Table 3.8, then the records as they stand in MRAM (R90). -/
def journalPageBytes (h : JPageHdr) (recs : List Rec) : Bytes :=
  padTo 4096 (crcTail 60 (pack 60 [(0, 4, 0x48425850), (4, 1, 4), (5, 1, recs.length), (6, 2, h.gen), (8, 4, h.band), (12, 4, h.epoch), (16, 4, h.index)
    , (24, 8, h.first), (32, 8, h.last), (40, 8, h.time)]) ++ (recs.map recBytes).flatten)

/-! ## Tables (Tables 4.13 to 4.15) -/

/-- The page header of a MAGIC. -/
def pageHdrBytes (magic : Nat) (h : PageHdr) : Bytes :=
  crcTail 60 (pack 60 [(0, 4, magic), (4, 1, h.fmt), (6, 2, h.count), (8, 4, h.index), (12, 2, h.vol), (16, 8, h.seq), (24, 8, h.poolId.toNat)])

/-- Code of a band state. -/
def bandStateCode : BandState → Nat
  | .free => 0
  | .opened => 1
  | .closed => 2
  | .converting => 3

/-- The 192 bytes of a Band Table entry (Table 4.14). -/
def bandEntryBytes (n : Nat) (b : Band) : Bytes :=
  let ev := b.evac.getD (0xFF, 0, 0)
  pack 64 [(0, 4, n), (4, 2, b.gen), (6, 1, bandStateCode b.state), (7, 1, b.cls), (8, 1, b.fmt), (9, 1, b.k), (10, 1, b.w), (11, 1, b.stripShift)
    , (12, 4, (b.repairMask.map (2 ^ ·)).sum), (16, 8, b.allocCount), (24, 8, b.allocTime), (32, 8, b.scrubTime), (40, 1, ev.1), (41, 1, ev.2.1)
    , (42, 2, b.convertCursor), (44, 4, ev.2.2), (48, 1, b.g2gen)] ++
  ((List.range 32).map (fun j =>
    match b.members[j]? with
    | some (m, sl) => leBytes 4 (if m < 64 then m * 2 ^ 26 + sl else 0xFFFFFFFF)
    | none => leBytes 4 0xFFFFFFFF)).flatten

/-- A Band Table page, or the system band directory: 21 entries from byte 64 (R143). -/
def bandPageBytes (h : PageHdr) (l : Tab Band) : Bytes :=
  padTo 4096 (pageHdrBytes (if h.index = 0xFFFFFFFF then 0x53424450 else 0x42544250) h ++ (l.map (fun e => bandEntryBytes e.1 e.2)).flatten)

/-- A Bad Block Table page: up to 252 entries of 16 bytes (R146). -/
def badPageBytes (h : PageHdr) (l : List BadBlock) : Bytes :=
  padTo 4096 (pageHdrBytes 0x42425450 h ++
    (l.map (fun e => pack 16 [(0, 2, e.vol), (2, 1, if e.torn then 2 else 1), (4, 4, e.count), (8, 8, e.first)])).flatten)

/-- A band-list page: up to 1,008 band numbers, unused words all ones (R146). -/
def listPageBytes (h : PageHdr) (l : List Nat) : Bytes :=
  pageHdrBytes 0x424C5350 h ++ ((List.range 1008).map (fun i => leBytes 4 ((l[i]?).getD 0xFFFFFFFF))).flatten

/-- A volume entry (Table 4.15). -/
def volEntryBytes (v : VolEntry) : Bytes :=
  pack 64 [(0, 2, v.vol), (2, 1, match v.kind with
                                | .mapped => 1
                                | .direct => 2)
    , (3, 1, flagBits [v.encrypted, v.passThrough]), (4, 2, v.keyGen), (6, 2, v.prevKeyGen), (8, 8, v.capacity), (16, 4, v.listBand), (20, 4, v.listOff)
    , (24, 4, v.listPages), (28, 4, v.keyCheck.toNat), (32, 16, v.nguid.toNat), (48, 8, v.created)]

/-! ## Pool Ledger (Tables 4.7, 4.10 to 4.12) -/

/-- A member entry (Table 4.12). -/
def memberBytes (i : Nat) (m : Member) : Bytes :=
  let st := match m.state with
    | .unused => 0
    | .active => 1
    | .evacuating => 2
    | .failed => 3
    | .removed => 4
  pack 32 [(0, 8, m.uid.toNat), (8, 1, i), (9, 1, st), (10, 1, flagBits [m.flushed, m.plp, m.fdp, m.meta64]), (12, 4, m.slots), (16, 8, m.capacity)
    , (24, 8, m.admitted)] ++ padTo 20 m.serial ++ zeros 12

/-- A loss record (Table 4.7). -/
def lossBytes (l : Loss) : Bytes :=
  crcTail 60 (pack 60 [(0, 8, l.seq), (8, 8, l.time), (16, 2, l.vol), (18, 1, if l.torn then 2 else 1), (19, 1, l.cause), (20, 4, l.count), (24, 8, l.first)
    , (32, 4, l.band), (36, 2, l.stripe), (38, 1, l.position), (39, 1, l.member)])

/-- The word of a slot in the slot directory (R144). -/
def slotWordNat (w : SlotWord) : Nat := w.band % 2 ^ 32 * 2 ^ 32 + w.gen % 2 ^ 16 * 2 ^ 16 + w.pos % 2 ^ 6 * 2 ^ 10 + w.cls % 2 ^ 4 * 2 ^ 6 + 1

/-- Blocks of the body of a copy that hold something, by block index in the region, up to 0x0004_FFFF: the member table, the system band directory and the
volume table (Table 4.10). -/
def ledgerBody (l : Ledger) : List (Nat × Bytes) :=
  let dirHdr : PageHdr := { fmt := l.fmt, count := l.dir.length, index := 0xFFFFFFFF, seq := l.dirSeq, poolId := l.poolId }
  [(1, padTo 4096 ((List.range 64).map (fun i => ((tget l.members i).map (memberBytes i)).getD (zeros 64))).flatten), (2, bandPageBytes dirHdr l.dir)] ++
  ((List.range 64).filterMap (fun i =>
    if l.vols.any (fun v => v.vol / 64 == i) then
      some (16 + i, ((List.range 64).map (fun j => ((l.vols.find? (fun v => v.vol == 64 * i + j)).map volEntryBytes).getD (zeros 64))).flatten)
    else none))

/-- Bytes 0x0000_1000 to 0x0004_FFFF of a copy, over which BODY_CRC runs. -/
def ledgerBodyBytes (l : Ledger) : Bytes :=
  let blocks := ledgerBody l
  ((List.range 79).map (fun i => ((blocks.find? (fun b => b.1 == i + 1)).map (·.2)).getD (zeros 4096))).flatten

/-- The header of a copy (Table 4.11). -/
def ledgerHeaderBytes (l : Ledger) : Bytes :=
  let active := (l.members.filter (fun e => e.2.state == .active || e.2.state == .evacuating)).length
  padTo 4096 (crcTail 252 (pack 252 [(0, 4, 0x504F4F4C), (4, 1, l.fmt), (5, 1, l.copy), (6, 1, l.formatOldest), (7, 1, l.state), (8, 8, l.poolId.toNat)
    , (16, 8, l.gen), (24, 8, l.seed.toNat), (32, 8, l.controller.toNat), (40, 1, l.layout), (41, 1, l.k), (42, 1, l.stripShift), (43, 1, l.spare)
    , (44, 1, l.balance), (45, 1, active), (46, 2, l.logReserve), (48, 4, l.epoch), (52, 4, l.hbxBand), (56, 4, l.bbtBand), (60, 4, l.bbtPages)
    , (64, 8, l.lossHead), (72, 8, l.lossAcked), (80, 8, l.created), (88, 8, l.updated), (96, 4, (crc32c (ledgerBodyBytes l)).toNat)]))

/-- The bytes of block i of a copy's region (Table 4.10); blocks of the region that the table does not name are zero. -/
def ledgerBlockBytes (l : Ledger) (i : Nat) : Bytes :=
  if i = 0 then ledgerHeaderBytes l
  else if i < 80 then (((ledgerBody l).find? (fun b => b.1 == i)).map (·.2)).getD (zeros 4096)
  else if 256 ≤ i ∧ i < 768 then
    ((List.range 512).map (fun j => leBytes 8 (((tget l.slots ((i - 256) * 512 + j)).map slotWordNat).getD 0))).flatten
  else if 4096 ≤ i ∧ i < 8192 then
    ((List.range 64).map (fun j =>
      ((l.losses.filter (fun x => x.seq % 262144 == (i - 4096) * 64 + j)).getLast?.map lossBytes).getD (zeros 64))).flatten
  else zeros 4096

/-- Block i of a copy's region: a system block whose REF names band 0x3FFF_FFFF and its place in the region (R141). -/
def ledgerBlk (l : Ledger) (i : Nat) : Blk := sysBlk (ledgerBlockBytes l i) 0x3FFFFFFF i

/-- First LBA of a copy's region on a drive: copy 0 at the start, copy 1 in the last 64 MiB (R13). -/
def ledgerLba (capacity copy : Nat) : Nat := if copy = 0 then 0 else capacity / 4096 - 16384

/-! ## Map nodes (Tables 5.1 to 5.3) -/

/-- Code of an extent kind. -/
def extKindCode : ExtKind → Nat
  | .mapped => 0
  | .zeroes => 1
  | .lost => 2
  | .torn => 3

/-- The 16 bytes of an extent record (Table 5.2). -/
def extentBytes (e : Extent) : Bytes :=
  leBytes 8 (e.start % 2 ^ 41 + (e.len - 1) % 2 ^ 12 * 2 ^ 41 + extKindCode e.kind * 2 ^ 53) ++
  leBytes 8 (e.band % 2 ^ 24 + e.off % 2 ^ 24 * 2 ^ 24 + e.keyGen % 2 ^ 16 * 2 ^ 48)

/-- A map node (Table 5.1, then its entries). -/
def nodeBytes (n : MapNode) : Bytes :=
  let count := if n.level = 0 then n.extents.length else n.children.length
  padTo 4096 (crcTail 60 (pack 60 [(0, 4, 0x4D4E4F44), (4, 1, n.fmt), (5, 1, n.level), (6, 2, count), (8, 2, n.vol), (12, 4, n.mapGen), (16, 8, n.low)
      , (24, 8, n.high), (32, 8, n.seq)]) ++
    (if n.level = 0 then (n.extents.map extentBytes).flatten
     else (n.children.map (fun c => leBytes 8 (c.1 % 2 ^ 41) ++ leBytes 4 c.2.1 ++ leBytes 4 c.2.2)).flatten))

/-! ## Format-3 journals (Table 4.17) -/

/-- The 32 bytes of a format-3 journal record. -/
def rec3Bytes (x : Rec3) : Bytes :=
  crcTail 28 (pack 28 [(0, 1, if x.done then 0x32 else 0x31), (1, 1, 3), (2, 2, x.vol), (4, 4, x.band), (8, 2, x.stripe), (10, 2, x.firstRow)
    , (12, 2, x.rowCount), (14, 2, flagBits [x.journaled, x.mirror]), (16, 8, x.seq), (24, 4, x.dataPage)])

/-! ## System blocks -/

/-- The 4,096 bytes of a system block. -/
def sysBytes : SysBody → Bytes
  | .bandPage h l => bandPageBytes h l
  | .badPage h l => badPageBytes h l
  | .listPage h l => listPageBytes h l
  | .node n => nodeBytes n
  | .hbxHeader g b e id t => hbxHeaderBytes g b e id t
  | .ringBlock l => ringBlockBytes l
  | .journalPage h l => journalPageBytes h l
  | .journal3 l => padTo 4096 (l.map rec3Bytes).flatten
  | .unknown d => padTo 4096 d

/-- A system block as a drive returns it: its bytes, and the tag that was written with them; a torn one fails its CRC. -/
def blkOfSys (x : SysBlk) : Blk :=
  let b := mkBlk (sysBytes x.body) x.ref 0xFFFF
  if x.torn then { b with tag := { b.tag with crc := ~~~b.tag.crc } } else b

/-- Whether a system block passes its tag check as block `idx` of a slot of a band (R113). -/
def sysOk (x : SysBlk) (band idx : Nat) : Bool := !x.torn && x.ref == sysRef band idx

/-! ## What an LBA holds -/

/-- A zero block of a filled slot, at a block index of the slot (R391). -/
def fillBlk (f : Fill) (idx : Nat) : Blk :=
  let sb := stripBlocks f.stripShift
  let ref := if !f.mirror && decide (f.k ≤ f.pos) then sysRef f.band idx
    else
      let off := if f.mirror then idx else dataOff f.k f.stripShift (idx / sb) f.pos (idx % sb)
      BitVec.ofNat 48 (f.vol % 4096 * 2 ^ 36 + (f.first + off) % 2 ^ 36)
  mkBlk (zeros 4096) ref f.gen

/-- The block that a drive holds at an LBA, if any was ever written there. -/
def lbaBlk (d : Drive) (lba : Nat) : Option Blk :=
  match tget d.flash lba, tget d.sys lba with
  | some x, _ => some x
  | none, some x => some (blkOfSys x)
  | none, none =>
    if lba < 0x4000 then d.ledger0.map (fun l => ledgerBlk l lba)
    else
      match tget d.fills ((lba - 0x4000) / 0x40000), d.ledger1, (d.ident.map (·.capacity)) with
      | some f, _, _ => some (fillBlk f ((lba - 0x4000) % 0x40000))
      | none, some l, some c => if ledgerLba c 1 ≤ lba then some (ledgerBlk l (lba - ledgerLba c 1)) else none
      | _, _, _ => none

/-- The drive with a volume, log or journaled data block written at an LBA. -/
def putBlk (d : Drive) (lba : Nat) (x : Blk) : Drive := { d with flash := tput d.flash lba x, sys := tdel d.sys lba }

/-- The drive with a system block written at an LBA. -/
def putSys (d : Drive) (lba : Nat) (x : SysBlk) : Drive := { d with sys := tput d.sys lba x, flash := tdel d.flash lba }

/-- The drive with everything in a slot gone (Dataset Management deallocate, R71). -/
def wipeSlot (d : Drive) (slot : Nat) : Drive :=
  let out (lba : Nat) : Bool := decide (lba < slotLba slot ∨ slotLba (slot + 1) ≤ lba)
  { d with flash := d.flash.filter (fun e => out e.1), sys := d.sys.filter (fun e => out e.1), fills := tdel d.fills slot }

end Sys2Proof.Machine
end

