-- ==== Sys2Proof/Machine/Fabric.lean ====
section
/-! DEFINITION. The Core fabric (R177 to R192) and the Parity Units (R190, R191): admission against guarantee and Brim, cut-through,
departure, poison, notices, port down, frame sampling, accumulators. -/

namespace Sys2Proof.Machine

/-! ## Ports -/

/-- The output class of a port (Table 6.1). -/
def portClass (p : Nat) : Nat :=
  if p < 64 then 0 else if p < 128 then 1 else if p < 136 then 2 else if p < 140 then 3 else 4

/-- First lane of the port that holds a lane, from PORT_START (Table 7.16). -/
def portOfLane (s : State) (lane : Nat) : Nat :=
  let g := lane / 8
  let start := fld s (.netGroupCfg g) 7 0
  let off := ((List.range (lane % 8 + 1)).reverse.find? (fun i => start / 2 ^ i % 2 == 1)).getD 0
  8 * g + off

/-- Lanes of the port that starts at a lane; 0 when the lane starts no port. -/
def portWidth (s : State) (lane : Nat) : Nat :=
  let g := lane / 8
  let start := fld s (.netGroupCfg g) 7 0
  let o := lane % 8
  if start / 2 ^ o % 2 = 0 then 0
  else
    match (List.range (8 - o)).find? (fun i => i != 0 && start / 2 ^ (o + i) % 2 == 1) with
    | some w => w
    | none => 8 - o

def netPortAt (s : State) (lane : Nat) : NetPort := (tget s.net.ports (portOfLane s lane)).getD {}

def setNetPort (s : State) (lane : Nat) (f : NetPort → NetPort) : State :=
  { s with net := { s.net with ports := tput s.net.ports (portOfLane s lane) (f (netPortAt s lane)) } }

/-- Drain rate of a port in half GB/s (Table 6.1); 0 while its link is down. -/
def portRate2 (s : State) (p : Nat) : Nat :=
  if p < 64 then (if (netPortAt s p).link then 50 else 0)
  else if p < 128 then
    let d := driveAt s (p - 64)
    if !d.linkUp then 0 else if d.gen = 7 then 58 else if d.gen = 6 then 29 else 14
  else if p < 136 then (if ((tget s.dimms (p - 128)).map (fun d => d.type == 2)).getD true then 204 else 102)
  else if p < 140 then 800
  else if p < 142 then 200
  else if p < 154 then 100
  else if p < 156 then 100
  else if p = 156 then 16
  else if p = 157 then 60
  else 50

/-- The input rate for R184 in half GB/s: 25 GB/s for a network source, else the Table 6.1 rate. -/
def inputRate2 (s : State) (p : Nat) : Nat := if p < 64 then 50 else portRate2 s p

def outPort (s : State) (p : Nat) : OutPort := (tget s.fab.ports p).getD {}

def setOut (s : State) (p : Nat) (f : OutPort → OutPort) : State :=
  { s with fab := { s.fab with ports := tput s.fab.ports p (f (outPort s p)) } }

/-- UP of a port; DOWN reads its complement. -/
def portUp (s : State) (p : Nat) : Bool := flag s (.fabPortCtrl p) 0

/-- Guaranteed cells of a port: GUARANTEE in units of 4 KiB (Table 6.15). -/
def guarantee (s : State) (p : Nat) : Nat := 16 * fld s (.fabPortCtrl p) 31 16

/-- Cells of write data that a drive's outstanding NVMe Writes read: they stay in its output until the Write has completed (R49). -/
def writeCells (s : State) (p : Nat) : Nat :=
  if 64 ≤ p ∧ p < 128 then ((((tget s.drives (p - 64)).getD {}).cmds.filter (fun c => c.op == .write)).map (fun c => 16 * c.count)).sum else 0

/-- Cells charged to a port beside its queue: Parity Unit buffers (R190), cells that drive Writes read, and sample records on their way to port 158. -/
def chargeSum (s : State) (p : Nat) : Nat :=
  ((outPort s p).charges.map (·.2)).sum + writeCells s p + (if p = 158 then s.fab.samples.length else 0)

/-- OCCUPANCY of a port. -/
def occupancy (s : State) (p : Nat) : Nat := (outPort s p).cells.length + chargeSum s p

/-- BRIM_USED of a port. -/
def brimUse (s : State) (p : Nat) : Nat := occupancy s p - guarantee s p

/-- Cells of the cell buffer: 98,304 for each bank domain that is on (R181, Table 12.5). -/
def bufferCells (on : BitVec 62) : Nat := 98304 * ((List.range 8).filter (fun i => on.getLsbD (32 + i))).length

/-- Sum of all guarantees. -/
def guaranteeSum (s : State) : Nat := ((List.range 160).map (guarantee s)).sum

/-- Size of the Brim (R181). -/
def brimSize (s : State) : Nat := bufferCells s.dom.on - guaranteeSum s - fld s .fabGwCfg 19 0

/-- Payloads of a port that lie above its guarantee, in order of arrival. -/
def aboveIds (s : State) (p : Nat) : List Nat :=
  ((outPort s p).cells.drop (guarantee s p - chargeSum s p)).map (·.id)

/-- Cells taken from the Brim: a payload above the guarantee of several outputs is taken once (R185). -/
def brimTaken (s : State) : Nat :=
  ((s.fab.ports.map (fun e => aboveIds s e.1)).flatten.eraseDups).length
    + ((s.fab.ports.map (fun e => chargeSum s e.1 - guarantee s e.1)).sum)

/-- Free Brim cells, F of R182. -/
def brimFree (s : State) : Nat := brimSize s - brimTaken s

/-- ALPHA of a class. -/
def alphaOf (s : State) (c : Nat) : Nat := fld s .fabBrimCfg (4 * c + 3) (4 * c)

/-- Whether `n` more cells pass R182 at an output: below its guarantee, or Brim use plus n at most α × F. -/
def admits (s : State) (q n : Nat) : Bool :=
  decide (occupancy s q + n ≤ guarantee s q) ||
  decide ((occupancy s q + n - guarantee s q) * 64 ≤ 2 ^ alphaOf s (portClass q) * brimFree s)

/-! ## Cell headers (R178) -/

/-- Bytes 0 to 27 of a cell header (Table 6.2). -/
def hdrBytes (h : CellHdr) : Bytes :=
  let b (x : Bool) (i : Nat) : Nat := if x then 2 ^ i else 0
  pack 28 ([(0, 1, h.src), (1, 1, b h.sof 0 + b h.eof 1 + b h.poison 2 + b h.notice 3 + b h.sample 4), (2, 1, h.priority % 4), (3, 1, h.integrity % 4 + b h.encrypted 2)]
    ++ (List.range 4).map (fun i => (4 + i, 1, (h.targets[i]?).getD 0xFF))
    ++ [(8, 1, 2 ^ (min 4 h.targets.length) - 1), (9, 1, h.lenM1), (10, 2, h.volumeId % 4096), (12, 4, h.commandId), (16, 4, h.stripe % 65536 + h.position % 32 * 65536),
        (20, 2, h.accum % 2048 + b h.accNew 14 + b h.accEn 15), (22, 2, h.cellOffset % 16384), (24, 4, h.seq)])

/-- HEADER_CHECK as the source writes it: CRC32C over bytes 0 to 27. -/
def headerCheck (h : CellHdr) : BitVec 32 := crc32c (hdrBytes h)

/-- Whether a cell passes the header check of an output. -/
def headerOk (h : CellHdr) : Bool := h.check.isNone || h.check == some (headerCheck h)

/-! ## Notices, poison -/

/-- The cell of a notice: priority 0, the reporting output in SRC, the source in TARGET0, reason and cell count in the payload (R186). -/
def noticeCell (n : Notice) : Cell :=
  { hdr := { src := n.port, sof := true, eof := true, notice := true, priority := 0, targets := [n.source], lenM1 := 2
             commandId := n.cmd, stripe := n.stripe, position := n.position, seq := n.seq }
    payload := leBytes 1 n.reason ++ leBytes 2 n.cells }

/-- An undelivered notice to a source port (R186): discarded with NOTICE_DROP when that port is down. -/
def notify (s : State) (n : Notice) : State :=
  if portUp s n.source then
    count (emit { s with fab := { s.fab with notices := n :: s.fab.notices } } (.cellOut n.source (noticeCell n))) 0x1E3
  else count (setBit s .fabEvent 1) 0x1E4

def noticeOf (port src reason cells : Nat) (h : CellHdr) : Notice :=
  { port := port, source := src, reason := reason, cells := cells, cmd := h.commandId, stripe := h.stripe
    position := h.position, seq := h.seq }

def frameKey (f : OutFrame) (src prio seq : Nat) : Bool := f.src == src && f.prio == prio && f.seq == seq

/-- Output cells of an accumulator have left, or are lost with a port that is down: it is freed with its buffers once all are gone (R191). DEDUCED: an output cell
whose target is down is delivered to nobody and holds its accumulator no longer (log entry 77). -/
def accDelivered (s : State) (src : Nat) (h : CellHdr) : State :=
  if h.accEn && decide (136 ≤ src) && decide (src < 140) then
    match tget s.par.accs h.accum with
    | some a =>
      if a.undelivered ≤ 1 && a.done then
        setOut { s with par := { s.par with accs := tdel s.par.accs h.accum } } (136 + h.accum / 512)
          (fun o => { o with charges := o.charges.filter (fun e => e.1 != h.accum) })
      else { s with par := { s.par with accs := tput s.par.accs h.accum { a with undelivered := a.undelivered - 1 } } }
    | none => s
  else s

/-- Whether a queued cell is of a frame. -/
def ofFrame (h : CellHdr) (c : QCell) : Bool :=
  c.cell.hdr.src == h.src && c.cell.hdr.priority == h.priority && c.cell.hdr.seq == h.seq

/-- An output learns that a frame is poisoned (R188, Table 6.5), from an arriving cell or from one whose payload fails as it leaves (R189): a network output that has
sent nothing of a stored frame discards it, and so does a drive output before its EOF; a DRAM gateway sends a notice with reason 2; the rest goes on poisoned. -/
def poisonAt (s : State) (q : Nat) (h : CellHdr) (leaving : Bool) : State :=
  match (outPort s q).frames.find? (fun f => frameKey f h.src h.priority h.seq) with
  | none => if leaving then count (setBit s .fabEvent 6) 0x1E2 else s
  | some f =>
    if f.poisoned then s
    else
      let s := count (setBit s .fabEvent 6) 0x1E2
      let drop := !f.ct && f.left == 0 && (portClass q == 0 || (portClass q == 1 && !leaving))
      let held := ((outPort s q).cells.filter (ofFrame h)).length
      let s := setOut s q (fun o =>
        { o with
          frames := o.frames.map (fun g =>
            if frameKey g h.src h.priority h.seq then { g with poisoned := true, discard := drop } else g)
          cells := if drop then o.cells.filter (fun c => !(ofFrame h c)) else o.cells })
      if portClass q = 2 then notify s (noticeOf q h.src 2 held h) else s

/-! ## Frame sampling (R192) -/

/-- A sample record of a finished frame goes to port 158 at priority 3, or is discarded with SAMPLE_DROP. -/
def buildSample (s : State) (f : InFrame) (port : Nat) (egress : Bool) : State :=
  let r : FrameSample :=
    { time := f.sofAt, port := port, egress := egress, len := f.len
      disposition := if f.poisoned then 2 else if f.ct then 0 else 1
      captured := f.head.take 128, cmd := f.cmd, seq := f.seq, sampleSeq := s.fab.sampleSeq }
  let s := count { s with fab := { s.fab with sampleSeq := s.fab.sampleSeq + 1 } } 0x1E8
  if portUp s 158 && admits s 158 1 then { s with fab := { s.fab with samples := s.fab.samples ++ [r] } }
  else count (setBit s .fabEvent 2) 0x1E9

/-- One frame passes a network port in an enabled direction: every Nth is sampled. -/
def sampleSof (s : State) (port : Nat) (egress : Bool) : State × Bool :=
  let n := fld s .fabSampleCfg 23 0
  let on := if egress then flag s .fabSampleCfg 33 else flag s .fabSampleCfg 32
  if n = 0 || !on || !decide (port < 64) then (s, false)
  else
    let key := port * 2 + (if egress then 1 else 0)
    let c := (tget s.fab.sampleCtr key).getD 0 + 1
    let hit := decide (n ≤ c)
    ({ s with fab := { s.fab with sampleCtr := tput s.fab.sampleCtr key (if hit then 0 else c) } }, hit)

/-! ## Admission (R178, R182 to R186) -/

def inFrameOf (s : State) (input : Nat) (h : CellHdr) : Option InFrame :=
  s.fab.inFrames.find? (fun f => f.input == input && f.prio == h.priority && f.seq == h.seq)

def putInFrame (s : State) (f : InFrame) : State :=
  let rest := s.fab.inFrames.filter (fun g => !(g.input == f.input && g.prio == f.prio && g.seq == f.seq))
  { s with fab := { s.fab with inFrames := rest ++ [f] } }

def dropInFrame (s : State) (f : InFrame) : State :=
  { s with fab := { s.fab with
      inFrames := s.fab.inFrames.filter (fun g => !(g.input == f.input && g.prio == f.prio && g.seq == f.seq)) } }

/-- The decision of R184 for a frame whose SOF is admitted to an output, taken on the output as it was before. -/
def cutsThrough (s : State) (q input : Nat) : Bool :=
  let o := outPort s q
  flag s .fabCtrl 8 && flag s (.fabPortCtrl q) 1
    && o.cells.isEmpty && o.frames.isEmpty
    && decide (portRate2 s q ≤ inputRate2 s input)

/-- A cell enters the queue of one output that admits it (R182, R184). -/
def enqueue (s : State) (q input id : Nat) (c : Cell) : State :=
  let h := c.hdr
  let ct := cutsThrough s q input
  let s := count s q
  let s := if h.sof then count s (if ct then 0x1E0 else 0x1E1) else s
  let s := setOut s q (fun o =>
    let frames :=
      if h.sof then o.frames ++ [{ src := h.src, prio := h.priority, seq := h.seq, ct := ct, eof := h.eof, cells := 1 }]
      else o.frames.map (fun f =>
        if frameKey f h.src h.priority h.seq then { f with eof := f.eof || h.eof, cells := f.cells + 1 } else f)
    { o with cells := o.cells ++ [{ id := id, cell := c }], frames := frames })
  let dropped := ((outPort s q).frames.find? (fun f => frameKey f h.src h.priority h.seq)).map (·.discard)
  let s := if dropped = some true then setOut s q (fun o => { o with cells := o.cells.filter (fun x => x.id != id) }) else s
  let s := if h.poison then poisonAt s q h false else s
  -- a discarded frame leaves the output's list at its EOF
  if h.eof then
    setOut s q (fun o => { o with frames := o.frames.filter (fun f => !(frameKey f h.src h.priority h.seq && f.discard)) })
  else s

/-- A source offers a cell whose header check passed: targets that are down are removed, and the cell is admitted to every
remaining target or to none (R185). Answers whether the source is rid of it. DESIGN CHOICE: a multicast frame whose targets differ counts as cut-through when any of
them cuts through (log entry 73), and an egress frame is counted at the admission of its first cell to the network output and its record built at that of its last
(log entry 74); R192 fixes neither. -/
def offer (s : State) (input : Nat) (c : Cell) : State × Bool :=
  let bad := c.hdr.eof && ((inFrameOf s input c.hdr).map (·.bad)).getD false
  let c := if bad then { c with hdr := { c.hdr with poison := true } } else c
  let h := c.hdr
  let up := h.targets.filter (portUp s)
  let down := h.targets.filter (fun t => !(portUp s t))
  if !(up.all (fun q => admits s q 1)) then
    (up.foldl (fun s q => if admits s q 1 then s else count s (0xA0 + q)) s, false)
  else
    let f0 : InFrame := (inFrameOf s input h).getD
      { input := input, prio := h.priority, seq := h.seq, sofAt := nowOf s, cmd := h.commandId }
    let f0 := { f0 with
      len := f0.len + h.lenM1 + 1
      head := (f0.head ++ c.payload.take (h.lenM1 + 1)).take 128
      poisoned := f0.poisoned || h.poison
      ct := if h.sof then up.any (fun q => cutsThrough s q input) else f0.ct
      lost := down.foldl (fun l t =>
        if l.any (fun e => e.1 == t) then l.map (fun e => if e.1 == t then (t, e.2 + 1) else e) else l ++ [(t, 1)]) f0.lost }
    let (s, f0) :=
      if h.sof then
        let (s, a) := sampleSof s input false
        let (s, l) := up.foldl (fun (acc : State × List (Nat × Bool)) q =>
          let (s, hit) := sampleSof acc.1 q true
          (s, if hit then acc.2 ++ [(q, true)] else acc.2)) (s, if a then [(input, false)] else [])
        (s, { f0 with sampled := l })
      else (s, f0)
    let id := s.fab.nextId
    let s := { s with fab := { s.fab with nextId := id + 1 } }
    let s := up.foldl (fun s q => enqueue s q input id c) s
    let s := down.foldl (fun s _ => accDelivered s h.src h) s
    let s := { s with fab := { s.fab with arb := up.foldl (fun a q => tput a q ((input + 1) % 160)) s.fab.arb } }
    if h.eof then
      let s := dropInFrame s f0
      let s := f0.lost.foldl (fun s e => notify s (noticeOf e.1 input 1 e.2 h)) s
      (f0.sampled.foldl (fun s e => buildSample s f0 e.1 e.2) s, true)
    else (putInFrame s f0, true)

/-- The waiting cells that may be tried: the first of each source and priority. -/
def waitingHeads : List (Nat × Cell) → List (Nat × Nat) → List (Nat × Cell)
  | [], _ => []
  | (i, c) :: r, seen =>
    if seen.contains (i, c.hdr.priority) then waitingHeads r seen
    else (i, c) :: waitingHeads r ((i, c.hdr.priority) :: seen)

/-- The priority of a received frame: bits 5:3 of its DSCP, or its PCP with untagged frames at 0 (R199). -/
def rxPrio (s : State) (m : RxMark) : Nat := if flag s .netPrioCfg 16 then m.dscp / 8 % 8 else (m.pcp).getD 0 % 8

/-- Ingress-buffer use of a priority of a network port grows by bytes: XOFF is sent when it reaches XOFF_KIB on a priority
enabled in PFC_TX_EN whose ingress watchdog does not run (R199, R200). -/
def ingressAdd (s : State) (lane prio bytes : Nat) : State :=
  let p := netPortAt s lane
  let q := (tget p.prios prio).getD {}
  let use := q.use + bytes
  let hit := decide (1024 * fld s .netPfcCfg 31 16 ≤ use)
    && bits (bankGet s (.netPortCtrl (portOfLane s lane))) 23 16 / 2 ^ prio % 2 == 1
    && q.xoffFrom.isNone && q.ingressWdAt.isNone
  let s := setNetPort s lane (fun p =>
    { p with prios := tput p.prios prio { q with use := use, xoffFrom := if hit then some (nowOf s) else q.xoffFrom } })
  if hit then emit s (.pause (portOfLane s lane) prio true) else s

/-- Ingress-buffer use falls by bytes: XON is sent when it reaches XON_KIB while XOFF stands (R199). -/
def ingressSub (s : State) (lane prio bytes : Nat) : State :=
  let p := netPortAt s lane
  let q := (tget p.prios prio).getD {}
  let use := q.use - bytes
  let rel := decide (use ≤ 1024 * fld s .netPfcCfg 15 0) && q.xoffFrom.isSome
  let s := setNetPort s lane (fun p =>
    { p with prios := tput p.prios prio { q with use := use, xoffFrom := if rel then none else q.xoffFrom } })
  if rel then emit s (.pause (portOfLane s lane) prio false) else s

/-- Every waiting cell that may go is tried again, sources of one output round-robin from its write-arbiter pointer (R182, R183). -/
def retryWaiting (s : State) : State :=
  let heads := waitingHeads s.fab.waiting []
  let dist (e : Nat × Cell) : Nat :=
    match e.2.hdr.targets with
    | [] => 0
    | q :: _ => (e.1 + 160 - (tget s.fab.arb q).getD 0) % 160
  (sortBy (fun a b => decide (dist a ≤ dist b)) heads).foldl (fun s e =>
    let (s', ok) := offer s e.1 e.2
    if ok then
      let s' := { s' with fab := { s'.fab with waiting := s'.fab.waiting.erase e } }
      if e.1 < 64 then ingressSub s' e.1 (rxPrio s' e.2.mark) (e.2.hdr.lenM1 + 1) else s'
    else s') s

/-- A cell is admitted to its outputs, held at its source, or discarded for a bad header (R178, R182, R185). DESIGN CHOICE: FAB_CTRL.ENABLE 0 stops no cell; R193 says
no more than 'Fabric enable' (log entry 75). -/
def admitCell (s : State) (input : Nat) (c : Cell) : State :=
  let h := c.hdr
  if !(headerOk h) then
    -- R178: the frame the input is sending to each output is poisoned and a reason-3 notice sent
    let s := count (setBit s .fabEvent 3) 0x1E5
    h.targets.foldl (fun s q =>
      let cur := ((outPort s q).frames.find? (fun f => f.src == input && !f.eof)).map
        (fun f => { h with src := f.src, priority := f.prio, seq := f.seq })
      let s := match cur with
        | some hh => poisonAt s q hh false
        | none => s
      notify s (noticeOf q input 3 1 h)) s
  else
    let s := retryWaiting s
    let hold (s : State) : State :=
      let s := { s with fab := { s.fab with waiting := s.fab.waiting ++ [(input, c)] } }
      if input < 64 then ingressAdd s input (rxPrio s c.mark) (h.lenM1 + 1) else s
    if s.fab.waiting.any (fun e => e.1 == input && e.2.hdr.priority == h.priority) then hold s
    else
      let (s, ok) := offer s input c
      if ok then s else hold s

/-- CELL_ADMISSION. -/
def execCellAdmission (input : Nat) (c : Cell) (s : State) : Res := .next (admitCell s input c)

/-! ## Bindings (R190) -/

/-- Cells that a mode expects (Table 6.6): FULL each data cell once; DELTA old P and Q and each touched block old and new; SOLVE each
surviving cell of the row. -/
def accExpected (b : AccBind) : Nat :=
  match b.mode with
  | .full => b.k * b.rows
  | .delta => (2 * b.touched.length + 2) * b.rows
  | .solve => (b.k + 2 - b.touched.length) * b.rows

/-- A binding is made when its unit is enabled, the accumulator is free and the buffers' charge is admitted; else it waits for the charge,
or is refused (R190). DESIGN CHOICE: one that names an accumulator already bound is dropped; R190 does not say (log entry 72). -/
def bindAcc (s : State) (b : AccBind) : State :=
  let u := b.acc / 512
  let n := 2 * b.stripBytes / 256
  if !(flag s .parCtrl u) || thas s.par.accs b.acc then s
  else if admits s (136 + u) n then
    let s := { s with par := { s.par with
      accs := tput s.par.accs b.acc { bind := b, boundAt := nowOf s, expected := accExpected b } } }
    count (setOut s (136 + u) (fun o => { o with charges := o.charges ++ [(b.acc, n)] })) (0x680 + u)
  else { s with par := { s.par with waiting := s.par.waiting ++ [b] } }

/-- Bindings that wait are tried again in order. -/
def retryBinds (s : State) : State :=
  let w := s.par.waiting
  w.foldl bindAcc { s with par := { s.par with waiting := [] } }

/-! ## Departure (R180, R183, R189, R201) -/

/-- Whether an output may send a queued cell now: its frame cuts through, its EOF has arrived, or the output acts on each cell as it
arrives (R180, R184). -/
def cellReady (q : Nat) (o : OutPort) (c : QCell) : Bool :=
  let h := c.cell.hdr
  portClass q == 2 || portClass q == 3 ||
  match o.frames.find? (fun f => frameKey f h.src h.priority h.seq) with
  | some f => f.ct || f.eof
  | none => true

/-- WRR: the priority served now and the weight left, skipping priorities with nothing ready (R183). DESIGN CHOICE: with priority 0 and no weight left at reset, the
first pick tries priority 1 first; R183 gives no start (log entry 70). -/
def wrrPick (s : State) (o : OutPort) (ready : Nat → Bool) : Option (Nat × Nat) :=
  let weight (p : Nat) : Nat := fld s .fabWrrCfg (8 * p + 7) (8 * p)
  if ready o.wrrPrio && decide (0 < o.wrrLeft) then some (o.wrrPrio, o.wrrLeft - 1)
  else
    (([1, 2, 3, 4].map (fun i => (o.wrrPrio + i) % 4)).find? ready).map (fun p => (p, weight p - 1))

/-- A transmit stamp joins the 64-entry FIFO, or is discarded with PTP_TS_OVERFLOW when it is full (R201). -/
def pushStamp (s : State) (port tag : Nat) : State :=
  if s.net.stamps.length < 64 then
    setBit { s with net := { s.net with stamps := s.net.stamps ++ [{ port := port, tag := tag, time := nowOf s }] } } .netEvent 5
  else setBit s .netEvent 4

/-- Whether a network output holds a priority back: paused by the peer and no egress watchdog at work (R199, R200). -/
def netPaused (s : State) (lane : Nat) : Bool :=
  let q := (tget (netPortAt s lane).prios (fld s .netPrioCfg 2 0)).getD {}
  q.egressWdAt.isNone && q.pausedFrom.isSome && decide (nowOf s < q.pausedUntil)

/-- Whether a network output discards frames under its egress watchdog (Table 7.3). -/
def netDiscards (s : State) (lane : Nat) : Bool :=
  ((tget (netPortAt s lane).prios (fld s .netPrioCfg 2 0)).getD {}).egressWdAt.isSome

/-- Send the chosen cell of an output. A payload error that cannot be corrected poisons its frame at this output alone; one found before a stored frame's first cell is
on the wire discards the frame (R189). -/
def sendCell (s : State) (q : Nat) (c : QCell) (prio left rr : Nat) (ecc : Ecc) : State :=
  let h := c.cell.hdr
  let (s, bad) := match ecc with
    | .corrected _ => (count (setBit s .fabEvent 4) 0x1E6, false)
    | .uncorrectable _ => (count (setBit s .fabEvent 5) 0x1E7, true)
    | _ => (s, false)
  let s := if bad then poisonAt s q h true else s
  let fr := (outPort s q).frames.find? (fun f => frameKey f h.src h.priority h.seq)
  let gone := (fr.map (·.discard)).getD false
  let s := setOut s q (fun o =>
    { o with
      cells := o.cells.filter (fun x => x.id != c.id)
      wrrPrio := prio, wrrLeft := left, rr := o.rr.set prio rr
      sending := if q < 64 then (if h.eof || gone then none else some (h.src, h.priority, h.seq)) else none
      frames := if h.eof || gone then o.frames.filter (fun f => !(frameKey f h.src h.priority h.seq))
        else o.frames.map (fun f => if frameKey f h.src h.priority h.seq then { f with left := f.left + 1 } else f) })
  let out : Cell := { c.cell with hdr := { h with poison := h.poison || bad || ((fr.map (·.poisoned)).getD false) } }
  if gone then s
  else
    let s := accDelivered s h.src h
    if q < 64 then
      if netDiscards s q then (if h.eof then count s (0x3C0 + q) else s)
      else
        let s := emit s (.cellOut q out)
        if h.eof then
          let s := count s (0x240 + q)
          match c.cell.tsTag with
          | some t => pushStamp s (portOfLane s q) t
          | none => s
        else s
    else emit s (.cellOut q out)

/-- The cells of an output that lead their source and priority: only these may leave, but for a drive, which reads by address (R180). -/
def queueHeads : List QCell → List (Nat × Nat) → List QCell
  | [], _ => []
  | c :: r, seen =>
    if seen.contains (c.cell.hdr.src, c.cell.hdr.priority) then queueHeads r seen
    else c :: queueHeads r ((c.cell.hdr.src, c.cell.hdr.priority) :: seen)

/-- The queued cell an output would send now: on a network output, cells of the frame on the wire; else by weighted round-robin over
priorities and round-robin over sources. DESIGN CHOICE: one unit of WEIGHT is a frame on a network output and a cell on any other; R183 names no unit
(log entry 71). -/
def pickCell (s : State) (q : Nat) : Option (QCell × Nat × Nat × Nat) :=
  let o := outPort s q
  match o.sending with
  | some (src, prio, seq) =>
    ((o.cells.find? (fun c => c.cell.hdr.src == src && c.cell.hdr.priority == prio && c.cell.hdr.seq == seq))).map
      (fun c => (c, o.wrrPrio, o.wrrLeft, (o.rr[o.wrrPrio]?).getD 0))
  | none =>
    if q < 64 && netPaused s q then none
    else
      let cand := (if portClass q = 1 then o.cells else queueHeads o.cells []).filter (cellReady q o)
      match wrrPick s o (fun p => cand.any (fun c => c.cell.hdr.priority == p)) with
      | none => none
      | some (p, left) =>
        let ptr := (o.rr[p]?).getD 0
        let mine := cand.filter (fun c => c.cell.hdr.priority == p)
        let best := sortBy (fun a b => decide ((a.cell.hdr.src + 160 - ptr) % 160 ≤ (b.cell.hdr.src + 160 - ptr) % 160)) mine
        best.head?.map (fun c => (c, p, left, (c.cell.hdr.src + 1) % 160))

/-- CELL_DEPART: an output sends one cell, and cells and bindings that wait are tried again. -/
def departCell (s : State) (q : Nat) (ecc : Ecc) : State :=
  match pickCell s q with
  | none => s
  | some (c, p, left, rr) => retryBinds (retryWaiting (sendCell s q c p left rr ecc))

def execCellDepart (port : Nat) (ecc : Ecc) (s : State) : Res := .next (departCell s port ecc)

/-! ## Port down (R187) -/

/-- A port goes down: UP cleared, its cells freed, notices with reason 2 sent per frame, PORT_FLUSHED set. -/
def portDown (s : State) (q : Nat) : State :=
  if !(portUp s q) then s
  else
    let o := outPort s q
    let s := clearBit s (.fabPortCtrl q) 0
    let s := setOut s q (fun o => { o with cells := [], frames := [], sending := none })
    let s := o.frames.foldl (fun s f =>
      let mine := o.cells.filter (fun c => frameKey f c.cell.hdr.src c.cell.hdr.priority c.cell.hdr.seq)
      match mine.head? with
      | some c => notify s (noticeOf q f.src 2 mine.length c.cell.hdr)
      | none => s) s
    let s := o.cells.foldl (fun s c => accDelivered s c.cell.hdr.src c.cell.hdr) s
    retryBinds (retryWaiting (setBit s .fabEvent 0))

/-! ## Parity Units (R190, R191) -/

def execAccumulatorBind (b : AccBind) (s : State) : Res := .next (bindAcc (retryBinds s) b)

/-- The output cells of a completed accumulator: position and payload by offset (Table 6.6). -/
def accOutputs (a : Acc) : List (Nat × Nat × Bytes) :=
  let offs := (a.cells.map (·.offset)).eraseDups
  let k := a.bind.k
  (offs.map (fun o =>
    let row := a.cells.filter (fun c => c.offset == o)
    match a.bind.mode with
    | .full =>
      let d := row.map (fun c => (c.position, padTo 256 c.payload))
      [(k, o, parityP 256 (d.map (·.2))), (k + 1, o, parityQ 256 d)]
    | .delta =>
      let data := (row.filter (fun c => c.position < k)).map (fun c => (c.position, padTo 256 c.payload))
      let p := (row.filter (fun c => c.position == k)).map (fun c => padTo 256 c.payload)
      let q := (row.filter (fun c => c.position == k + 1)).map (fun c => padTo 256 c.payload)
      [(k, o, xorBytes (parityP 256 p) (parityP 256 (data.map (·.2)))),
       (k + 1, o, xorBytes (parityP 256 q) (parityQ 256 data))]
    | .solve =>
      match gfSolve k 256 (row.map (fun c => (c.position, padTo 256 c.payload))) a.bind.touched with
      | some l => l.map (fun e => (e.1, o, e.2))
      | none => [])).flatten

/-- An accumulator completes: its output cells are queued to its targets at the binding's priority (R191). -/
def completeAcc (s : State) (i : Nat) (a : Acc) : State :=
  let outs := accOutputs a
  let u := i / 512
  let s := { s with par := { s.par with accs := tput s.par.accs i { a with done := true, undelivered := outs.length } } }
  let s := count s (0x684 + u)
  outs.foldl (fun s e =>
    let tgt :=
      match a.bind.mode with
      | .solve => ((a.bind.touched.zip a.bind.targets).find? (fun x => x.1 == e.1)).map (·.2)
      | _ => a.bind.targets[e.1 - a.bind.k]?
    match tgt with
    | some t =>
      admitCell s (136 + u)
        { hdr := { src := 136 + u, sof := true, eof := true, priority := a.bind.prio, targets := [t], position := e.1
                   accum := i, accEn := true, cellOffset := e.2.1, seq := s.fab.nextId, integrity := 1 }
          payload := e.2.2 }
    | none => accDelivered s (136 + u) { src := 136 + u, sof := true, eof := true, priority := 0, targets := [], accum := i, accEn := true }) s

/-- An accumulator receives a cell (R191): at most once per combination; one beyond the expected number overruns and poisons it. -/
def accCell (s : State) (i position offset : Nat) (isNew poison : Bool) (payload : Bytes) : State :=
  match tget s.par.accs i with
  | none => s
  | some a =>
    if a.done then
      let s := if poison then count (setBit s .parEvent 2) 0x688 else s
      let s := count (setBit s .parEvent 1) 0x689
      { s with par := { s.par with accs := tput s.par.accs i { a with seen := a.seen + 1, poisoned := true } } }
    else
      let ovr := decide (a.expected ≤ a.seen)
      let s := if poison then count (setBit s .parEvent 2) 0x688 else s
      let s := if ovr then count (setBit s .parEvent 1) 0x689 else s
      let a := { a with seen := a.seen + 1, poisoned := a.poisoned || poison || ovr
                        cells := if ovr then a.cells
                          else a.cells ++ [{ position := position, offset := offset, isNew := isNew, payload := payload }] }
      if a.seen = a.expected && !a.poisoned then completeAcc s i a
      else { s with par := { s.par with accs := tput s.par.accs i a } }

def execAccumulatorCell (acc position offset : Nat) (isNew poison : Bool) (payload : Bytes) (s : State) : Res :=
  .next (accCell s acc position offset isNew poison payload)

/-- An accumulator that has not completed by its timeout is freed; its engine receives a notice with reason 2 (R191). -/
def accTimeout (s : State) (acc : Nat) (a : Acc) : State :=
  let s := reach s (a.boundAt + 1000000 * fld s .parTimeoutCfg 15 0)
  let s := { s with par := { s.par with accs := tdel s.par.accs acc } }
  let s := setOut s (136 + acc / 512) (fun o => { o with charges := o.charges.filter (fun e => e.1 != acc) })
  let s := count (setBit s .parEvent 0) 0x68A
  let s := notify s { port := 136 + acc / 512, source := a.bind.engine, reason := 2, cells := a.expected - a.seen
                      cmd := 0, stripe := a.bind.firstBlock, position := 0, seq := 0 }
  retryBinds s

end Sys2Proof.Machine
end

