-- ==== Sys2Proof/Machine/Network.lean ====
section
/-! DEFINITION. Network ports (R194 to R201): link changes, the frames the edge answers, priority flow control and its watchdogs,
transmit stamps, the GID table. -/

namespace Sys2Proof.Machine

/-- MAC address of the port that holds a lane. -/
def portMac (s : State) (lane : Nat) : BitVec 48 := BitVec.ofNat 48 (fld s (.netPortMac (portOfLane s lane)) 47 0)

/-- Port rate in GB/s (Table 7.1). -/
def portGBs (s : State) (lane : Nat) : Nat :=
  let p := portOfLane s lane
  portWidth s p * (if flag s (.netGroupCfg (p / 8)) 8 then 12 else 25) +
    (if flag s (.netGroupCfg (p / 8)) 8 then portWidth s p / 2 else 0)

/-- Valid GID entry of a port with an address. -/
def portGid (s : State) (lane : Nat) (addr : BitVec 128) : Bool :=
  (netPortAt s lane).gids.any (fun e => e.2.valid && e.2.addr == addr)

/-- Whether an address is IPv4 in IPv4-mapped form (R198). -/
def isV4 (a : BitVec 128) : Bool := (a >>> 32) == 0xFFFF#128

/-- A frame arrives on a lane whose port's link is up (counter 0x200 + l). -/
def frameIn (s : State) (lane : Nat) : State := count s (0x200 + lane)

/-- The queue pair that a packet belongs to. -/
def packetQp : Packet → Option Nat
  | .ack i _ _ | .nak i _ _ _ | .rnrNak i _ _ _ | .sendMsg i _ _ _ | .rdmaWrite i _ _ _ _ _ _ | .readRequest i _ _ _ _ _ | .retransmit i _ _ | .probe i _
  | .cmDreq i | .cmDrep i => some i
  | .cmRep n _ => some (n - 0x10000)
  | .cmRej _ _ _ _ | .cmMra _ _ _ => none

/-- The entry of the port's GID table that a packet leaves from. -/
def packetGid (s : State) : Packet → Nat
  | .cmRej g _ _ _ => g
  | .cmMra _ g _ => g
  | p => (((packetQp p).bind (tget s.rdma.qps)).map (·.gid)).getD 0

/-- AETH syndrome: ACK with the invalid credit count, RNR NAK with its timer, NAK with its code (R203). -/
def aethSyndrome : Packet → Option Nat
  | .ack _ _ _ => some 0x1F
  | .rnrNak _ _ _ t => some (0x20 + t)
  | .nak _ _ _ c => some (0x60 + c)
  | _ => none

/-- How a packet is headed: DSCP and ECN of NET_PRIO_CFG, PCP ROCE_PRIO when the GID entry carries a VLAN, UDP checksum 0 (R199, R202). -/
def roceHdr (s : State) (lane : Nat) (p : Packet) : RoceHdr :=
  let g := (tget (netPortAt s lane).gids (packetGid s p)).getD {}
  { dscp := fld s .netPrioCfg 13 8, ecn := fld s .netPrioCfg 25 24
    vlan := if g.vlanEn then some (g.vlanId.toNat, fld s .netPrioCfg 2 0) else none, syndrome := aethSyndrome p }

/-- Bytes of an outgoing message; a READ Request counts the response it asks for. -/
def txBytes (m : TxMsg) : Nat :=
  match m.kind with
  | .readReq _ _ len => len
  | _ => m.bytes.length

/-- Outgoing data, which is paced: its queue pair and its size (R216). -/
def pacedData : Packet → Option (Nat × Nat)
  | .sendMsg i _ _ b => some (i, b.length)
  | .rdmaWrite i _ _ _ _ _ b => some (i, b.length)
  | .readRequest i _ _ _ _ n => some (i, n)
  | .retransmit i _ l => some (i, (l.map txBytes).sum)
  | _ => none

/-- Whether a packet is held to its queue pair's rate now: congestion control is on, and data sent before takes the time until `paceAt`, or waits itself (R216). -/
def paceHeld (s : State) (p : Packet) : Bool :=
  match pacedData p with
  | none => false
  | some (i, _) =>
    (flag s .qpCtrl 2 && decide (nowOf s < ((tget s.rdma.qps i).map (·.paceAt)).getD 0)) || s.txWait.any (fun w => ((pacedData w.2.2).map (·.1)) == some i)

/-- Data that leaves takes its queue pair's rate, in 0.1 Gb/s, for its length (R216). -/
def paceOn (s : State) (p : Packet) : State :=
  match pacedData p with
  | none => s
  | some (i, n) =>
    if !(flag s .qpCtrl 2) then s
    else { s with rdma := { s.rdma with qps := tmod s.rdma.qps i (fun q =>
      { q with paceAt := max q.paceAt (nowOf s) + (((80 * n : Nat) : Rat) / q.rate).ceil.toNat }) } }

/-- Packets reach the head of a network output (R199, R200, R216): lost while its link is down, dropped and counted under the egress watchdog, kept while the peer
pauses the priority or the queue pair's rate holds them, else sent (counter 0x240 + l). -/
def netOut (s : State) (e : Nat × Nat × Packet) : State :=
  if !(netPortAt s e.1).link then s
  else if netDiscards s e.1 then countBy s (0x3C0 + e.1) e.2.1
  else if netPaused s e.1 || paceHeld s e.2.2 then { s with txWait := s.txWait ++ [e] }
  else countBy (emit (paceOn s e.2.2) (.roce (roceHdr s e.1 e.2.2) e.2.2)) (0x240 + e.1) e.2.1

/-- The frames that wait are tried again, in order. -/
def netDrain (s : State) : State :=
  if s.txWait.isEmpty then s else forAll s.txWait netOut { s with txWait := [] }

/-- The device sends `n` frames of ROCE_PRIO on a lane's port. -/
def netSend (s : State) (lane n : Nat) (p : Packet) : State := netOut (netDrain s) (lane, n, p)

/-- A packet other than data on a lane's port leaves at once; data does too where its queue pair's rate allows. -/
def sendsNow (s : State) (lane : Nat) : Bool := (netPortAt s lane).link && !(netDiscards s lane) && !(netPaused s lane) && s.txWait.isEmpty

/-- Whether a received frame of a priority is dropped under the ingress watchdog (Table 7.3). -/
def ingressDrops (s : State) (lane prio : Nat) : Bool :=
  let q := (tget (netPortAt s lane).prios prio).getD {}
  q.ingressWdAt.isSome && decide (1024 * fld s .netPfcCfg 31 16 < q.use)

/-- A frame is dropped and counted with the other drops (counter 0x3C0 + l). -/
def dropOther (s : State) (lane : Nat) : State := count s (0x3C0 + lane)

/-- The link of a port may be up: the edge and the group are enabled, the lane starts a port, and UP is 1 (Tables 7.10, 7.17). -/
def linkAllowed (s : State) (lane : Nat) : Bool :=
  flag s .netCtrl 0 && flag s .netCtrl (8 + lane / 8) && decide (portWidth s lane ≠ 0) && flag s (.netPortCtrl lane) 0

/-- A network port's link comes up after FEC lock, auto-negotiation and training, or goes down; its fabric ports go down with it (R187,
R196). LINK_CHANGE is set when LINK changes. -/
def netLink (s : State) (lane : Nat) (up : Bool) : State :=
  let p := netPortAt s lane
  if up then
    if p.link || !(linkAllowed s lane) then s
    else
      let an := flag s (.netPortCtrl lane) 1
      let s := { s with clk := { s.clk with netLock := s.clk.netLock ||| (1#8 <<< (lane / 8)), ref156 := true } }
      setBit (setNetPort s lane (fun p => { p with link := true, fecLock := true, pcsLock := true, anDone := an })) .netEvent 0
  else if !p.link then s
  else
    let s := setNetPort s lane (fun p =>
      { p with link := false, fecLock := false, pcsLock := false, anDone := false, prios := [] })
    let l0 := portOfLane s lane
    let s := { s with txWait := s.txWait.filter (fun e => portOfLane s e.1 != l0) }
    let s := (List.range (portWidth s l0)).foldl (fun s i => portDown s (l0 + i)) s
    setBit s .netEvent 0

/-- NET_LINK_CHANGE. -/
def execNetLinkChange (lane : Nat) (up : Bool) (s : State) : Res := .next (netLink s lane up)

/-- An ARP request for an IPv4 GID is answered; any other is dropped and counted (R198). -/
def execArpRequest (lane : Nat) (target : BitVec 128) (_srcMac : BitVec 48) (s : State) : Res :=
  .next <|
    if !(netPortAt s lane).link then s
    else
      let s := frameIn s lane
      if isV4 target && portGid s lane target then
        count (emit s (.arpReply lane target (portMac s lane))) (0x240 + lane)
      else dropOther s lane

/-- A Neighbour Solicitation for an IPv6 GID is answered (R198). -/
def execNeighbourSolicitation (lane : Nat) (target : BitVec 128) (_srcMac : BitVec 48) (s : State) : Res :=
  .next <|
    if !(netPortAt s lane).link then s
    else
      let s := frameIn s lane
      if !(isV4 target) && portGid s lane target then
        count (emit s (.neighbourAdvert lane target (portMac s lane))) (0x240 + lane)
      else dropOther s lane

/-- One more frame in a one-second window that started at the first frame after the previous window's end: the window, and whether it is
within the limit (Table 7.2, R10). DESIGN CHOICE: R198 gives the rates no window (log entry 76). -/
def rateWindow (w : Nat × Nat) (now limit : Nat) : (Nat × Nat) × Bool :=
  if w.1 + 1000000000 ≤ now ∨ w.2 = 0 then ((now, 1), true)
  else if w.2 < limit then ((w.1, w.2 + 1), true)
  else (w, false)

/-- An echo request to a GID is answered, at most 1,000 per second and port (R198). -/
def execEchoRequest (lane : Nat) (target : BitVec 128) (v6 : Bool) (payload : Bytes) (s : State) : Res :=
  .next <|
    if !(netPortAt s lane).link then s
    else
      let s := frameIn s lane
      if portGid s lane target && (isV4 target != v6) then
        let (w, ok) := rateWindow (netPortAt s lane).echoWin (nowOf s) 1000
        let s := setNetPort s lane (fun p => { p with echoWin := w })
        if ok then count (emit s (.echoReply lane target payload)) (0x240 + lane) else dropOther s lane
      else dropOther s lane

/-- A PTP message is stamped with the shelf time and passed to the control complex (R201). -/
def execPtpMessage (lane : Nat) (frame : Bytes) (s : State) : Res :=
  .next <|
    if !(netPortAt s lane).link then s
    else emit (frameIn s lane) (.toControl lane (nowOf s) frame)

/-- LLDP, or another frame to the port's MAC and a GID, is passed to the control complex, at most 10,000 per second and port (R198). -/
def execControlFrame (lane : Nat) (lldp : Bool) (target : BitVec 128) (frame : Bytes) (s : State) : Res :=
  .next <|
    if !(netPortAt s lane).link then s
    else
      let s := frameIn s lane
      if lldp || portGid s lane target then
        let (w, ok) := rateWindow (netPortAt s lane).ctlWin (nowOf s) 10000
        let s := setNetPort s lane (fun p => { p with ctlWin := w })
        if ok then emit s (.toControl lane (nowOf s) frame) else dropOther s lane
      else dropOther s lane

/-- Pause time of a quanta value: quanta of 512 bit times at the port rate, in ns (log entry 10). -/
def quantaNs (s : State) (lane q : Nat) : Nat := if portGBs s lane = 0 then 0 else 64 * q / portGBs s lane

/-- One priority of a received PFC frame (R199): 0 quanta resume it, other quanta pause it; a running egress watchdog ignores pause. -/
def pfcOne (s : State) (lane prio q : Nat) : State :=
  if bits (bankGet s (.netPortCtrl (portOfLane s lane))) 31 24 / 2 ^ prio % 2 = 0 then s
  else
    setNetPort s lane (fun p =>
      let x := (tget p.prios prio).getD {}
      let y :=
        if x.egressWdAt.isSome then x
        else if q = 0 then { x with pausedFrom := none, pausedUntil := 0 }
        else
          let still := x.pausedFrom.isSome && decide (nowOf s < x.pausedUntil)
          { x with pausedFrom := if still then x.pausedFrom else some (nowOf s)
                   pausedUntil := nowOf s + quantaNs s lane q }
      { p with prios := tput p.prios prio y })

/-- PFC_FRAME. -/
def execPfcFrame (lane : Nat) (enabled : BitVec 8) (quanta : List Nat) (s : State) : Res :=
  .next <|
    if !(netPortAt s lane).link then s
    else
      netDrain <| (List.range 8).foldl (fun s i =>
        if enabled.getLsbD i then pfcOne s lane i ((quanta[i]?).getD 0) else s) (frameIn s lane)

/-- A datagram on a queue pair other than QP1 is dropped and counted (R202); one on QP1 is a CM message, which has rows of its own. -/
def execUnreliableDatagram (lane qpn : Nat) (s : State) : Res :=
  .next <|
    if !(netPortAt s lane).link then s
    else
      let s := frameIn s lane
      if qpn = 1 then s else dropOther s lane

/-- The port's ingress-buffer use for a priority falls to XON_KIB, and the device releases pause (R199). -/
def execXon (lane prio : Nat) (s : State) : Res :=
  .next <|
    let u := ((tget (netPortAt s lane).prios prio).getD {}).use
    let xon := 1024 * fld s .netPfcCfg 15 0
    ingressSub s lane prio (u - min u xon)

/-- The egress watchdog acts (R200): EGRESS_WD ms of pause have been reached. -/
def execPfcStormEgress (lane prio : Nat) (s : State) : Res :=
  .next <|
    let x := (tget (netPortAt s lane).prios prio).getD {}
    let lim := fld s .netWdogCfg 15 0
    match x.pausedFrom with
    | some t =>
      if lim = 0 ∨ x.egressWdAt.isSome ∨ x.pausedUntil < t + 1000000 * lim then s
      else
        let s := reach s (t + 1000000 * lim)
        let s := setNetPort s lane (fun p =>
          { p with prios := tput p.prios prio { x with pausedFrom := none, pausedUntil := 0, egressWdAt := some (nowOf s) } })
        netDrain (count (setBit s .netEvent 2) 0x486)
    | none => s

/-- The ingress watchdog acts (R200): XOFF has been held INGRESS_WD ms. The device stops sending XOFF. -/
def execPfcStormIngress (lane prio : Nat) (s : State) : Res :=
  .next <|
    let x := (tget (netPortAt s lane).prios prio).getD {}
    let lim := fld s .netWdogCfg 31 16
    match x.xoffFrom with
    | some t =>
      if lim = 0 ∨ x.ingressWdAt.isSome then s
      else
        let s := reach s (t + 1000000 * lim)
        let s := setNetPort s lane (fun p =>
          { p with prios := tput p.prios prio { x with xoffFrom := none, ingressWdAt := some (nowOf s) } })
        count (setBit (emit s (.pause (portOfLane s lane) prio false)) .netEvent 3) 0x487
    | none => s

/-- RESTORE ms after a watchdog acted the device resumes normal behaviour for the priority (R200). -/
def execPfcWatchdogRestore (lane prio : Nat) (egress : Bool) (s : State) : Res :=
  .next <|
    let x := (tget (netPortAt s lane).prios prio).getD {}
    let due (t : Nat) : State := reach s (t + 1000000 * fld s .netWdogCfg 47 32)
    if egress then
      match x.egressWdAt with
      | some t => setNetPort (due t) lane (fun p => { p with prios := tput p.prios prio { x with egressWdAt := none } })
      | none => s
    else
      match x.ingressWdAt with
      | some t =>
        let s := setNetPort (due t) lane (fun p => { p with prios := tput p.prios prio { x with ingressWdAt := none } })
        ingressAdd s lane prio 0
      | none => s

/-- A read of NET_PTP_TXTS_TAG pops the oldest transmit stamp into the tag and time registers; with none there, VALID reads 0 and the time
stays that of the entry last popped (R201, Table 7.14). -/
def popStamp (s : State) : State :=
  match s.net.stamps with
  | [] => { s with net := { s.net with popValid := false, popTag := 0, popPort := 0 } }
  | t :: r => { s with net := { s.net with stamps := r, popValid := true, popTag := t.tag, popPort := t.port, popTime := t.time } }

/-- PTP_TXTS_POP. -/
def execPtpTxtsPop (s : State) : Res := .next (popStamp s)

/-- A write of NET_GID_SEL selects a GID entry and loads it into the address and attribute registers (Table 7.15). -/
def gidSelect (s : State) (value : Word) : State :=
  let s := bankSet s .netGidSel (value &&& (regInfo .netGidSel).rw)
  let g := (tget ((tget s.net.ports (bits value 9 4)).getD {}).gids (bits value 3 0)).getD {}
  let s := bankSet s .netGidAddrHi (BitVec.ofNat 64 (g.addr.toNat / 2 ^ 64))
  let s := bankSet s .netGidAddrLo (BitVec.ofNat 64 g.addr.toNat)
  bankSet s .netGidAttr (bitIf g.valid 16 ||| bitIf g.vlanEn 12 ||| atLo g.vlanId.toNat 0)

/-- GID_SELECT. -/
def execGidSelect (value : Word) (s : State) : Res := .next (gidSelect s value)

/-- A write of NET_GID_ATTR commits the address registers and the attributes to the selected entry together (R198). -/
def gidCommit (s : State) (value : Word) : State :=
  let s := bankSet s .netGidAttr (value &&& (regInfo .netGidAttr).rw)
  let g : Gid :=
    { addr := BitVec.ofNat 128 ((bankGet s .netGidAddrHi).toNat * 2 ^ 64 + (bankGet s .netGidAddrLo).toNat)
      valid := bit value 16, vlanEn := bit value 12, vlanId := BitVec.ofNat 12 (bits value 11 0) }
  let port := fld s .netGidSel 9 4
  let p := (tget s.net.ports port).getD {}
  { s with net := { s.net with ports := tput s.net.ports port { p with gids := tput p.gids (fld s .netGidSel 3 0) g } } }

/-- GID_COMMIT. -/
def execGidCommit (value : Word) (s : State) : Res := .next (gidCommit s value)

end Sys2Proof.Machine
end

