-- ==== Sys2Proof/Machine/RdmaOps.lean ====
section
/-! DEFINITION. Shared operations of the transport (R202 to R223): PSN order, acknowledgements, outgoing messages and their paths,
pacing, the context cache, gather-window pages and revokes. -/

namespace Sys2Proof.Machine

def qpAt (s : State) (i : Nat) : Option Qp := tget s.rdma.qps i

def setQp (s : State) (i : Nat) (f : Qp → Qp) : State :=
  { s with rdma := { s.rdma with qps := tmod s.rdma.qps i f } }

def regionAt (s : State) (i : Nat) : Region := (tget s.rdma.regions i).getD {}

def setRegion (s : State) (i : Nat) (f : Region → Region) : State :=
  { s with rdma := { s.rdma with regions := tput s.rdma.regions i (f (regionAt s i)) } }

/-! ## PSN order: 24-bit, a half space ahead and a half space behind -/

def psnAdd (a n : Nat) : Nat := (a + n) % 2 ^ 24

/-- How far `a` lies above `b`, modulo 2^24. -/
def psnDiff (a b : Nat) : Nat := (a + 2 ^ 24 - b % 2 ^ 24) % 2 ^ 24

/-- `a` at or above `b`. -/
def psnGe (a b : Nat) : Bool := decide (psnDiff a b < 2 ^ 23)

/-- The network group of a queue pair (counters 0x400 + 16g + e). -/
def qpGroup (q : Qp) : Nat := q.lane / 8

def qpCount (s : State) (q : Qp) (e : Nat) : State := count s (0x400 + 16 * qpGroup q + e)

/-- UDP source port of a pinned queue pair (R210): QPN is 0x01_0000 + index. -/
def pinnedSport (i : Nat) : Nat :=
  let qpn := 0x10000 + i
  0xC000 + (Nat.xor qpn (qpn / 2 ^ 14)) % 2 ^ 14

/-- First source port of the device's paths for sprayed queue pairs (its own SPORT_BASE; log entry 11). -/
def deviceSportBase : Nat := 0xC000

/-- The source port of path j of a queue pair (R210, R212). -/
def pathSport (i : Nat) (q : Qp) (j : Nat) : Nat := if q.sprayed then deviceSportBase + j else pinnedSport i

/-! ## Acknowledgements (R208) -/

/-- A cumulative ACK of ePSN − 1, on path 0. -/
def sendAck (s : State) (i : Nat) : State :=
  match qpAt s i with
  | none => s
  | some q =>
    let s := setQp s i (fun q => { q with sinceAck := 0, oldestUnacked := none })
    netSend s q.lane 1 (.ack i (pathSport i q 0) (psnAdd q.epsn (2 ^ 24 - 1)))

/-- A sequence-error NAK carrying a PSN. -/
def sendSeqNak (s : State) (i psn : Nat) : State :=
  match qpAt s i with
  | none => s
  | some q => qpCount (netSend s q.lane 1 (.nak i (pathSport i q 0) psn 0)) q 2

/-! ## Outgoing messages (R209, R212, R216, R217) -/

/-- The path the next packet takes: rotation over the paths not marked congested, or over all when every one is (R217). -/
def nextPath (q : Qp) : Nat :=
  if !q.sprayed then 0
  else
    let bad (j : Nat) : Bool := ((tget q.paths j).map (·.congested)).getD false
    let order := (List.range q.txPaths).map (fun d => (q.rotor + d) % q.txPaths)
    (order.find? (fun j => !(bad j))).getD (q.rotor % (max 1 q.txPaths))

/-- The rotation moves on past the path taken. -/
def rotate (q : Qp) (path : Nat) : Qp := { q with rotor := (path + 1) % (max 1 q.txPaths) }

/-- One AckReq packet per path per round trip is stamped for a sample (R216). -/
def markSample (q : Qp) (path psn now : Nat) (cc : Bool) : Qp :=
  let p := (tget q.paths path).getD {}
  if cc && p.sampleFrom.isNone then { q with paths := tput q.paths path { p with sampleFrom := some (psn, now) } } else q

/-- Packets of a message. -/
def packetsOf (mtu len : Nat) : Nat := if mtu = 0 then 1 else max 1 ((len + mtu - 1) / mtu)

/-- Consecutive packets of a message take the paths in rotation: the source port of each (R212, R216). -/
def sendPaths (i : Nat) (now : Nat) (cc : Bool) : Nat → Nat → Qp → Qp × List Nat
  | 0, _, q => (q, [])
  | n + 1, psn, q =>
    let path := nextPath q
    let r := sendPaths i now cc n (psnAdd psn 1) (markSample (rotate q path) path psn now cc)
    (r.1, pathSport i q path :: r.2)

/-- A queue pair may send new requests only in RTS (Table 7.5). -/
def qpLive (s : State) (i : Nat) : Bool :=
  match qpAt s i with
  | some q => q.state == .rts
  | none => false

/-- Send a message: its bytes stay until acknowledged, and the retransmission timer runs (R209). -/
def qpSend (s : State) (i : Nat) (kind : TxKind) (bytes : Bytes) : State :=
  match qpAt s i with
  | none => s
  | some q =>
    if q.state != .rts then s
    else
      let n := packetsOf q.mtu bytes.length
      let psn := q.nextPsn
      let (q', ports) := sendPaths i (nowOf s) (flag s .qpCtrl 2) n psn q
      let q' := { q' with nextPsn := psnAdd psn n
                          unacked := q.unacked ++ [{ psn := psn, packets := n, kind := kind, bytes := bytes }]
                          timerFrom := some ((q.timerFrom).getD (nowOf s)) }
      netSend (setQp s i (fun _ => q')) q.lane n (match kind with
        | .send => .sendMsg i ports psn bytes
        | .rdmaWrite k a => .rdmaWrite i ports psn k a q.sprayed bytes
        | .readReq k a len => .readRequest i ((ports.head?).getD 0) psn k a len)

/-- Send an RDMA READ Request that feeds a write unit: its responses take one PSN per packet (R203, R209). -/
def qpRead (s : State) (i : Nat) (rkey addr len pool wseq firstByte : Nat) : State :=
  match qpAt s i with
  | none => s
  | some q =>
    if q.state != .rts ∨ q.maxReads ≤ q.reads.length then s
    else
      let n := packetsOf q.mtu len
      let psn := q.nextPsn
      let path := nextPath q
      let q' := markSample (rotate q path) path psn (nowOf s) (flag s .qpCtrl 2)
      let q' := { q' with nextPsn := psnAdd psn n
                          reads := q.reads ++ [{ psn := psn, packets := n, rkey := rkey, addr := addr, pool := pool, wseq := wseq, firstByte := firstByte, bytes := len }]
                          timerFrom := some ((q.timerFrom).getD (nowOf s)) }
      netSend (setQp s i (fun _ => q')) q.lane 1 (.readRequest i (pathSport i q path) psn rkey addr len)

/-! ## Congestion control (R216) -/

/-- A path's base round trip: its minimum sample in the current and the previous window. -/
def pathBase (p : Path) : Option Nat :=
  match p.curMin, p.prevMin with
  | some a, some b => some (min a b)
  | some a, none => some a
  | none, b => b

/-- The highest rate in 0.1 Gb/s: min(port rate, 200 Gb/s). -/
def maxRate (s : State) (q : Qp) : Rat := if portGBs s q.lane * 80 < 2000 then (portGBs s q.lane * 80 : Nat) else 2000

/-- A round-trip sample on a path (R216). -/
def rttSample (s : State) (i path sample : Nat) : State :=
  match qpAt s i with
  | none => s
  | some q =>
    if !(flag s .qpCtrl 2) then s
    else
      let p := (tget q.paths path).getD {}
      let p := { p with curMin := some (match p.curMin with
                                        | some m => min m sample
                                        | none => sample), sampleFrom := none }
      let base := (pathBase p).getD sample
      let t : Nat := base + 250 * fld s .qpCcCfg 55 48
      let p := { p with congested := decide (t ≤ sample) }
      let q := { q with paths := tput q.paths path p }
      if nowOf s < q.nextAdjust then setQp s i (fun _ => q)
      else
        let step : Rat := (fld s .qpCcCfg 47 32 : Nat)
        let minR : Rat := (fld s .qpCcCfg 15 0 : Nat)
        let beta : Rat := (fld s .qpCcCfg 63 56 : Nat) / 256
        let up := q.rate + step
        let down := q.rate * (1 - beta * ((sample : Rat) - (t : Rat)) / (sample : Rat))
        if sample < t then
          setQp s i (fun _ => { q with rate := if up < maxRate s q then up else maxRate s q, nextAdjust := nowOf s + sample })
        else
          qpCount (setQp s i (fun _ => { q with rate := if minR < down then down else minR, nextAdjust := nowOf s + sample })) q 9

/-! ## Context cache (R206) -/

/-- A context is pinned while its resequencer holds packets, a fence is open on it, or it is in SQD. -/
def qpPinned (q : Qp) : Bool := !q.held.isEmpty || !q.fences.isEmpty || q.state == .sqd

/-- PINNED and CACHED of QP_STATUS. -/
def pinnedCount (s : State) : Nat := (s.rdma.qps.filter (fun e => e.2.cached && qpPinned e.2)).length
def cachedCount (s : State) : Nat := (s.rdma.qps.filter (fun e => e.2.cached)).length

/-- A context enters the cache; the least recently used unpinned one leaves when 8,192 are there. -/
def cacheQp (s : State) (i : Nat) : State :=
  let s :=
    if cachedCount s < 8192 then s
    else
      let cand := s.rdma.qps.filter (fun e => e.2.cached && !(qpPinned e.2))
      match (sortBy (fun a b => decide (a.2.lastUse ≤ b.2.lastUse)) cand).head? with
      | some v => setQp s v.1 (fun q => { q with cached := false })
      | none => s
  let u := s.rdma.useClock + 1
  setQp { s with rdma := { s.rdma with useClock := u } } i (fun q => { q with cached := true, lastUse := u })

/-- A cached context is used. -/
def touchQp (s : State) (i : Nat) : State :=
  let u := s.rdma.useClock + 1
  setQp { s with rdma := { s.rdma with useClock := u } } i (fun q => { q with lastUse := u })

/-! ## Gather windows (R218 to R223) -/

/-- R_Key of a region: entry index in bits 13:0, tag in bits 31:14. -/
def regionKey (i : Nat) (r : Region) : Nat := r.tag * 2 ^ 14 + i

/-- Pages in use by all regions, and by one connection. -/
def pagesUsed (s : State) : Nat := (s.rdma.regions.map (fun e => e.2.pages.length)).sum
def pagesOf (s : State) (conn : Nat) : Nat :=
  ((s.rdma.regions.filter (fun e => e.2.conn == conn)).map (fun e => e.2.pages.length)).sum

/-- Pages of the gather-window region: 16 cells each (R220). -/
def windowPages (s : State) : Nat := fld s .fabGwCfg 19 0 / 16

/-- Free the pages of a region once it is released and no command in flight names it (R220). -/
def freePages (s : State) (i : Nat) : State :=
  let r := regionAt s i
  if r.naming.isEmpty && r.state == .free then setRegion s i (fun r => { r with pages := [], data := [] }) else s

/-- The pages that a range of a region lies in. -/
def pagesIn (off len : Nat) : List Nat :=
  if len = 0 then [] else (List.range ((off + len - 1) / 4096 + 1 - off / 4096)).map (fun j => off / 4096 + j)

/-- The pages of a region that a range touches and that are not backed. -/
def pagesNeeded (r : Region) (off len : Nat) : List Nat :=
  (pagesIn off len).filter (fun p => !(r.pages.contains p))

/-- The highest accepted PSN of a queue pair. -/
def highestPsn (q : Qp) : Nat :=
  q.accepted.foldl (fun m p => if psnGe p m then p else m) (psnAdd q.epsn (2 ^ 24 - 1))

/-- A queue pair has placed every PSN at or before a fence (R223). -/
def fencePassed (q : Qp) (f : Nat) : Bool := psnGe q.epsn (psnAdd f 1) || q.state == .error || q.state == .reset

end Sys2Proof.Machine
end

