-- ==== Sys2Proof/Machine/HostOps.lean ====
section
/-! DEFINITION. Shared operations of the host command protocol (R235 to R252): connections and queues, statuses, the error log, the
freeze, completions, events, lost queues, and the command sample record (R364, R365). -/

namespace Sys2Proof.Machine

def connAt (s : State) (c : Nat) : Option Conn := tget s.hq.conns c

def setConn (s : State) (c : Nat) (f : Conn → Conn) : State := { s with hq := { s.hq with conns := tmod s.hq.conns c f } }

def queueAt (s : State) (c q : Nat) : Option Queue := (connAt s c).bind (fun k => tget k.queues q)

def setQueue (s : State) (c q : Nat) (f : Queue → Queue) : State :=
  setConn s c (fun k => { k with queues := tmod k.queues q f })

def cmdAt (s : State) (k : Nat) : Option Cmd := tget s.hq.cmds k

def setCmd (s : State) (k : Nat) (f : Cmd → Cmd) : State := { s with hq := { s.hq with cmds := tmod s.hq.cmds k f } }

/-- Early Service level (HQ_ES.LEVEL). -/
def esLevel (s : State) : Nat := fld s .hqEs 2 0

/-- Started commands of a connection, of a queue. -/
def connCmds (s : State) (c : Nat) : List (Nat × Cmd) := s.hq.cmds.filter (fun e => e.2.conn == c)
def queueCmds (s : State) (c q : Nat) : List (Nat × Cmd) := s.hq.cmds.filter (fun e => e.2.conn == c && e.2.queue == q)

/-! ## Statuses (Table 8.10). 0x114 is DATA_MODE for a data mode that is not allowed; MSP sends it as 0x14. A status of 0x10000 or more is an
NVMe status field plus 0x10000, for a Fabrics or admin command of NVMe-oF that Table 8.10 does not cover. -/

/-- The NVMe status field (status code in bits 7:0, type in bits 10:8, DNR in bit 14) that the last column of Table 8.10 gives. -/
def nvmeStatusOf (st : Nat) : Nat :=
  let dnr := 2 ^ 14
  match st with
  | 0x00 => 0
  | 0x10 => 0x01 + dnr
  | 0x11 => 0x02 + dnr
  | 0x12 => 0x0B + dnr
  | 0x13 => 0x80 + dnr
  | 0x14 => 0x0F + dnr
  | 0x114 => 0x11 + dnr
  | 0x15 => 0x03 + dnr
  | 0x16 => 0x02 + dnr
  | 0x17 => 0x286 + dnr
  | 0x26 => 0x281 + dnr
  | 0x27 => 0x281 + dnr
  | 0x28 => 0x81
  | 0x29 => 0x286
  | 0x2A => 0x280
  | 0x2B => 0x280
  | 0x30 => 0x04
  | 0x40 => 0x82
  | 0x41 => 0x08
  | 0x42 => 0x07
  | 0x44 => 0x82
  | 0x45 => 0x06
  | n => n - 0x10000

/-- Statuses that neither freeze a queue nor are logged (R247). -/
def quietStatus (st : Nat) : Bool := st == 0 || st == 0x15 || st == 0x16 || st == 0x41 || st == 0x42 || st == 0x43

/-- CAUSE of an error log entry for a status (R248). -/
def causeOf (st : Nat) : Nat :=
  match st with
  | 0x20 => 1
  | 0x29 => 2
  | 0x28 => 3
  | 0x2B => 4
  | 0x2A => 4
  | 0x26 => 5
  | 0x27 => 6
  | 0x30 => 7
  | 0x31 => 8
  | 0x32 => 9
  | 0x40 => 10
  | 0x44 => 12
  | 0x45 => 13
  | 0 => 0
  | _ => 11

/-! ## Error log (R248, R252) -/

/-- Entries of a connection not yet read. -/
def unread (k : Conn) : Nat := (k.log.filter (fun e => decide (k.readBelow ≤ e.seq))).length

/-- An entry is written with the next ERROR_SEQ; 32,768 are kept, and only read ones are overwritten. -/
def logErr (s : State) (c : Nat) (e : ErrEntry) : State :=
  setConn s c (fun k =>
    { k with log := (k.log ++ [{ e with seq := k.nextError, time := nowOf s }]).drop (k.log.length + 1 - 32768)
             nextError := k.nextError + 1 })

/-- The entries of a command: one for its status, one further for each further run of bad blocks, with MORE in the entry before (R248). -/
def cmdEntries (k : Cmd) (st fetched : Nat) (froze undel : Bool) : List ErrEntry :=
  let base : ErrEntry :=
    { seq := 0, time := 0, subSeq := k.subSeq, fetched := fetched, queue := k.queue, opcode := k.e.opcode, cid := k.e.cid
      status := st % 256, froze := froze, undelivered := undel, volumeId := k.e.volumeId, start := k.e.start, count := k.e.count
      cause := if k.cause = 0 then causeOf st else k.cause }
  match k.runs with
  | [] => [base]
  | r :: rest =>
    let one (froze more : Bool) (r : BadRun) : ErrEntry :=
      { base with froze := froze, more := more, badFirst := r.first, badCount := r.count, cause := r.cause, lossRef := r.lossRef }
    one froze (!rest.isEmpty) r ::
      rest.zipIdx.map (fun x => one false (decide (x.2 + 1 < rest.length)) x.1)

/-! ## Completions (R235, Table 8.7) -/

/-- The 16-byte completion of a connection's protocol: Table 8.7, or the NVMe completion entry (PRESUMED layout, log entry 12). -/
def completionBytes (s : State) (c q cid st result : Nat) (frozen logged : Bool) : Bytes :=
  match connAt s c with
  | none => zeros 16
  | some k =>
    let head := ((tget k.queues q).map (·.started)).getD 0
    if k.nvme then
      let size := ((tget k.queues q).map (·.entries)).getD 1
      pack 16 [(0, 8, result), (8, 2, head % size), (10, 2, q), (12, 2, cid), (14, 2, 2 * nvmeStatusOf st)]
    else
      pack 16 [(0, 2, cid), (2, 1, st % 256), (3, 1, (if frozen then 1 else 0) + (if logged then 2 else 0)), (4, 2, head),
        (6, 1, if 0x30 ≤ k.version then esLevel s else 0), (8, 8, result)]

/-- Whether a completion can be sent on a queue: its queue pair is in RTS and the queue is not lost. -/
def canSend (s : State) (c q : Nat) : Bool :=
  match queueAt s c q with
  | some u => qpLive s u.qp && !u.lost
  | none => false

/-- Send a completion, counted by its status (counters 0x500 + status). -/
def sendCompletion (s : State) (c q cid st result : Nat) (logged : Bool) : State :=
  match queueAt s c q with
  | none => s
  | some u =>
    let s := if st < 0x10000 then count s (0x500 + min 0x4F (st % 256)) else s
    qpSend s u.qp .send (completionBytes s c q cid st result u.frozen logged)

/-- A failed NVMe command leaves an Error Information entry, of which 64 are kept (R259, Table 8.14). -/
def nvmeErrInfo (s : State) (c q : Nat) (k : Cmd) (st result : Nat) : State :=
  setConn s c (fun n =>
    { n with ctl := { n.ctl with errInfo := ((q, k.e.cid, nvmeStatusOf st, result, if k.cause = 0 then causeOf st else k.cause) :: n.ctl.errInfo).take 64 } })

/-- The QUEUE_LOST entry of a lost MSP I/O queue (R251, version 3.3). -/
def queueLostEntry (s : State) (c q : Nat) : State :=
  match connAt s c, queueAt s c q with
  | some k, some u =>
    if k.nvme || q == 0 || decide (k.version < 0x33) then s
    else logErr s c { seq := 0, time := 0, subSeq := u.subSeq, fetched := u.started, queue := q, opcode := 0, cid := 0, status := 0x32
                      queueLost := true, cause := 9 }
  | _, _ => s

/-- The command sample record of a marked command (Table 15.3) goes to its ring, and CSAMPLE is set (R365). -/
def sampleRecord (s : State) (k : Cmd) (st : Nat) (undel : Bool) : State :=
  match k.mark with
  | none => s
  | some skid =>
    let t (x : Option Nat) : Nat :=
      match x with
      | some v => if v - k.acceptedAt < 2 ^ 32 then v - k.acceptedAt else 0xFFFFFFFF
      | none => 0xFFFFFFFF
    let connId := ((connAt s k.conn).map (·.id)).getD 0
    let n := s.tel.sampleSeq
    let opc := k.e.opcode
    let flags := (if k.raFlag then 1 else 0) + (if k.inflightFlag then 2 else 0) + (if k.redrivenFlag then 4 else 0)
      + (if k.missFlag then 8 else 0) + (if undel then 16 else 0)
    let body := pack 60 [(0, 8, k.acceptedAt), (8, 4, connId), (12, 1, k.queue), (13, 1, opc), (14, 2, k.e.cid), (16, 4, k.subSeq),
      (20, 1, skid), (21, 1, st), (22, 2, k.e.volumeId), (24, 4, k.e.count), (28, 4, t (some k.startedAt)), (32, 4, t k.firstIo),
      (36, 4, t k.lastIo), (40, 4, t k.doneAt), (44, 4, t (some (nowOf s))), (48, 2, k.unitCount), (50, 1, flags), (52, 4, n % 2 ^ 32)]
    let rec_ := body ++ leBytes 4 (crc32c body).toNat
    if !(flag s .telCtrl 0) then s
    else
    let s := store s (fld s .telAreaBase 40 25 * 2 ^ 25 + 0x600000 + n % 65536 * 64) rec_
    count (setBit { s with tel := { s.tel with sampleSeq := n + 1 } } .telEvent 2) 0x7F2

/-- The pages of a region that a command names: of its data, and of its guards (R36, R220). -/
def cmdPages (k : Cmd) (i : Nat) (r : Region) : List Nat :=
  (if k.e.dataMode == 3 && k.e.rkey % 2 ^ 14 == i then pagesIn (k.e.addr - r.base) (4096 * k.e.count) else []) ++
  (if k.e.integrity && k.e.guardKey % 2 ^ 14 == i then pagesIn (k.e.guardAddr - r.base) (8 * k.e.count) else [])

/-- A command that named a region completes: the pages it names are freed, but for those that another command in flight names (R220). -/
def unnameRegion (s : State) (i slot : Nat) : State :=
  let r := regionAt s i
  let of (x : Nat) : List Nat := ((cmdAt s x).map (fun k => cmdPages k i r)).getD []
  let rest := r.naming.filter (· != slot)
  let kept := rest.flatMap of
  let gone := (of slot).filter (fun p => !(kept.contains p))
  let s := setRegion s i (fun r => { r with naming := rest, pages := r.pages.filter (fun p => !(gone.contains p))
                                            data := r.data.filter (fun e => !(gone.contains (e.1 / 4096))) })
  freePages s i

/-- Command slots that a command's window data names in gather-window regions are released (R220). -/
def unnameAll (s : State) (slot : Nat) : State :=
  forAll s.rdma.regions (fun s e => if e.2.naming.contains slot then unnameRegion s e.1 slot else s) s

/-- Restarts waiting on a queue end with RESTART_STALE when a command of the queue fails meanwhile, from MSP 3.0 on (R250, Table 8.3). -/
def staleRestart (s : State) (c q : Nat) : State :=
  match connAt s c, queueAt s c q with
  | some k, some u =>
    if k.version < 0x30 ∨ u.restart.isEmpty then s
    else
      let s := setQueue s c q (fun u => { u with restart := [] })
      forAll u.restart (fun s r =>
        let s := { s with hq := { s.hq with cmds := s.hq.cmds.filter (fun e => !(e.2.conn == c && e.2.queue == 0 && e.2.e.cid == r.1 && e.2.e.opcode == 0x82)) } }
        sendCompletion s c 0 r.1 0x18 0 false) s
  | _, _ => s

/-- Drive reads still out for a command that has ended no longer feed a command slot. -/
def orphanReads (s : State) (slot : Nat) : State :=
  { s with drives := tmap s.drives (fun _ d =>
      { d with cmds := d.cmds.map (fun c =>
          match c.owner with
          | .hostRead k b j => if k = slot then { c with owner := .hostRead 262144 b j } else c
          | _ => c) }) }

/-- Whether a queue pair's queue is closed: its queue pair is gone or in Reset (R231). -/
def qpClosed (s : State) (qp : Nat) : Bool :=
  match qpAt s qp with
  | none => true
  | some q => q.state == .reset

/-- A command ends with a status: the freeze, the error log, the completion or its UNDELIVERED entry, and the QUEUE_LOST entry after the
last command of a lost queue (R235, R247, R248, R251). -/
def endCmd (s : State) (slot st : Nat) : State :=
  match cmdAt s slot with
  | none => s
  | some k =>
    let s := unnameAll s slot
    let s := orphanReads { s with hq := { s.hq with cmds := tdel s.hq.cmds slot } } slot
    match connAt s k.conn, queueAt s k.conn k.queue with
    | some n, some u =>
      let sent := canSend s k.conn k.queue
      let io := k.queue != 0
      let fails := io && !(quietStatus st)
      if n.nvme then
        let s := if st = 0 then s else nvmeErrInfo s k.conn k.queue k st k.result
        let s := if sent then sendCompletion s k.conn k.queue k.e.cid st k.result false else s
        let s := sampleRecord s k st (!sent)
        if u.lost && qpClosed s u.qp && (queueCmds s k.conn k.queue).isEmpty then
          setConn s k.conn (fun n => { n with queues := tdel n.queues k.queue })
        else s
      else
        let freezes := fails && !u.frozen
        let undelOk := decide (0x33 ≤ n.version)
        let logged := io && (fails || (!sent && undelOk))
        let s := if freezes then count (setBit (setQueue s k.conn k.queue (fun u => { u with frozen := true })) .hqEvent 1) 0x551 else s
        let s := if logged then
            forAll (cmdEntries k st u.started freezes (!sent && undelOk)) (fun s e => logErr s k.conn e) s
          else s
        let s := if fails then staleRestart s k.conn k.queue else s
        let s := if sent then sendCompletion s k.conn k.queue k.e.cid st k.result logged else s
        let s := sampleRecord s k st (!sent)
        if u.lost && (queueCmds s k.conn k.queue).isEmpty then
          let s := queueLostEntry s k.conn k.queue
          if qpClosed s u.qp then setConn s k.conn (fun n => { n with queues := tdel n.queues k.queue }) else s
        else s
    | _, _ => sampleRecord s k st true

/-- Set the outcome of a started command; COMMAND_COMPLETION sends it. -/
def finish (s : State) (slot st result : Nat) : State :=
  setCmd s slot (fun k => { k with status := some st, result := result, doneAt := some ((k.doneAt).getD (nowOf s)) })

/-- End a command at once with a status and a result. -/
def endWith (s : State) (slot st result : Nat) : State := endCmd (setCmd s slot (fun k => { k with result := result })) slot st

/-- A queue is lost (R251): its unstarted capsules are dropped, and with nothing started its QUEUE_LOST entry is written at once. -/
def loseQueue (s : State) (c q : Nat) : State :=
  match queueAt s c q with
  | none => s
  | some u =>
    if u.lost then s
    else
      let s := setQueue s c q (fun u => { u with lost := true, ring := [] })
      if (queueCmds s c q).isEmpty then queueLostEntry s c q else s

/-- A queue is closed when its queue pair returns to Reset (R231): it goes at once, or after its last started command. Waiting EVENT_WAITs and
asynchronous event requests of an admin queue go with it. -/
def closeQueue (s : State) (c q : Nat) : State :=
  let s := loseQueue s c q
  let gone (e : Nat × Cmd) : Bool :=
    e.2.conn == c && e.2.queue == q && q == 0 && (e.2.e.opcode == 0x88 || (e.2.nvme && e.2.e.opcode == 0x0C))
  let s := { s with hq := { s.hq with cmds := s.hq.cmds.filter (fun e => !(gone e)) } }
  if (queueCmds s c q).isEmpty then setConn s c (fun k => { k with queues := tdel k.queues q }) else s

/-! ## Events (R239) -/

/-- Outstanding EVENT_WAITs of a connection, oldest first. -/
def waitsOf (s : State) (c : Nat) : List Nat :=
  ((sortBy (fun a b => decide (a.2.subSeq ≤ b.2.subSeq))
    ((queueCmds s c 0).filter (fun e => !e.2.nvme && e.2.e.opcode == 0x88 && e.2.status.isNone)))).map (·.1)

/-- Outstanding NVMe asynchronous event requests, oldest first. -/
def aersOf (s : State) (c : Nat) : List Nat :=
  ((sortBy (fun a b => decide (a.2.subSeq ≤ b.2.subSeq))
    ((queueCmds s c 0).filter (fun e => e.2.nvme && e.2.e.opcode == 0x0C && e.2.status.isNone)))).map (·.1)

/-- Complete outstanding EVENT_WAITs with pending events, oldest first. -/
def deliverEvents (s : State) (c : Nat) : State :=
  forAll (waitsOf s c) (fun s slot =>
    match (connAt s c).map (·.pendingEvents) with
    | some ((code, d) :: _) =>
      let s := setConn s c (fun k => { k with pendingEvents := k.pendingEvents.drop 1 })
      endWith s slot 0 (code + 256 * d)
    | _ => s) s

/-- Complete outstanding asynchronous event requests with pending NVMe events (result DW0). -/
def deliverAers (s : State) (c : Nat) : State :=
  forAll (aersOf s c) (fun s slot =>
    match (connAt s c).map (·.ctl.pendingEvents) with
    | some (d :: _) =>
      let s := setConn s c (fun k => { k with ctl := { k.ctl with pendingEvents := k.ctl.pendingEvents.drop 1 } })
      endWith s slot 0 d
    | _ => s) s

/-- An event of Table 8.9 for a connection. An NVMe-oF host learns of a changed namespace list and of a starting activation where it enabled
those notices (log entry 12). -/
def postEvent (s : State) (c code detail : Nat) : State :=
  match connAt s c with
  | none => s
  | some k =>
    if k.nvme then
      let ev := if code = 2 then some (8, 0x040002) else if code = 4 then some (9, 0x030102) else none
      match ev with
      | some (b, dw) =>
        if k.ctl.asyncCfg / 2 ^ b % 2 = 1 && !(k.ctl.pendingEvents.contains dw) then
          deliverAers (setConn s c (fun k => { k with ctl := { k.ctl with pendingEvents := k.ctl.pendingEvents ++ [dw] } })) c
        else s
      | none => s
    else
      let evs :=
        if k.pendingEvents.any (fun e => e.1 == code) then
          k.pendingEvents.map (fun e =>
            if e.1 == code then (code, if code = 3 && e.2 != detail then 0xFFFF else detail) else e)
        else k.pendingEvents ++ [(code, detail)]
      deliverEvents (setConn s c (fun k => { k with pendingEvents := evs })) c

/-- An event for every connection. -/
def postAll (s : State) (code detail : Nat) : State := forAll (s.hq.conns.map (·.1)) (fun s c => postEvent s c code detail) s

/-- Whether a volume is open to a connection's host; a Host Identifier of all zeros matches none (R258). -/
def opened (v : Volume) (k : Conn) : Bool := v.hosts.contains k.hostId && !(k.nvme && k.hostId == 0)

/-- An event for every connection whose host has a volume open. -/
def postVol (s : State) (vol code detail : Nat) : State :=
  match volAt s vol with
  | none => s
  | some v =>
    forAll s.hq.conns (fun s e =>
      if opened v e.2 then
        let s := if code = 2 && e.2.nvme then
            setConn s e.1 (fun k => { k with ctl := { k.ctl with changedNs := (vol + 1) :: k.ctl.changedNs.filter (· != vol + 1) } })
          else s
        postEvent s e.1 code detail
      else s) s

/-- Event 2 for every volume of a pool. -/
def postPool (s : State) (pi : Nat) : State :=
  forAll (s.volumes.filter (fun e => e.2.pool == pi)) (fun s e => postVol s e.1 2 0) s

end Sys2Proof.Machine
end

