-- ==== Sys2Proof/Machine/Jobs.lean ====
section
/-! DEFINITION. NVMe commands to drives: queue pairs, placement handles, data pointers and metadata (R11, R49, R69, R70); and the jobs by which the device
writes its system structures: issue, landing on the drive, order of phases (R142, R144 to R146, R158). -/

namespace Sys2Proof.Machine

/-! ## Rings and bands -/

/-- The ring of a pool. -/
def ringAt (s : State) (r : Nat) : Ring := (tget s.hbx.rings r).getD {}

def setRing (s : State) (r : Nat) (f : Ring → Ring) : State :=
  { s with hbx := { s.hbx with rings := tput s.hbx.rings r (f (ringAt s r)) } }

def bandAt (s : State) (pi band : Nat) : Option Band := (poolAt s pi).bind (fun p => tget p.bands band)

def setBand (s : State) (pi band : Nat) (f : Band → Band) : State :=
  setPool s pi (fun p => { p with bands := tmod p.bands band f })

/-! ## NVMe commands (R49, R69, R70) -/

/-- The pool of a drive command, and the unit of one that belongs to a unit. -/
def ownerPool : CmdOwner → Option Nat
  | .unit p _ _ _ => some p
  | .header p _ => some p
  | .page p _ => some p
  | .jdata p _ _ => some p
  | .logRec p _ _ _ _ => some p
  | .sys p _ _ => some p
  | .hostRead _ _ _ => none
  | .slot _ => none

/-- Class of the band that a drive write goes to: 0 host data, 1 log, 2 fold and reclaim, 3 and up system (R70). -/
def ownerClass (s : State) (o : CmdOwner) : Nat :=
  match o with
  | .unit pi w _ _ => (((poolAt s pi).bind (fun p => (tget p.units w).bind (fun u => tget p.bands u.band))).map (·.cls)).getD 0
  | .logRec _ _ _ _ _ => 1
  | _ => 3

/-- The reclaim unit handle of a write on a drive with Flexible Data Placement: each class its own, the last handle taking the rest (R70). -/
def placementHandle (s : State) (slot : Nat) (op : NvmeOp) (o : CmdOwner) : Option Nat :=
  let n := (((driveAt s slot).ident).map (·.fdpHandles)).getD 0
  if op = .write ∧ 0 < n then some (min (min 3 (ownerClass s o)) (n - 1)) else none

/-- The engine that drives a command: the host command's Command Engine, else one of the four Repair Engines, numbered 24 to 27, by pool
(log entry 49). -/
def engineFor (s : State) (o : CmdOwner) : Nat :=
  let unitCmd (pi w : Nat) : Option Nat := ((poolAt s pi).bind (fun p => tget p.units w)).bind (·.cmd)
  match o with
  | .hostRead k _ _ => Config.engineOf k % 24
  | .unit pi w _ _ => ((unitCmd pi w).map (fun k => Config.engineOf k % 24)).getD (24 + pi % 4)
  | o => 24 + (ownerPool o).getD 0 % 4

/-- The fabric port of an engine: a Command Engine cluster has two, a Repair Engine pair one (Table 6.1). -/
def enginePort (e : Nat) : Nat := if e < 24 then 142 + e / 2 else 154 + (e - 24) / 2

/-- The queue pair of an engine on a drive: its own of 28, or shared in engine-number order where the drive has fewer (R69). -/
def queueFor (d : Drive) (engine : Nat) : Nat := if d.queues = 0 then 0 else engine % d.queues

/-- How an NVMe command is put to a drive (R11, R49, R69). -/
def formOf (d : Drive) (queue : Nat) : NvmeForm :=
  { queue := queue, sgl := (d.ident.map (·.sgl)).getD false, window := d.window, metaSize := d.metaFmt
    metaSeparate := (d.ident.map (·.sepMeta)).getD false }

/-- A command goes out on its queue pair; a Write takes a contiguous range of the port's window (R49). -/
def sendCmd (s : State) (slot : Nat) (c : DrvCmd) : State :=
  let d := driveAt s slot
  let s := setDrive s slot (fun d =>
    { d with cmds := d.cmds ++ [c], window := if c.op = .write then d.window + c.count * 4096 else d.window })
  emit s (.nvme slot c.cid c.op c.lba c.count (placementHandle s slot c.op c.owner) (formOf d c.queue))

/-- Whether a queue pair of a drive has room: it is one entry short of full at its depth less one (R69). -/
def queueRoom (d : Drive) (queue : Nat) : Bool := d.queueDepth == 0 || decide ((d.cmds.filter (fun c => c.queue == queue)).length + 1 < d.queueDepth)

/-- Issue an NVMe command to a drive on its engine's queue pair; with that full it waits. The controller's command identifiers count up. -/
def issueCmd (s : State) (slot : Nat) (op : NvmeOp) (lba count : Nat) (owner : CmdOwner) (tries : Nat) (around : Bool) : State :=
  let d := driveAt s slot
  let q := queueFor d (engineFor s owner)
  let c : DrvCmd := { cid := d.nextCid, op := op, lba := lba, count := count, owner := owner, queue := q, submitAt := nowOf s, tries := tries, around := around }
  let s := setDrive s slot (fun d => { d with nextCid := d.nextCid + 1 })
  if queueRoom d q then sendCmd s slot c else setDrive s slot (fun d => { d with held := d.held ++ [c] })

/-- Held commands of a drive go out as their queue pairs have room. -/
def pumpQueue (s : State) (slot : Nat) : State :=
  (driveAt s slot).held.foldl (fun s c =>
    if queueRoom (driveAt s slot) c.queue then
      sendCmd (setDrive s slot (fun d => { d with held := d.held.filter (fun x => x.cid != c.cid) })) slot { c with submitAt := nowOf s }
    else s) s

/-- Drive commands with an owner are dropped. -/
def dropCmds (s : State) (mine : CmdOwner → Bool) : State :=
  { s with drives := tmap s.drives (fun _ d =>
      { d with cmds := d.cmds.filter (fun c => !(mine c.owner)), held := d.held.filter (fun c => !(mine c.owner))
               unflushed := d.unflushed.filter (fun o => !(mine o.1)), flushing := d.flushing.map (fun l => l.filter (fun o => !(mine o.1))) }) }

/-- Whether I/O may go to a drive. -/
def driveOk (s : State) (slot : Nat) : Bool :=
  let d := driveAt s slot
  d.linkUp && (d.state == .member || d.state == .evacuating)

/-! ## System jobs -/

/-- The copy of a ledger that a drive holds. -/
def ledgerCopy (d : Drive) (copy : Nat) : Option Ledger := if copy = 0 then d.ledger0 else d.ledger1

def setCopy (d : Drive) (copy : Nat) (l : Option Ledger) : Drive := if copy = 0 then { d with ledger0 := l } else { d with ledger1 := l }

/-- First and last of a list of block indices as an LBA and a count. -/
def spanOf (base : Nat) (l : List Nat) : Nat × Nat :=
  match l with
  | [] => (base, 0)
  | i :: _ =>
    let a := l.foldl min i
    (base + a, l.foldl max i + 1 - a)

/-- LBA and blocks of a system write on a drive: of a ledger's body, slot directory or loss area, the blocks that change (R142, R144). -/
def putPlace (d : Drive) (x : SysPut) : Nat × Nat :=
  let cap := (d.ident.map (·.capacity)).getD 0
  match x with
  | .block lba _ => (lba, 1)
  | .data lba _ => (lba, 1)
  | .head l => (ledgerLba cap l.copy, 1)
  | .body l =>
    match ledgerCopy d l.copy with
    | none => (ledgerLba cap l.copy + 1, 79)
    | some o =>
      spanOf (ledgerLba cap l.copy) ((if o.members = l.members then [] else [1]) ++ (if o.dir = l.dir then [] else [2]) ++
        (List.range 64).filterMap (fun i =>
          if (o.vols.filter (fun v => v.vol / 64 == i)) = (l.vols.filter (fun v => v.vol / 64 == i)) then none else some (16 + i)))
  | .slots copy w =>
    let old := ((ledgerCopy d copy).map (·.slots)).getD []
    let diff := ((w.filter (fun e => tget old e.1 != some e.2)).map (·.1)) ++ ((old.filter (fun e => !(thas w e.1))).map (·.1))
    spanOf (ledgerLba cap copy) (diff.map (fun sl => 256 + sl / 512))
  | .losses copy l =>
    let old := ((ledgerCopy d copy).map (·.losses)).getD []
    spanOf (ledgerLba cap copy) ((l.filter (fun x => !(old.contains x))).map (fun x => 4096 + x.seq % 262144 / 64))

/-- A system write reaches the drive. The body of a ledger copy written before its header leaves the copy not valid until the header follows. -/
def landPut (d : Drive) (x : SysPut) : Drive :=
  match x with
  | .block lba b => putSys d lba b
  | .data lba x => putBlk d lba x
  | .body l =>
    let o := ledgerCopy d l.copy
    setCopy d l.copy (some { l with slots := (o.map (·.slots)).getD [], losses := (o.map (·.losses)).getD [], valid := false })
  | .head l =>
    let o := ledgerCopy d l.copy
    setCopy d l.copy (some { l with slots := (o.map (·.slots)).getD [], losses := (o.map (·.losses)).getD [] })
  | .slots c w => setCopy d c ((ledgerCopy d c).map (fun l => { l with slots := w }))
  | .losses c l => setCopy d c ((ledgerCopy d c).map (fun o => { o with losses := l }))

/-- What a completed Write replaced on its drive, block by block, newest first. -/
def cachedBy (c : DrvCmd) (old new : Drive) : List CachedWrite :=
  (if old.ledger0 = new.ledger0 then [] else [{ lba := c.lba, blk := none, sys := none, copy := some (0, old.ledger0) }]) ++
  (if old.ledger1 = new.ledger1 then [] else [{ lba := c.lba, blk := none, sys := none, copy := some (1, old.ledger1) }]) ++
  (List.range c.count).map (fun i => { lba := c.lba + i, blk := tget old.flash (c.lba + i), sys := tget old.sys (c.lba + i) })

/-- A drive without what a Write put there. -/
def undoCached (d : Drive) (x : CachedWrite) : Drive :=
  match x.copy with
  | some (i, l) => setCopy d i l
  | none =>
    { d with flash := (x.blk.map (tput d.flash x.lba)).getD (tdel d.flash x.lba), sys := (x.sys.map (tput d.sys x.lba)).getD (tdel d.sys x.lba) }

/-- A drive's power goes: of the Writes that no Flush has covered it may lose any, but where two are to one place the older only with the newer; which, is
free (R33, R34, log entry 26). -/
def loseCache (s : State) (slot : Nat) : State :=
  if (driveAt s slot).cached.isEmpty then s
  else
    let (n, s) := drawNat s
    setDrive s slot (fun d =>
      { ((d.cached.zipIdx).foldl (fun (r : Drive × List (Nat × Option Nat)) x =>
          let key := (x.1.lba, x.1.copy.map (·.1))
          if r.2.contains key || !(n.testBit x.2) then (r.1, key :: r.2) else (undoCached r.1 x.1, r.2)) (d, [])).1 with cached := [] })

/-- The SEQs in flight or the queue of a ring hold a BAND record of one of these bands: it is not valid yet (R145). -/
def bandRecWaits (r : Ring) (bands : List Nat) : Bool :=
  let names (b : RecBody) : Bool :=
    match b with
    | .band n _ _ _ _ _ => bands.contains n
    | _ => false
  r.queue.any (fun q => names q.body) || r.inflight.any (fun i => ((r.slots.find? (fun e => e.2.seq == i.1)).map (fun e => names e.2.body)).getD false)

/-- The phase of a job at the front goes out: a write to a drive that cannot take it is passed over. -/
def issuePhase (s : State) (pi : Nat) (j : SysJob) (ph : List (Nat × SysPut)) : State :=
  let live := ph.zipIdx.filter (fun x => (driveAt s x.1.1).linkUp && (driveAt s x.1.1).ident.isSome && (driveAt s x.1.1).state != .failed)
  let s := setPool s pi (fun p => { p with jobs := p.jobs.map (fun y => if y.id = j.id then { y with issued := true, todo := live.map (·.2) } else y) })
  live.foldl (fun s x =>
    let (lba, n) := putPlace (driveAt s x.1.1) x.1.2
    issueCmd s x.1.1 .write lba n (.sys pi j.id x.2) 0 false) s

/-- Losses whose records and tables are on flash are reported: management event 4, and the event to the hosts (R136, R146). -/
def reportLosses (s : State) (pi : Nat) : State :=
  match poolAt s pi with
  | none => s
  | some p =>
    let ready (x : Nat × Nat × Nat) : Bool := !(p.jobs.any (fun j => decide (j.id < x.1)))
    let s := setPool s pi (fun p => { p with lossReports := p.lossReports.filter (fun x => !(ready x)) })
    (p.lossReports.filter ready).foldl (fun s x => postVol (mgmt s 4 pi x.2.1) x.2.2 3 x.2.2) s

/-- A job goes on: with its phase on flash it takes the next, or ends; its first begins once its BAND records are valid. -/
def pumpJob (s : State) (pi : Nat) (j : SysJob) : State :=
  match j.phases with
  | [] => reportLosses (setPool s pi (fun p => { p with jobs := p.jobs.filter (fun y => y.id != j.id) })) pi
  | ph :: more =>
    if !j.issued then (if bandRecWaits ((((poolAt s pi).map (fun p => ringAt s p.ring))).getD {}) j.bands then s else issuePhase s pi j ph)
    else if j.todo.isEmpty then
      setPool s pi (fun p => { p with jobs := p.jobs.map (fun y => if y.id = j.id then { j with phases := more, issued := false } else y) })
    else s

/-- The jobs of a pool go on: the first, and those that wait for no other. -/
def pumpJobs (s : State) (pi : Nat) : State :=
  let n := ((poolAt s pi).map (fun p => (p.jobs.map (fun j => 2 * j.phases.length + 1)).sum)).getD 0
  (List.range n).foldl (fun s _ =>
    match poolAt s pi with
    | none => s
    | some p => (p.jobs.filter (·.free) ++ (p.jobs.filter (fun j => !j.free)).take 1).foldl (fun s j => pumpJob s pi j) s) s

/-- A job joins the pool's list; a job without a write is done at once. -/
def addJobs (s : State) (pi : Nat) (free : Bool) (bands entries : List Nat) (phases : List (List (Nat × SysPut))) : State :=
  let phases := phases.filter (fun ph => !ph.isEmpty)
  if phases.isEmpty then s
  else
    pumpJobs (setPool s pi (fun p =>
      { p with nextJob := p.nextJob + 1, jobs := p.jobs ++ [{ id := p.nextJob, bands := bands, entries := entries, free := free, phases := phases }] })) pi

/-- A job that waits for those before it joins the pool's list. -/
def addJob (s : State) (pi : Nat) (bands entries : List Nat) (phases : List (List (Nat × SysPut))) : State := addJobs s pi false bands entries phases

/-- Whether a job of a pool is done. -/
def jobDone (p : Pool) (id : Nat) : Bool := !(p.jobs.any (fun j => j.id == id))

/-- Whether a band's Band Table entry stands on flash, so that its stripes may be written (R16, R145). -/
def entryOnFlash (p : Pool) (band : Nat) : Bool := !(p.jobs.any (fun j => j.entries.contains band))

/-- The write of a system job that a command carries. -/
def putOf (s : State) (pi job item : Nat) : Option SysPut :=
  ((poolAt s pi).bind (fun p => p.jobs.find? (fun j => j.id == job))).bind (fun j => ((j.phases.head?).bind (fun ph => ph[item]?)).map (·.2))

/-- A write of a job is on flash, or is given up. -/
def putDone (s : State) (pi job item : Nat) : State :=
  pumpJobs (setPool s pi (fun p =>
    { p with jobs := p.jobs.map (fun j => if j.id = job then { j with todo := j.todo.filter (· != item) } else j) })) pi

end Sys2Proof.Machine
end

