-- ==== Sys2Proof/Machine/MapOps.lean ====
section
/-! DEFINITION. Shared operations over extent maps (R152 to R157, R163), the Bad Block Table and loss records (R133 to R138, R146), live
counts (R71), the Pool Ledger and the tables on flash (R141 to R145), pool states (R137) and policies (Table 10.7). -/

namespace Sys2Proof.Machine

/-! ## Policies (Table 10.7) -/

/-- Default of a policy. -/
def polDefault (id : Nat) : Nat :=
  match id with
  | 0x01 => 32
  | 0x02 => 192
  | 0x03 => 64
  | 0x04 => 16
  | 0x05 => 1
  | 0x06 => 10
  | 0x10 => 1
  | 0x11 => 8
  | 0x12 => 12
  | 0x13 => 32
  | 0x14 => 100
  | 0x15 => 10000
  | 0x16 => 5
  | 0x20 => 70
  | 0x21 => 20
  | 0x22 => 5
  | 0x23 => 14
  | 0x30 => 64
  | 0x31 => 4
  | 0x32 => 3
  | 0x33 => 95
  | 0x40 => 0
  | 0x50 => 0
  | _ => 0

def polOf (p : Pool) (id : Nat) : Nat := (tget p.policies id).getD (polDefault id)

def shelfPol (s : State) (id : Nat) : Nat :=
  match id with
  | 0x41 => (tget s.ctl.policies 0x41).getD (fld s .qpCcCfg 55 48)
  | 0x42 => (tget s.ctl.policies 0x42).getD (fld s .qpCcCfg 15 0)
  | _ => (tget s.ctl.policies id).getD (polDefault id)

/-! ## Tables and ledgers on flash -/

/-- A Band Table entry as flash holds it (Table 4.14): what only DRAM keeps is left out. -/
def bandEntry (b : Band) : Band :=
  { b with next := 0, abandoned := [], live := 0, rebuilt := [], unknownRebuild := [], movesSeq := 0, scrubNext := 0 }

/-- A volume entry (Table 4.15). -/
def volEntry (id : Nat) (v : Volume) : VolEntry :=
  { vol := id, kind := v.kind, encrypted := v.encrypted, passThrough := v.passThrough, keyGen := v.keyGen, prevKeyGen := v.prevKeyGen, capacity := v.capacity
    listBand := v.listBand, listOff := v.listOff, listPages := v.listPages, keyCheck := v.keyCheck, nguid := v.nguid, created := v.created, gens := v.gens }

/-- The volume table of a pool. -/
def volTable (s : State) (pi : Nat) : List VolEntry := (s.volumes.filter (fun e => e.2.pool == pi)).map (fun e => volEntry e.1 e.2)

/-- The slot directory of a member: a word for each slot that a band, or an evacuation's substitute, holds (R144). -/
def slotDirectory (bands : Tab Band) (i : Nat) : Tab SlotWord :=
  bands.foldl (fun t e =>
    if e.2.state = .free then t
    else
      let t := e.2.members.zipIdx.foldl (fun t m =>
        if m.1.1 = i then tput t m.1.2 { band := e.1, gen := e.2.gen, pos := m.2, cls := e.2.cls } else t) t
      match e.2.evac with
      | some (pos, m, sl) => if m = i then tput t sl { band := e.1, gen := e.2.gen, pos := pos, cls := e.2.cls } else t
      | none => t) []

/-- Pages of 252 entries of the Bad Block Table (R146). -/
def bbtPages (t : List BadBlock) : List (List BadBlock) := (List.range ((t.length + 251) / 252)).map (fun i => (t.drop (252 * i)).take 252)

/-- The ledger a pool writes, at its current generation (Tables 4.10 to 4.12). -/
def ledgerOf (s : State) (pi : Nat) (p : Pool) : Ledger :=
  { fmt := 4, formatOldest := p.formatOldest, state := p.state, poolId := p.id, gen := p.gen, seed := p.seed, controller := Config.uidLo
    layout := p.layout, k := p.k, stripShift := p.stripShift, spare := p.spare, balance := p.balance, logReserve := p.logReserve
    epoch := p.epoch, hbxBand := p.copy.band, bbtBand := p.bbtBand.getD 0xFFFFFFFF, bbtPages := (bbtPages p.bbt).length, lossHead := p.lossHead
    lossAcked := p.lossAcked, created := p.created, updated := nowOf s, members := p.members.map (fun e => (e.1, { e.2 with driveSlot := none, used := [] }))
    dirSeq := p.dirSeq, dir := p.tableBands.filterMap (fun n => (tget p.bands n).map (fun b => (n, bandEntry b))), vols := volTable s pi }

/-- The drive slots of a pool's active and evacuating members. -/
def presentDrives (p : Pool) : List (Nat × Nat) := p.present.filterMap (fun e => e.2.driveSlot.map (fun d => (e.1, d)))

/-- A ledger goes to the copies of every active and evacuating member: body blocks, then the header, of copy 1; then the same of copy 0 (R142). Copy 0 of an
imported format-3 pool stays until the first write (R149). -/
def putLedger (s : State) (pi : Nat) (p : Pool) (l : Ledger) : State :=
  let ds := (presentDrives p).map (·.2)
  let write (c : Nat) : List (List (Nat × SysPut)) := [ds.map (fun d => (d, .body { l with copy := c })), ds.map (fun d => (d, .head { l with copy := c }))]
  addJob s pi [] [] (write 1 ++ (if p.g2Copy0 then [] else write 0))

/-- The Pool Ledger is updated: LEDGER_GEN rises by one (R142). -/
def writeLedger (s : State) (pi : Nat) : State :=
  let s := setPool s pi (fun p => { p with gen := p.gen + 1, volsTabled := volTable s pi })
  match poolAt s pi with
  | none => s
  | some p => putLedger s pi p (ledgerOf s pi p)

/-- The first write to an imported format-3 pool: copy 0 of its ledgers is written in format 4 (R149). -/
def firstWrite (s : State) (pi : Nat) : State :=
  if ((poolAt s pi).map (·.g2Copy0)).getD false then writeLedger (setPool s pi (fun p => { p with g2Copy0 := false })) pi else s

/-- The drives and slots of a band's positions that are there, in order of position. -/
def bandDrives (p : Pool) (b : Band) : List (Nat × Nat) :=
  b.members.filterMap (fun m => ((tget p.members m.1).bind (fun x => if x.state == .active || x.state == .evacuating then x.driveSlot else none)).map (fun d => (d, m.2)))

/-- The writes of a system page to the copies of a band at a block: copy 0, and once it has completed the others (R145). -/
def pagePhases (p : Pool) (band idx : Nat) (body : SysBody) : List (List (Nat × SysPut)) :=
  let puts := ((tget p.bands band).map (fun b => bandDrives p b)).getD [] |>.map (fun m => (m.1, SysPut.block (slotLba m.2 + idx) { body := body, ref := sysRef band idx }))
  [puts.take 1, puts.drop 1]

/-- The Band Table pages whose entries have changed are written again, each with a PAGE_SEQ one higher, and the slot directories of the members concerned: a
page once the BAND records of its changed entries are valid (R143 to R145). -/
def writeBandPages (s : State) (pi : Nat) : State :=
  match poolAt s pi with
  | none => s
  | some p =>
    let now_ := tmap p.bands (fun _ b => bandEntry b)
    let changed := (now_.filter (fun e => tget p.tabled e.1 != some e.2)).map (·.1)
    if changed.isEmpty then s
    else
      let pages := (changed.map (· / 21)).eraseDups
      let s := setPool s pi (fun p => { p with tabled := now_ })
      let s := pages.foldl (fun s pg =>
        let seq := (tget p.pageSeqs pg).getD 0 + 1
        let entries := now_.filter (fun e => e.1 / 21 == pg)
        let mine := changed.filter (fun n => n / 21 == pg)
        let band := (p.tableBands[pg / 262144]?).getD 0xFFFFFFFF
        let s := setPool s pi (fun p => { p with pageSeqs := tput p.pageSeqs pg seq })
        addJob s pi mine mine (pagePhases p band (pg % 262144)
          (.bandPage { count := entries.length, index := pg, seq := seq, poolId := p.id } entries))) s
      let words := (presentDrives p).filterMap (fun m =>
        let w := slotDirectory now_ m.1
        if slotDirectory p.tabled m.1 = w then none else some (m.2, w))
      addJob s pi [] [] [words.map (fun x => (x.1, .slots 1 x.2)), if p.g2Copy0 then [] else words.map (fun x => (x.1, .slots 0 x.2))]

/-- The Bad Block Table pages that have changed are written to BBT_BAND; the ledger is to name the band and the count of pages (R146). -/
def writeBbtPages (s : State) (pi : Nat) : State :=
  match poolAt s pi with
  | none => s
  | some p =>
    let pages := bbtPages p.bbt
    if pages = p.bbtTabled then s
    else
      match p.bbtBand with
      | none => s
      | some band =>
        let s := setPool s pi (fun p => { p with bbtTabled := pages, bbtSeq := p.bbtSeq + 1 })
        let s := pages.zipIdx.foldl (fun s x =>
          if p.bbtTabled[x.2]? = some x.1 then s
          else addJob s pi [] [] (pagePhases p band x.2 (.badPage { count := x.1.length, index := x.2, seq := p.bbtSeq + 1, poolId := p.id } x.1))) s
        if pages.length = p.bbtTabled.length then s else writeLedger s pi

/-- A Band Table band more where the pages of the pool's bands need one; the system band directory names it (R144). -/
def growTables (s : State) (pi : Nat) : State :=
  match poolAt s pi with
  | none => s
  | some p =>
    if p.bands.foldl (fun m e => max m e.1) 0 / 21 / 262144 < p.tableBands.length then s
    else
      match allocBand s pi 5 [] with
      | some (n, s) => setPool s pi (fun p => { p with tableBands := p.tableBands ++ [n], dirSeq := p.dirSeq + 1 })
      | none => s

/-- The Bad Block Table's first page needs its band (R146). -/
def openBbt (s : State) (pi : Nat) : State :=
  match poolAt s pi with
  | some p =>
    if p.bbt.isEmpty || p.bbtBand.isSome then s
    else
      match allocBand s pi 6 [] with
      | some (n, s) => setPool s pi (fun p => { p with bbtBand := some n })
      | none => s
  | none => s

/-- The tables on flash are brought in line with DRAM: Band Table pages and slot directories, Bad Block Table, system band directory and volume table (R143 to
R146). -/
def writeTables (s : State) (pi : Nat) : State :=
  let dir := ((poolAt s pi).map (·.dirSeq)).getD 0
  let s := writeBbtPages (writeBandPages (growTables (openBbt s pi) pi) pi) pi
  match poolAt s pi with
  | some p => if p.volsTabled = volTable s pi ∧ p.dirSeq = dir then s else writeLedger s pi
  | none => s

/-! ## Bands -/

/-- Bands filled by blocks in data order rather than by whole stripes: mirror, log and plain-stripe bands (R67, R153). -/
def runBand (b : Band) : Bool := b.k == 1 || b.w == b.k

/-- Data blocks of a band. -/
def bandBlocks (b : Band) : Nat := b.k * 262144

/-- Written stripes of a band (R127). -/
def writtenStripes (b : Band) : List Nat :=
  if 3 ≤ b.cls then List.range (stripesPerBand b.stripShift)
  else if runBand b then
    let per := b.k * stripBlocks b.stripShift
    (List.range ((b.next + per - 1) / per)).filter (fun t => !(b.abandoned.contains t))
  else (List.range b.next).filter (fun t => !(b.abandoned.contains t))

/-- Whether a member position's drive is part of the pool. -/
def posPresent (p : Pool) (b : Band) (pos : Nat) : Bool :=
  match b.members[pos]? with
  | some (m, _) => ((tget p.members m).map (fun x => x.state == .active || x.state == .evacuating)).getD false
  | none => false

/-- Positions a band lacks: members gone, and substitutes not fully rebuilt (R125, R127). -/
def lacking (p : Pool) (b : Band) : List Nat :=
  (List.range b.w).filter (fun j => !(posPresent p b j) || b.repairMask.contains j)

/-- Positions a stripe lacks. -/
def stripeLacks (p : Pool) (b : Band) (stripe : Nat) : List Nat :=
  (List.range b.w).filter (fun j => !(posPresent p b j) || (b.repairMask.contains j && !(b.rebuilt.contains (j, stripe))))

/-- Failures a band tolerates. -/
def bandTol (b : Band) : Nat := if b.k == 1 then b.w - 1 else if b.w == b.k + 2 then 2 else 0

/-- Written stripes that lack a position; with `noneLeft` only those with no redundancy left (R127, Table 15.5). -/
def lackingStripes (p : Pool) (noneLeft : Bool) : Nat :=
  ((p.bands.filter (fun e => e.2.state != .free && !(lacking p e.2).isEmpty)).map (fun e =>
    ((writtenStripes e.2).filter (fun t =>
      let n := (stripeLacks p e.2 t).length
      decide (0 < n) && (!noneLeft || decide (bandTol e.2 ≤ n)))).length)).sum

/-- The pool state that Table 4.8 gives. -/
def poolStateOf (p : Pool) : Nat :=
  if p.lossAcked < p.lossHead then 3
  else if 0 < lackingStripes p true then 2
  else if p.bands.any (fun e => e.2.state != .free && !(lacking p e.2).isEmpty) then 1
  else 0

/-- REPAIR_PER_MILLE's base: the stripes that lacked a position when the current repair began, 0 with nothing missing (Table 15.5). -/
def repairBase (p : Pool) : Nat :=
  let n := lackingStripes p false
  if n = 0 then 0 else if p.repairTotal = 0 then n else p.repairTotal

/-- The pool's state is recomputed; a change is recorded in the ledger, in a management event and to the hosts (R137, R239, R286). -/
def refreshPool (s : State) (pi : Nat) : State :=
  match poolAt s pi with
  | none => s
  | some p =>
    let st := poolStateOf p
    let s := setPool s pi (fun p => { p with repairTotal := repairBase p })
    if st = p.state then s
    else postPool (mgmt (writeLedger (setPool s pi (fun p => { p with state := st })) pi) 2 pi st) pi

/-- Live blocks of a band change; a band that holds none any more notes the SEQ below which the records that emptied it lie (R61). -/
def addLive (s : State) (pi band n : Nat) : State :=
  setPool s pi (fun p => { p with bands := tmod p.bands band (fun b => { b with live := b.live + n }) })
def subLive (s : State) (pi band n : Nat) : State :=
  setPool s pi (fun p =>
    let r := ringAt s p.ring
    { p with bands := tmod p.bands band (fun b =>
        { b with live := b.live - n, movesSeq := if b.live ≤ n then r.head + r.queue.length else b.movesSeq }) })

/-! ## Extents -/

def extEnd (e : Extent) : Nat := e.start + e.len

/-- The part of an extent that lies in [a, b); none where it has none. -/
def extWithin (e : Extent) (a b : Nat) : Option Extent :=
  let lo := max e.start a
  let hi := min (extEnd e) b
  if lo < hi then
    some { e with start := lo, len := hi - lo, off := if e.kind = .mapped then e.off + (lo - e.start) else e.off }
  else none

/-- The parts of an extent outside [a, b). -/
def extOutside (e : Extent) (a b : Nat) : List Extent :=
  (match extWithin e 0 a with
   | some x => [x]
   | none => []) ++
  (match extWithin e (max a b) (extEnd e) with
   | some x => [x]
   | none => [])

/-- Whether two neighbouring extents merge (R156). -/
def extJoins (x y : Extent) : Bool :=
  x.kind == y.kind && x.keyGen == y.keyGen && x.band == y.band && decide (extEnd x = y.start) && decide (x.len + y.len ≤ 4096)
    && (x.kind != .mapped || decide (x.off + x.len = y.off))

/-- Merge neighbours of a sorted list. -/
def extMerge : List Extent → List Extent
  | [] => []
  | x :: r =>
    match extMerge r with
    | [] => [x]
    | y :: t => if extJoins x y then { x with len := x.len + y.len } :: t else x :: y :: t

/-- A leaf with the blocks [a, b) of its range set to a new extent, or uncovered. -/
def leafSet (l : Leaf) (a b : Nat) (new : Option Extent) : Leaf :=
  let kept := (l.extents.map (fun e => extOutside e a b)).flatten
  let add := match new.bind (fun e => extWithin e l.low l.high) with
    | some e => [e]
    | none => []
  { l with extents := extMerge (sortBy (fun x y => decide (x.start ≤ y.start)) (add ++ kept)), dirty := true, resident := true }

/-- A leaf of more than 252 entries splits at its midpoint (R154). -/
def leafSplit (l : Leaf) : List Leaf :=
  if l.extents.length ≤ 252 then [l]
  else
    let n := l.extents.length / 2
    let mid := ((l.extents[n]?).map (·.start)).getD l.high
    [{ l with high := mid, extents := l.extents.take n }, { l with low := mid, extents := l.extents.drop n, place := none }]

/-- Keys of a tree's root: every volume block number (R151). -/
def keyTop : Nat := 2 ^ 41

/-- A volume's leaves; an empty map is one empty leaf. -/
def leavesOf (v : Volume) : List Leaf := if v.leaves.isEmpty then [{ low := 0, high := keyTop }] else v.leaves

/-- The key ranges of the nodes of a level: leaves at level 0. -/
def nodesAt (leaves : List Leaf) (inner : List Inner) (level : Nat) : List (Nat × Nat) :=
  if level = 0 then leaves.map (fun l => (l.low, l.high)) else (inner.filter (fun n => n.level == level)).map (fun n => (n.low, n.high))

/-- The children of an interior node: the nodes one level down in its range. -/
def childrenOf (leaves : List Leaf) (inner : List Inner) (n : Inner) : List (Nat × Nat) :=
  (nodesAt leaves inner (n.level - 1)).filter (fun c => decide (n.low ≤ c.1 ∧ c.2 ≤ n.high))

/-- An interior node of more than 252 children splits at its midpoint (R154). -/
def innerSplit (leaves : List Leaf) (inner : List Inner) (n : Inner) : List Inner :=
  let cs := childrenOf leaves inner n
  if cs.length ≤ 252 then [n]
  else
    let mid := ((cs[cs.length / 2]?).map (·.1)).getD n.high
    [{ n with high := mid, dirty := true }, { n with low := mid, dirty := true, place := none }]

/-- The interior nodes above leaves that have split: a level of several nodes has one above it, and a node that its children no longer fit splits (R154). -/
def growInner (leaves : List Leaf) (inner : List Inner) : List Inner :=
  (List.range 7).foldl (fun inner l =>
    let level := l + 1
    let inner :=
      if (nodesAt leaves inner l).length ≤ 1 || inner.any (fun n => n.level == level) then inner
      else inner ++ [{ level := level, low := 0, high := keyTop }]
    (inner.map (fun n => if n.level = level then innerSplit leaves inner n else [n])).flatten) inner

/-- Interior nodes one of whose children is new. -/
def markParents (old new : List Leaf) (inner : List Inner) : List Inner :=
  inner.map (fun n =>
    if n.level = 1 && childrenOf new inner n != childrenOf old inner n then { n with dirty := true } else n)

/-- What a record leaves in a leaf (Table 5.4): nothing where it is of another kind. -/
def leafApply (l : Leaf) (body : RecBody) (extent : RecBody → Option (Nat × Nat × Option Extent)) : Leaf :=
  match body with
  | .mapDelta _ _ true _ _ _ _ _ _ kg count block nb no ob oo =>
    let hits := (l.extents.filterMap (fun e => extWithin e block (block + count))).filter (fun e =>
      e.kind == .mapped && e.band == ob && decide (e.off + block = oo + e.start))
    hits.foldl (fun l e => leafSet l e.start (extEnd e)
      (some { start := e.start, len := e.len, kind := .mapped, band := nb, off := no + (e.start - block), keyGen := kg })) l
  | b =>
    match extent b with
    | some (a, n, e) => if l.low < a + n ∧ a < l.high then leafSet l a (a + n) e else l
    | none => l

/-- The extents of blocks [a, b). -/
def extentsIn (v : Volume) (a b : Nat) : List Extent :=
  ((v.leaves.filter (fun l => decide (l.low < b ∧ a < l.high))).map (fun l => l.extents.filterMap (fun e => extWithin e a b))).flatten

/-- The extent of a block. -/
def extentAt (v : Volume) (block : Nat) : Option Extent := (extentsIn v block (block + 1)).head?

/-- Map frames in use: resident leaves and every interior node (R161). -/
def framesUsed (s : State) : Nat :=
  (s.volumes.map (fun e => (e.2.leaves.filter (·.resident)).length + e.2.inner.length)).sum

/-- The leaf that holds a block counts as used now (R161). -/
def touchLeaf (s : State) (vol block : Nat) : State :=
  setVol s vol (fun v => { v with leaves := v.leaves.map (fun l => if l.low ≤ block ∧ block < l.high then { l with lastUse := nowOf s } else l) })

/-- A pool's new records wait for a map frame, or no longer do (R162). -/
def setAreaStall (s : State) (pi : Nat) (on : Bool) : State :=
  let was := ((poolAt s pi).map (·.areaStall)).getD false
  let s := if on && !was then setBit s .mapEvent 0 else s
  setPool s pi (fun p => { p with areaStall := on })

/-- Frames of the map area (R161). -/
def mapFrames (s : State) : Nat := fld s .mapAreaSize 10 0 * 2 ^ 18

/-- Evict clean leaves, least recently used first and never the one `keep` names, until the map area holds the nodes with `extra` more; with none left the
pool that needs the frames stalls (R161, R162). -/
def fitMap (s : State) (pi extra : Nat) (keep : Option (Nat × Nat)) : State :=
  let ovr := framesUsed s + extra - mapFrames s
  if mapFrames s = 0 ∨ ovr = 0 then { s with pools := tmap s.pools (fun _ p => { p with areaStall := false }) }
  else
    let clean := (s.volumes.map (fun e =>
      (e.2.leaves.filter (fun l => l.resident && !l.dirty && keep != some (e.1, l.low))).map (fun l => (l.lastUse, e.1, l.low)))).flatten
    let out := (sortBy (fun (a b : Nat × Nat × Nat) => decide (a.1 ≤ b.1)) clean).take ovr
    let s := forAll out (fun s x =>
      setVol s x.2.1 (fun v => { v with leaves := v.leaves.map (fun l => if l.low = x.2.2 then { l with resident := false } else l) })) s
    setAreaStall s pi (decide (out.length < ovr))

/-- Blocks [start, start + count) of a mapped volume take a new state, with the live counts of the bands concerned (R156). -/
def mapSet (s : State) (pi vol start count : Nat) (new : Option Extent) : State :=
  match volAt s vol with
  | none => s
  | some v =>
    let old := extentsIn v start (start + count)
    let s := forAll old (fun s e => if e.kind = .mapped then subLive s pi e.band e.len else s) s
    let s := match new with
      | some e => if e.kind = .mapped then addLive s pi e.band count else s
      | none => s
    let e' := new.map (fun e => { e with start := start, len := count })
    let s := setVol s vol (fun v =>
      let leaves := ((leavesOf v).map (fun l =>
        if l.low < start + count ∧ start < l.high then leafSplit { leafSet l start (start + count) e' with lastUse := nowOf s } else [l])).flatten
      { v with leaves := leaves, inner := growInner leaves (markParents (leavesOf v) leaves v.inner), dirtySince := some (v.dirtySince.getD (nowOf s)) })
    fitMap s pi 0 none

/-- The conditional form: only where the block is MAPPED at the old location (Table 5.4). -/
def mapSetIf (s : State) (pi vol start count band off keyGen oldBand oldOff : Nat) : State :=
  match volAt s vol with
  | none => s
  | some v =>
    forAll ((extentsIn v start (start + count)).filter (fun e =>
        e.kind == .mapped && e.band == oldBand && decide (e.off + start = oldOff + e.start)))
      (fun s e => mapSet s pi vol e.start e.len
        (some { start := e.start, len := e.len, kind := .mapped, band := band, off := off + (e.start - start), keyGen := keyGen })) s

/-- The fold watermark after windows of R58 end: the one under way, with what was counted in it, and `more` empty ones after it. -/
def nextWatermark (p : Pool) (more : Nat) : Nat :=
  let clamp (w : Nat) : Nat := min (max w (polOf p 0x01)) (polOf p 0x02)
  let half := decide (p.logReserveSlots < 2 * p.logHeld)
  let up := decide (p.logWinTotal < 10 * p.logWinSuperseded)
  let down := decide (50 * p.logWinSuperseded < p.logWinTotal) || p.logHalf || half
  let w := clamp ((if up then p.watermark + 8 else p.watermark) - (if down then 8 else 0))
  if half && 0 < more then clamp (w - 8 * more) else w

/-- A 100 ms window of a pool's logging is over once shelf time has reached its end (R10, R58, log entry 56). -/
def rollFold (s : State) (pi : Nat) : State :=
  match poolAt s pi with
  | none => s
  | some p =>
    if nowOf s < p.foldStart + 100000000 then s
    else setPool s pi (fun p =>
      { p with watermark := nextWatermark p ((nowOf s - p.foldStart) / 100000000 - 1), logWinTotal := 0, logWinSuperseded := 0, winBlocks := []
               logHalf := decide (p.logReserveSlots < 2 * p.logHeld), foldStart := nowOf s / 100000000 * 100000000 })

/-- Mitten copies and pending-block entries of blocks that a newer write covers are superseded (R56, R394); blocks logged in the window count as superseded
before folding (R58). -/
def supersede (s : State) (pi vol start count wseq : Nat) : State :=
  let s := rollFold s pi
  match poolAt s pi with
  | none => s
  | some p =>
    let hit (b : Nat) : Bool := decide (start ≤ b ∧ b < start + count)
    let older (v b w : Nat) : Bool := v == vol && hit b && decide (w < wseq)
    let gone := p.winBlocks.filter (fun x => older x.1 x.2.1 x.2.2)
    let s := setPool s pi (fun p =>
      { p with mitten := p.mitten.filter (fun m => !(older m.vol m.block m.wseq)), winBlocks := p.winBlocks.filter (fun x => !(older x.1 x.2.1 x.2.2))
               logWinSuperseded := p.logWinSuperseded + gone.length })
    let pend := ((volAt s vol).map (·.pending)).getD []
    let s := forAll (pend.filter (fun x => hit x.block && decide (x.wseq < wseq) && !x.zeroes)) (fun s x => subLive s pi x.band 1) s
    setVol s vol (fun v => { v with pending := v.pending.filter (fun x => !(hit x.block && decide (x.wseq < wseq))) })

/-- Apply a record to the volume's map or pending-block index (R156, Table 5.4); before its root is loaded a mapped volume's records go to the
overlay (R163). -/
def applyBody (s : State) (pi : Nat) (body : RecBody) : State :=
  match body with
  | .mapDelta zeroes dealloc conditional _ _ poison torn _ vol keyGen count block newBand newOff oldBand oldOff =>
    match volAt s vol with
    | none => s
    | some v =>
      if !v.rootLoaded then setVol s vol (fun v => { v with overlay := v.overlay ++ [body] })
      else
        let s := countBy s 0x580 1
        let plain (k : ExtKind) : Option Extent := some { start := block, len := count, kind := k }
        if poison then mapSet s pi vol block count (plain (if torn then .torn else .lost))
        else if zeroes then mapSet s pi vol block count (plain .zeroes)
        else if dealloc then mapSet s pi vol block count none
        else if conditional then mapSetIf s pi vol block count newBand newOff keyGen oldBand oldOff
        else mapSet s pi vol block count
          (some { start := block, len := count, kind := .mapped, band := newBand, off := newOff, keyGen := keyGen })
  | .logEntry direct zeroes wseq vol keyGen count block band hdr dataOff _ =>
    match volAt s vol with
    | none => s
    | some v =>
      if direct then
        let s := countBy s 0x580 1
        let s := supersede s pi vol block count wseq
        let s := if zeroes then s else addLive s pi band count
        setVol s vol (fun v =>
          { v with pending := v.pending ++ (List.range count).map (fun j =>
              { block := block + j, wseq := wseq, band := band, off := hdr + dataOff + j, keyGen := keyGen, zeroes := zeroes }) })
      else if !v.rootLoaded then setVol s vol (fun v => { v with overlay := v.overlay ++ [body] })
      else
        let s := countBy s 0x580 1
        if zeroes then mapSet s pi vol block count (some { start := block, len := count, kind := .zeroes })
        else mapSet s pi vol block count
          (some { start := block, len := count, kind := .mapped, band := band, off := hdr + dataOff, keyGen := keyGen })
  | _ => s

/-- The run of blocks a record sets unconditionally, and what it leaves there (Table 5.4). -/
def bodyExtent (body : RecBody) : Option (Nat × Nat × Option Extent) :=
  match body with
  | .mapDelta zeroes dealloc conditional _ _ poison torn _ _ keyGen count block newBand newOff _ _ =>
    let plain (k : ExtKind) : Option Extent := some { start := block, len := count, kind := k }
    if poison then some (block, count, plain (if torn then .torn else .lost))
    else if zeroes then some (block, count, plain .zeroes)
    else if dealloc then some (block, count, none)
    else if conditional then none
    else some (block, count, some { start := block, len := count, kind := .mapped, band := newBand, off := newOff, keyGen := keyGen })
  | .logEntry false zeroes _ _ keyGen count block band hdr dataOff _ =>
    if zeroes then some (block, count, some { start := block, len := count, kind := .zeroes })
    else some (block, count, some { start := block, len := count, kind := .mapped, band := band, off := hdr + dataOff, keyGen := keyGen })
  | _ => none

/-! ## Bad blocks and losses -/

/-- The Bad Block Table's word on a direct volume's block: none, or whether it is torn. -/
def bbtAt (p : Pool) (vol block : Nat) : Option Bool :=
  (p.bbt.find? (fun b => b.vol == vol && decide (b.first ≤ block ∧ block < b.first + b.count))).map (·.torn)

/-- The table with a range cleared, or marked lost or torn, in order of volume and block (R146). -/
def bbtSet (t : List BadBlock) (vol start count : Nat) (mark : Option Bool) : List BadBlock :=
  let cut (b : BadBlock) : List BadBlock :=
    if b.vol = vol then
      let l := min (b.first + b.count) start - b.first
      let r := b.first + b.count - max b.first (start + count)
      (if 0 < l then [{ b with count := l }] else []) ++
        (if 0 < r then [{ b with first := b.first + b.count - r, count := r }] else [])
    else [b]
  let kept := (t.map cut).flatten
  let add := match mark with
    | some torn => if count = 0 then [] else [{ vol := vol, torn := torn, count := count, first := start : BadBlock }]
    | none => []
  sortBy (fun a b => decide (a.vol < b.vol ∨ a.vol = b.vol ∧ a.first ≤ b.first)) (add ++ kept)

/-- A host write removes the poison of a direct volume's blocks (R138). -/
def clearBad (s : State) (pi vol start count : Nat) : State :=
  match poolAt s pi with
  | none => s
  | some p =>
    if p.bbt.any (fun b => b.vol == vol && decide (b.first < start + count ∧ start < b.first + b.count)) then
      writeTables (setPool s pi (fun p => { p with bbt := bbtSet p.bbt vol start count none })) pi
    else s

/-- The loss area of a pool goes to every member's ledger copies, and the ledger with its new LOSS_HEAD (R136, R141). -/
def writeLosses (s : State) (pi : Nat) : State :=
  match poolAt s pi with
  | none => s
  | some p =>
    let ds := (presentDrives p).map (·.2)
    let s := addJob s pi [] [] [ds.map (fun d => (d, .losses 1 p.losses)), if p.g2Copy0 then [] else ds.map (fun d => (d, .losses 0 p.losses))]
    writeLedger s pi

/-- A run of lost or torn blocks is recorded (R136): one loss record a run, so what goes on from the newest record at the same place in the same instant makes
that one longer; with 262,144 unacknowledged the area overflows and only the poison stays. The tables and the record are given to the drives before the run is
reported; the report goes out when they are there. -/
def addLoss (s : State) (pi : Nat) (l : Loss) : State :=
  match poolAt s pi with
  | none => s
  | some p =>
    let s := writeTables s pi
    let goesOn (x : Loss) : Bool :=
      x.vol == l.vol && x.torn == l.torn && x.cause == l.cause && x.band == l.band && x.stripe == l.stripe && x.position == l.position &&
        decide (x.first + x.count = l.first) && x.time == nowOf s && decide (p.lossAcked ≤ x.seq)
    match p.losses.getLast?.bind (fun x => if goesOn x then some x else none) with
    | some x => writeLosses (setPool s pi (fun p => { p with losses := p.losses.dropLast ++ [{ x with count := x.count + l.count }] })) pi
    | none =>
      if 262144 ≤ p.lossHead - p.lossAcked then refreshPool (setPool s pi (fun p => { p with lossOverflow := true })) pi
      else
        let s := setPool s pi (fun p =>
          { p with losses := (p.losses ++ [{ l with seq := p.lossHead, time := nowOf s }]).drop (p.losses.length + 1 - 262144)
                   lossHead := p.lossHead + 1 })
        let s := writeLosses s pi
        let s := setPool s pi (fun p => { p with lossReports := p.lossReports ++ [(p.nextJob, p.lossHead - 1, l.vol)] })
        refreshPool (reportLosses s pi) pi

/-- A record is offered to the Hatbox port (R81). -/
def sendRec (s : State) (pi : Nat) (body : RecBody) : State :=
  match poolAt s pi with
  | none => s
  | some p => setRing s p.ring (fun r => { r with queue := r.queue ++ [{ body := body }] })

/-- Pieces of at most `sz` blocks of a run. -/
def chunks (sz start count : Nat) : List (Nat × Nat) :=
  if sz = 0 then []
  else (List.range ((count + sz - 1) / sz)).map (fun i => (start + i * sz, min sz (count - i * sz)))

/-- Blocks are poisoned as lost or torn (R133, R134, R156): a mapped volume by POISON map deltas of at most 4,096 blocks, a direct one in the Bad
Block Table; then the loss record. -/
def poisonBlocks (s : State) (pi vol start count : Nat) (torn : Bool) (cause band stripe pos : Nat) : State :=
  match poolAt s pi, volAt s vol with
  | some p, some v =>
    let member := ((tget p.bands band).bind (fun b => b.members[pos]?)).map (·.1)
    let s :=
      if v.kind = .mapped then
        forAll (chunks 4096 start count) (fun s c =>
          let w := ((poolAt s pi).map (·.wseq)).getD 0
          let body : RecBody := .mapDelta false false false false false true torn w vol 0 c.2 c.1 0xFFFFFFFF 0 0 0
          applyBody (sendRec (setPool s pi (fun p => { p with wseq := w + 1 })) pi body) pi body) s
      else setPool s pi (fun p => { p with bbt := bbtSet p.bbt vol start count (some torn) })
    addLoss s pi { seq := 0, time := 0, vol := vol, torn := torn, cause := cause, count := count, first := start, band := band
                   stripe := stripe, position := pos, member := member.getD 0xFF }
  | _, _ => s

/-- LOSS_SEQ of the newest loss record that names a block. -/
def lossRefOf (p : Pool) (vol block : Nat) : Nat :=
  ((p.losses.reverse.find? (fun l => l.vol == vol && decide (l.first ≤ block ∧ block < l.first + l.count))).map (·.seq)).getD 0

end Sys2Proof.Machine
end

