-- ==== Sys2Proof/Machine/Stripe.lean ====
section
/-! DEFINITION. Blocks: tags (R39, R40, R114, R148), the steps at the network edge (R38, R41), flash contents of bands, the check of a block
(R113), reconstruction and acceptance (R115), and media events (R116). -/

namespace Sys2Proof.Machine

/-! ## Tags -/

/-- REF of a volume block, in format 4 or format 3 (Tables 2.2, 4.16). -/
def volRef (fmt vol block : Nat) : BitVec 48 :=
  if fmt = 3 then BitVec.ofNat 48 (vol % 1024 * 2 ^ 38 + block % 2 ^ 38) else BitVec.ofNat 48 (vol % 4096 * 2 ^ 36 + block % 2 ^ 36)

/-- Whether a tag fits stored bytes and the fields expected (R113). -/
def tagOk (b : Blk) (ref : BitVec 48) (gen fmt : Nat) : Bool :=
  b.tag.crc == crc64 b.data && b.tag.ref == ref && b.tag.gen == BitVec.ofNat 16 gen && b.tag.fmt == fmt

/-- Whether a band's blocks may be of format 4, of format 3 (R150). -/
def mayFmt4 (b : Band) : Bool := b.fmt == 4 || b.state == .converting
def mayFmt3 (b : Band) : Bool := b.fmt == 3

/-- A volume block passes its check in a band (R113, R148, R150). -/
def volOk (b : Band) (vol block : Nat) (x : Blk) : Bool :=
  (mayFmt4 b && tagOk x (volRef 4 vol block) b.gen 4) || (mayFmt3 b && tagOk x (volRef 3 vol block) b.g2gen 3)

/-- A parity block passes its check (R114, Table 4.16). -/
def parityOk (b : Band) (band idx : Nat) (x : Blk) : Bool :=
  (mayFmt4 b && tagOk x (sysRef band idx) b.gen 4) || (mayFmt3 b && tagOk x 0 b.g2gen 3)

/-- A data block read as an input of a plan passes its check. The device holds no map from a place to its volume block in a mapped volume's
band, so a volume block's REF is not compared there (log entry 13); a padding block is a system block at its own place; journaled data in a Hatbox band carries the tag of its target. -/
def inputOk (band : Nat) (b : Band) (idx : Nat) (x : Blk) : Bool :=
  x.tag.crc == crc64 x.data &&
    ((mayFmt4 b && x.tag.fmt == 4 && (x.tag.gen == BitVec.ofNat 16 b.gen || (x.tag.gen == 0xFFFF && x.tag.ref == sysRef band idx) || b.cls == 4)) ||
     (mayFmt3 b && x.tag.fmt == 3 && x.tag.gen == BitVec.ofNat 16 b.g2gen))

/-! ## The network edge (R38, R41) -/

def keyOf (s : State) (vol gen : Nat) : Option Bytes := (s.ctl.keys.find? (fun k => k.vol == vol && k.gen == gen)).map (·.key)

/-- The current key of a volume is loaded: what its writes need (R42). -/
def writeKeyOk (s : State) (vol : Nat) (v : Volume) : Bool := !v.encrypted || (v.keyGen != 0 && (keyOf s vol v.keyGen).isSome)

/-- Whether the keys that a volume's data may need are loaded: the current one, and while a rotation runs the previous one (R42). -/
def keysLoaded (s : State) (vol : Nat) (v : Volume) : Bool :=
  writeKeyOk s vol v && (!v.encrypted || (v.rotation.isNone && !v.rotating) || v.prevKeyGen == 0 || (keyOf s vol v.prevKeyGen).isSome)

/-- Stored bytes of plaintext under a key generation: plaintext itself where the volume is not encrypted; none where the key is not loaded. No data is
stored under generation 0 in an encrypted volume. -/
def encryptBlock (s : State) (v : Volume) (vol gen block : Nat) (plain : Bytes) : Option Bytes :=
  if v.encrypted then (keyOf s vol gen).map (fun k => xtsEncrypt k block plain) else some plain

/-- Plaintext of stored bytes under the key generation recorded for them; generation 0 is plaintext (R391); none where the key is not loaded. -/
def decryptBlock (s : State) (v : Volume) (vol gen block : Nat) (stored : Bytes) : Option Bytes :=
  if v.encrypted && gen != 0 then (keyOf s vol gen).map (fun k => xtsDecrypt k block stored) else some stored

/-- Stored bytes under one generation as they are stored under another: themselves where it is the same, else decrypted and encrypted anew (R42). -/
def rekeyBytes (s : State) (v : Volume) (vol from_ gen block : Nat) (stored : Bytes) : Option Bytes :=
  if from_ = gen || !v.encrypted then some stored
  else (decryptBlock s v vol from_ block stored).bind (encryptBlock s v vol gen block)

/-- One block at the network edge: guard check over the plaintext, encryption, tag (R38). The band's generation is put in when it is
placed. -/
def edgeBlock (s : State) (vol gen block : Nat) (plain : Bytes) (guard : Option (BitVec 64)) : EdgeBlk :=
  match volAt s vol with
  | none => { blk := mkBlk plain (volRef 4 vol block) 0, guardOk := true }
  | some v =>
    let ok := match guard with
      | some g => !v.passThrough || g == crc64 plain
      | none => true
    match encryptBlock s v vol gen block plain with
    | some y => { blk := mkBlk y (volRef 4 vol block) 0, guardOk := ok }
    | none => { blk := mkBlk [] (volRef 4 vol block) 0, guardOk := ok, keyOk := false }

/-- A block at the edge under one key generation as it is under another (R42). -/
def rekeyEdge (s : State) (vol from_ gen block : Nat) (e : EdgeBlk) : EdgeBlk :=
  match volAt s vol with
  | none => e
  | some v =>
    if from_ = gen || !v.encrypted then e
    else
      match (if e.keyOk then rekeyBytes s v vol from_ gen block e.blk.data else none) with
      | some y => { e with blk := mkBlk y (volRef 4 vol block) 0 }
      | none => { e with blk := mkBlk [] (volRef 4 vol block) 0, keyOk := false }

/-- An edge block placed in a band of a generation. -/
def placed (e : EdgeBlk) (gen : Nat) : Blk := { e.blk with tag := { e.blk.tag with gen := BitVec.ofNat 16 gen } }

/-- The generation that the rotation pointer gives a place of a direct volume: current below the pointer, previous from it on (R42). -/
def pointerGen (v : Volume) (listIdx stripe row : Nat) : Nat :=
  match v.rotation with
  | some r =>
    if listIdx < r.list ∨ (listIdx = r.list ∧ (stripe < r.stripe ∨ (stripe = r.stripe ∧ row < r.row))) then v.keyGen else v.prevKeyGen
  | none => v.keyGen

/-- Key generation recorded for a block of a direct volume (R117): what a write or a creation fill left there, else what the pointer gives
(log entry 48). -/
def directKeyGen (v : Volume) (block listIdx stripe row : Nat) : Nat :=
  match v.gens.find? (fun g => decide (g.1 ≤ block ∧ block < g.2.1)) with
  | some g => g.2.2
  | none => pointerGen v listIdx stripe row

/-- Runs of generations with the blocks [a, b) under a new one. -/
def gensSet (l : List (Nat × Nat × Nat)) (a b gen : Nat) : List (Nat × Nat × Nat) :=
  let cut (g : Nat × Nat × Nat) : List (Nat × Nat × Nat) :=
    (if g.1 < min g.2.1 a then [(g.1, min g.2.1 a, g.2.2)] else []) ++ (if max g.1 b < g.2.1 then [(max g.1 b, g.2.1, g.2.2)] else [])
  let l := sortBy (fun x y => decide (x.1 ≤ y.1)) ((if a < b then [(a, b, gen)] else []) ++ (l.map cut).flatten)
  (l.foldl (fun (acc : List (Nat × Nat × Nat)) g =>
    match acc with
    | h :: r => if h.2.1 = g.1 ∧ h.2.2 = g.2.2 then (h.1, g.2.1, h.2.2) :: r else g :: acc
    | [] => [g]) []).reverse

/-- The blocks that a direct volume's unit leaves on flash are under a key generation, and the volume table takes that (R42, R117). -/
def noteGen (s : State) (vol block count gen : Nat) : State :=
  match volAt s vol with
  | some v =>
    if v.encrypted && v.kind == .direct && (v.rotation.isSome || !v.gens.isEmpty) then
      writeTables (setVol s vol (fun v => { v with gens := gensSet v.gens block (block + count) gen })) v.pool
    else s
  | none => s

/-! ## Flash contents -/

/-- The drive slot and member slot of a position. -/
def posDrive (p : Pool) (b : Band) (pos : Nat) : Option (Nat × Nat) :=
  match b.members[pos]? with
  | some (m, sl) => ((tget p.members m).bind (·.driveSlot)).map (fun d => (d, sl))
  | none => none

/-- The direct volume whose block a band, stripe, data position and row hold, and that block: by the formula of R27. -/
def directOwner (s : State) (pi band : Nat) : Option (Nat × Nat) :=
  (s.volumes.filter (fun e => e.2.pool == pi && e.2.kind == .direct)).findSome? (fun e =>
    ((e.2.bandList.zipIdx).find? (fun x => x.1 == band)).map (fun x => (e.1, x.2)))

def directBlock (b : Band) (listIdx stripe pos row : Nat) : Nat := listIdx * bandBlocks b + dataOff b.k b.stripShift stripe pos row

/-- What a position may hold of a stripe: it is present, and rebuilt or not known to lack the stripe (R125). -/
def posMayHold (p : Pool) (b : Band) (stripe pos : Nat) : Bool :=
  posPresent p b pos && (!(b.repairMask.contains pos) || b.rebuilt.contains (pos, stripe) || b.unknownRebuild.contains pos)

/-- What reading one block of a band at a position gives: nothing where the position is missing, not rebuilt, its drive cannot be
reached, or the drive returns a media status (`bad`); else the stored block. -/
def readPos (s : State) (_ : Nat) (p : Pool) (_ : Nat) (b : Band) (stripe pos row : Nat) (bad : List (Nat × Nat)) : Option Blk :=
  if !(posMayHold p b stripe pos) then none
  else
    match posDrive p b pos with
    | none => none
    | some (d, sl) =>
      let lba := rowLba b.stripShift sl stripe row
      let x := driveAt s d
      if !x.linkUp || x.state == .failed || bad.contains (d, lba) then none else lbaBlk x lba

/-- The drives and slots that a write to a position goes to: the position's own, and an evacuation's substitute (R130). -/
def posTargets (p : Pool) (b : Band) (pos : Nat) : List (Nat × Nat) :=
  (match posDrive p b pos with
   | some x => if posPresent p b pos then [x] else []
   | none => []) ++
  (match b.evac with
   | some (ep, m, sl) => if ep = pos then (((tget p.members m).bind (·.driveSlot)).map (fun d => (d, sl))).toList else []
   | none => [])

/-- Write one block to a position of a band: the drive of the position, and of an evacuation's substitute, hold it (R130). -/
def writePos (s : State) (pi band stripe pos row : Nat) (x : Blk) : State :=
  match poolAt s pi, bandAt s pi band with
  | some p, some b => forAll (posTargets p b pos) (fun s m => setDrive s m.1 (fun y => putBlk y (rowLba b.stripShift m.2 stripe row) x)) s
  | _, _ => s

/-- Whether a band's blocks are written with format-3 tags: an MBP-G2 band that no conversion has begun on (R149, R150). -/
def writesFmt3 (b : Band) : Bool := b.fmt == 3 && b.state != .converting

/-- A write or a repair that touches a format-3 band first sets its STATE to CONVERTING (R150 step 1). -/
def touchBand (s : State) (pi band : Nat) : State :=
  let s := firstWrite s pi
  match bandAt s pi band with
  | some b => if writesFmt3 b then writeTables (setBand s pi band (fun b => { b with state := .converting, convertCursor := 0 })) pi else s
  | none => s

/-- A repair's write to a position of a band. -/
def mendPos (s : State) (pi band stripe pos row : Nat) (x : Blk) : State := writePos (touchBand s pi band) pi band stripe pos row x

/-- LAST_CAUSE of a block that failed its check against the REFs it may carry (none known: REF is not compared): 1 CRC, 2 REF, 3 GENERATION
(R113, Table 15.5). -/
def tagCause (x : Blk) (refs : List (BitVec 48)) : Nat :=
  if x.tag.crc != crc64 x.data then 1 else if !refs.isEmpty && !(refs.contains x.tag.ref) then 2 else 3

/-- A media event: drive, LBA and cause in the drive's health report, and its error count (R116). -/
def mediaEvent (s : State) (slot lba cause : Nat) : State :=
  let s := count s (0x700 + slot)
  setDrive s slot (fun d =>
    { d with mediaCount := d.mediaCount + 1, lastMedia := some (lba, nowOf s, cause)
             mediaTimes := (nowOf s :: d.mediaTimes).filter (fun t => decide (nowOf s < t + 90000000000000)) })

/-! ## Drive latency (R118, R47) -/

/-- Bytes outstanding at a drive. -/
def driveQueued (d : Drive) : Nat := (d.cmds.map (fun c => c.count * 4096)).sum

/-- Predicted latency of a command of b bytes, in ns: m + (Q + b) / R, at least a + m where the oldest outstanding command has an age a
above p99 (R118). The rate is in bytes per µs; a drive with no rate measured yet adds nothing for it. DESIGN CHOICE: R118 gives no p99 for a window without
completions; it is 0 then, and no age counts as above it (log entry 50). -/
def predict (s : State) (slot : Nat) (write : Bool) (bytes : Nat) : Rat :=
  let d := driveAt s slot
  let l := if write then d.wr else d.rd
  let base : Rat := l.mean + (if l.rate = 0 then 0 else ((driveQueued d + bytes : Nat) : Rat) * 1000 / l.rate)
  match (d.cmds.map (·.submitAt)).foldl (fun (m : Option Nat) t => some (min (m.getD t) t)) none with
  | some t =>
    let a := nowOf s - t
    if l.p99 < a ∧ l.p99 ≠ 0 then (if base < l.mean + (a : Rat) then l.mean + (a : Rat) else base) else base
  | none => base

def ratMax (l : List Rat) : Rat := l.foldl (fun m x => if m < x then x else m) 0

/-- Predicted completion time of a band: the largest over its members of modelled latency plus queued bytes over the write rate (R47). -/
def bandPredict (s : State) (p : Pool) (b : Band) : Rat :=
  ratMax ((List.range b.w).filterMap (fun j => (posDrive p b j).map (fun x => predict s x.1 true 0)))

/-- The index of the least value, the first at or after a round-robin pointer among equals. -/
def steer (vals : List (Nat × Rat)) (rr : Nat) : Option Nat :=
  match vals with
  | [] => none
  | _ =>
    let n := vals.length
    let rot := (vals.drop (rr % n)) ++ vals.take (rr % n)
    (rot.foldl (fun (m : Option (Nat × Rat)) x =>
      match m with
      | some y => if x.2 < y.2 then some x else some y
      | none => some x) none).map (·.1)

/-! ## Reconstruction (R115) -/

/-- A data block of a band passes its check as what the device knows to lie there: its volume block in a direct volume's band, any volume or padding block
elsewhere (R113). -/
def dataOk (s : State) (pi band : Nat) (b : Band) (stripe pos row : Nat) (x : Blk) : Bool :=
  match directOwner s pi band with
  | some (v, i) => volOk b v (directBlock b i stripe (if b.mirror then 0 else pos) row) x
  | none => inputOk band b (stripe * stripBlocks b.stripShift + row) x

/-- A block of a position passes its check (R113, R114). -/
def rowOk (s : State) (pi band : Nat) (b : Band) (stripe pos row : Nat) (x : Blk) : Bool :=
  if b.parity && b.k ≤ pos then parityOk b band (stripe * stripBlocks b.stripShift + row) x else dataOk s pi band b stripe pos row x

/-- The inputs of a row that passed their own check: position and bytes. -/
def rowInputs (s : State) (pi : Nat) (p : Pool) (band : Nat) (b : Band) (stripe row : Nat) (bad : List (Nat × Nat)) : List (Nat × Bytes) :=
  (List.range b.w).filterMap (fun j =>
    (readPos s pi p band b stripe j row bad).bind (fun x => if rowOk s pi band b stripe j row x then some (j, x.data) else none))

/-- The results of the plans for a data position of a parity band, in the order P, Q, P and Q. -/
def parityPlans (k : Nat) (ins : List (Nat × Bytes)) (pos : Nat) : List Bytes :=
  let data := ins.filter (fun e => e.1 < k && e.1 != pos)
  let p := ins.filter (fun e => e.1 == k)
  let q := ins.filter (fun e => e.1 == k + 1)
  let solve (l : List (Nat × Bytes)) : Option Bytes := ((gfSolve k 4096 l [pos]).bind (·.head?)).map (·.2)
  let full := decide (data.length + 1 = k)
  let pp := if full && !p.isEmpty then solve (data ++ p) else none
  let qq := if full && !q.isEmpty then solve (data ++ q) else none
  let pq := if !full && !p.isEmpty && !q.isEmpty then solve (data ++ p ++ q) else none
  [pp, qq, pq].filterMap id

/-- Whether an accepted result may stand (R115): its CRC equals the stored CRC where the stored tag carries the expected REF and
GENERATION; or two plans agree; or a single plan suffices because that tag is not there. `strict` asks for two agreeing plans (R97). -/
def acceptPlan (b : Band) (ref : Nat → BitVec 48) (stored : Option Blk) (results : List Bytes) (strict : Bool) : Option Bytes :=
  let tagged := stored.bind (fun x =>
    if (x.tag.ref == ref 4 && x.tag.gen == BitVec.ofNat 16 b.gen) || (mayFmt3 b && x.tag.ref == ref 3 && x.tag.gen == BitVec.ofNat 16 b.g2gen) then some x.tag.crc
    else none)
  let agree := results.find? (fun r => decide (2 ≤ (results.filter (fun t => t == r)).length))
  if strict then agree
  else
    match tagged with
    | some crc =>
      match results.find? (fun r => crc64 r == crc) with
      | some r => some r
      | none => agree
    | none => results.head?

/-- The copies of a mirror band in the order that they are tried: ascending position, and in a log band the lowest predicted latency first (R63, R115). -/
def copyOrder (s : State) (p : Pool) (b : Band) : List Nat :=
  let js := List.range b.w
  if b.cls = 1 then
    sortBy (fun x y => decide (((posDrive p b x).map (fun d => predict s d.1 false 4096)).getD 0 ≤ ((posDrive p b y).map (fun d => predict s d.1 false 4096)).getD 0)) js
  else js

/-- The bytes of a data block of a stripe: read and checked, or reconstructed. Answers the bytes, and whether they were reconstructed. -/
def fetchData (s : State) (pi : Nat) (p : Pool) (band : Nat) (b : Band) (stripe pos row vol block : Nat) (bad : List (Nat × Nat))
    (strict : Bool) : Option (Bytes × Bool) :=
  if b.mirror then
    -- each copy in ascending position; of a log band, by predicted latency (R63)
    let copies := (copyOrder s p b).filterMap (fun j => (readPos s pi p band b stripe j row bad).map (fun x => (j, x)))
    match copies.find? (fun c => volOk b vol block c.2) with
    | some (j, x) => some (x.data, j != 0)
    | none => none
  else
    let st := readPos s pi p band b stripe pos row bad
    match st with
    | some x =>
      if volOk b vol block x then some (x.data, false)
      else if !b.parity then none
      else (acceptPlan b (fun f => volRef f vol block) st (parityPlans b.k (rowInputs s pi p band b stripe row bad) pos) strict).map (fun r => (r, true))
    | none =>
      if !b.parity then none
      else (acceptPlan b (fun f => volRef f vol block) none (parityPlans b.k (rowInputs s pi p band b stripe row bad) pos) strict).map (fun r => (r, true))

/-- The stored bytes of a data position of a row whatever volume block lies there: checked as a plan's input, or solved from the row. -/
def fetchRow (s : State) (pi : Nat) (p : Pool) (band : Nat) (b : Band) (stripe pos row : Nat) (bad : List (Nat × Nat)) : Option Bytes :=
  let ins := rowInputs s pi p band b stripe row bad
  match ins.find? (fun e => e.1 == pos) with
  | some e => some e.2
  | none =>
    if b.mirror then ins.head?.map (·.2)
    else if !b.parity then none
    else
      match directOwner s pi band with
      | some (v, i) =>
        let st := readPos s pi p band b stripe pos row bad
        acceptPlan b (fun f => volRef f v (directBlock b i stripe pos row)) st (parityPlans b.k ins pos) false
      | none =>
        let rs := parityPlans b.k ins pos
        match readPos s pi p band b stripe pos row bad with
        | some x => (rs.find? (fun r => crc64 r == x.tag.crc)).or (rs.find? (fun r => decide (2 ≤ (rs.filter (fun t => t == r)).length)))
        | none => rs.head?

/-- P and Q blocks of a row of data (R19, R114). -/
def parityBlks (band : Nat) (b : Band) (stripe row : Nat) (data : List (Nat × Bytes)) : List (Nat × Blk) :=
  let idx := stripe * stripBlocks b.stripShift + row
  [(b.k, mkBlk (parityP 4096 (data.map (·.2))) (sysRef band idx) b.gen),
   (b.k + 1, mkBlk (parityQ 4096 data) (sysRef band idx) b.gen)]

end Sys2Proof.Machine
end

