-- ==== Sys2Proof/Machine/ReadOps.lean ====
section
/-! DEFINITION. Shared operations of reads: lookup of a block (R109), mending of blocks that failed their check (R116), plans and read-around (R115, R119 to
R121), results as they come in, and the end of a read (R117, R235, R244). -/

namespace Sys2Proof.Machine

def unitAt (s : State) (pi w : Nat) : Option Unit := (poolAt s pi).bind (fun p => tget p.units w)

def setUnit (s : State) (pi w : Nat) (f : Unit → Unit) : State := setPool s pi (fun p => { p with units := tmod p.units w f })

/-- Whether a unit covers a block of a volume. -/
def covers (u : Unit) (vol block : Nat) : Bool := u.vol == vol && decide (u.start ≤ block ∧ block < u.start + u.count)

/-- A unit of the device's own: folding, reclaim, relocation, rotation. -/
def Unit.background (u : Unit) : Bool := u.fold || u.rotation || !u.moves.isEmpty

/-- Whether a unit writes its blocks in place of a direct volume's (Table 2.3). -/
def inPlace (p : WPath) : Bool := p == .fullInPlace || p == .rmw || p == .mirrorInPlace || p == .plainInPlace

/-- Index in a unit's data of a volume block that it holds; of a unit that writes rows of its stripe, only in those rows. -/
def dataIdx (b : Option Band) (u : Unit) (block : Nat) : Option Nat :=
  match u.rows, b with
  | none, _ => some (block - u.start)
  | some (r0, n), some b =>
    let (_, pos, row) := dataPlace b.k b.stripShift (u.off + (block - u.start))
    if r0 ≤ row ∧ row < r0 + n then some (pos * n + (row - r0)) else none
  | some _, none => none

/-- The block that a unit holds for a volume block, once it has arrived. -/
def heldBlk (s : State) (pi : Nat) (u : Unit) (block : Nat) : Option EdgeBlk :=
  ((dataIdx (bandAt s pi u.band) u block).bind (fun i => u.data[i]?)).bind id

/-- The unit of the in-flight write table that a read with a snapshot takes a block from: the highest WRITE_SEQ below it. A DEALLOC
unit of a direct volume is passed over (R109), and so are the device's own units, which change no block's plaintext. -/
def inflightFor (p : Pool) (direct : Bool) (vol block snap : Nat) : Option (Nat × Unit) :=
  (p.units.filter (fun e => covers e.2 vol block && decide (e.1 < snap) && !(direct && e.2.dealloc) && e.2.stage != .failed && !e.2.applied
    && !e.2.background)).getLast?

/-- The rotation unit that is putting a block of a direct volume under its new key: a read takes the block from it, since its place is being rewritten. -/
def rotationFor (s : State) (pi : Nat) (p : Pool) (vol block : Nat) : Option Nat :=
  (p.units.find? (fun e => e.2.rotation && !e.2.applied && e.2.stage != .failed && covers e.2 vol block &&
    (dataIdx (bandAt s pi e.2.band) e.2 block).isSome)).map (·.1)

/-- Where a block of a read comes from (R109). -/
def lookupBlock (s : State) (pi vol block snap : Nat) : RdSrc :=
  match poolAt s pi, volAt s vol with
  | some p, some v =>
    match inflightFor p (v.kind == .direct) vol block snap with
    | some (w, u) => if u.zero || u.dealloc then .zeros else .inflight w
    | none =>
      match v.kind with
      | .mapped =>
        match (v.leaves.find? (fun l => decide (l.low ≤ block ∧ block < l.high))).bind (fun l => if l.resident then none else some l.low) with
        | some low => .page low
        | none =>
        match extentAt v block with
        | none => .zeros
        | some e =>
          match e.kind with
          | .mapped => .flash e.band (e.off + (block - e.start)) e.keyGen
          | .zeroes => .zeros
          | .lost => .lost
          | .torn => .torn
      | .direct =>
        match bbtAt p vol block with
        | some torn => if torn then .torn else .lost
        | none =>
          match (v.pending.filter (fun x => x.block == block)).getLast? with
          | some x => if x.zeroes then .zeros else .flash x.band x.off x.keyGen
          | none =>
            match rotationFor s pi p vol block with
            | some w => .inflight w
            | none =>
              let (li, stripe, pos, row) := directPlace p.k p.stripShift block
              match v.bandList[li]? with
              | some b => .flash b (dataOff p.k p.stripShift stripe pos row) (directKeyGen v block li stripe row)
              | none => .zeros
  | _, _ => .zeros

/-- The Mitten's copy of a block at a log location (R56, R109). -/
def mittenAt (p : Pool) (vol block : Nat) (logBand : Bool) : Option Blk :=
  if logBand then ((p.mitten.filter (fun m => m.vol == vol && m.block == block)).getLast?).map (·.blk) else none

/-! ## What a place holds, and repairs of single blocks (R116, R134) -/

/-- The volume block that a data-order place holds: by R27's formula in a direct volume's band, else by an exact scan of the extent
maps (R134). -/
def placeOwner (s : State) (pi band : Nat) (b : Band) (stripe pos row : Nat) : Option (Nat × Nat) :=
  match directOwner s pi band with
  | some (v, i) => some (v, directBlock b i stripe (if b.mirror then 0 else pos) row)
  | none =>
    let d := dataOff b.k b.stripShift stripe (if b.mirror then 0 else pos) row
    (s.volumes.filter (fun e => e.2.pool == pi)).findSome? (fun e =>
      ((e.2.leaves.map (·.extents)).flatten.findSome? (fun x =>
        if x.kind = .mapped ∧ x.band = band ∧ x.off ≤ d ∧ d < x.off + x.len then some (e.1, x.start + (d - x.off)) else none)).or
      ((e.2.pending.find? (fun x => x.band == band && x.off == d && !x.zeroes)).map (fun x => (e.1, x.block))))

/-- Key generation of a mapped block. -/
def keyGenOf (s : State) (vol block : Nat) : Nat := (((volAt s vol).bind (fun v => extentAt v block)).map (·.keyGen)).getD 0

/-- Rebuild one position of a row: what it should hold, or none when its data is lost. -/
def rebuildBlk (s : State) (pi : Nat) (p : Pool) (band : Nat) (b : Band) (stripe pos row : Nat) (bad : List (Nat × Nat)) : Option Blk :=
  let idx := stripe * stripBlocks b.stripShift + row
  let owner := placeOwner s pi band b stripe pos row
  if b.mirror then
    -- a passing copy
    let copies := ((List.range b.w).filter (· != pos)).filterMap (fun j => readPos s pi p band b stripe j row bad)
    match owner with
    | some (v, n) => (copies.find? (fun y => volOk b v n y)).map (fun y => mkBlk y.data (volRef 4 v n) b.gen)
    | none => copies.find? (fun y => inputOk band b idx y)
  else if b.parity && b.k ≤ pos then
    let ds : List (Option (Nat × Bytes)) := (List.range b.k).map (fun i => (fetchRow s pi p band b stripe i row bad).map (fun y => (i, y)))
    if ds.any (·.isNone) then none
    else ((parityBlks band b stripe row (ds.filterMap id)).find? (fun e => e.1 == pos)).map (·.2)
  else
    match owner with
    | some (v, n) => (fetchData s pi p band b stripe pos row v n bad false).map (fun y => mkBlk y.1 (volRef 4 v n) b.gen)
    | none =>
      (fetchRow s pi p band b stripe pos row bad).map (fun y => sysBlk y band idx)

/-- The stripe lock is held by a unit in progress. -/
def lockHeld (s : State) (pi band stripe : Nat) : Bool :=
  ((poolAt s pi).map (fun p => p.locks.any (fun l => l.1 == band && l.2.1 == stripe))).getD false

/-- A block that waits for its repair still fails its check: a write of its stripe may have replaced it meanwhile. -/
def stillBad (s : State) (pi : Nat) (p : Pool) (m : Mend) : Bool :=
  match tget p.bands m.band with
  | none => false
  | some b =>
    match readPos s pi p m.band b m.stripe m.pos m.row [], placeOwner s pi m.band b m.stripe m.pos m.row with
    | none, _ => true
    | some x, some (v, n) => if b.parity && b.k ≤ m.pos then !(rowOk s pi m.band b m.stripe m.pos m.row x) else !(volOk b v n x)
    | some x, none => !(rowOk s pi m.band b m.stripe m.pos m.row x)

/-- Repairs in place whose stripe lock is free are written (R66, R116). -/
def pumpMends (s : State) (pi : Nat) : State :=
  match poolAt s pi with
  | none => s
  | some p =>
    let free (m : Mend) : Bool := !(lockHeld s pi m.band m.stripe)
    let s := setPool s pi (fun p => { p with mends := p.mends.filter (fun m => !(free m)) })
    forAll (p.mends.filter free) (fun s m => if stillBad s pi p m then mendPos s pi m.band m.stripe m.pos m.row m.blk else s) s

/-- A block is to be written at its own place under the stripe lock. Reads that find the same bad block at the same time share one repair (R116). -/
def queueMend (s : State) (pi : Nat) (m : Mend) : State :=
  pumpMends (setPool s pi (fun p =>
    if p.mends.any (fun x => x.band == m.band && x.stripe == m.stripe && x.pos == m.pos && x.row == m.row) then p else { p with mends := p.mends ++ [m] })) pi

/-- What R116 does with a volume block that reconstruction has overcome at a position: a log copy and a direct volume's block are rewritten in place; a block
of a mapped volume waits for a fresh place. -/
def mendBlock (s : State) (pi vol block band stripe pos row keyGen : Nat) (data : Bytes) : State :=
  match bandAt s pi band, volAt s vol with
  | some b, some v =>
    let off := dataOff b.k b.stripShift stripe (if b.mirror then 0 else pos) row
    if b.cls = 1 ∨ v.kind = .direct then
      queueMend s pi { band := band, stripe := stripe, pos := pos, row := row, blk := mkBlk data (volRef 4 vol block) b.gen }
    else
      setPool s pi (fun p =>
        if p.relocs.any (fun r => r.vol == vol && r.block == block && r.band == band && r.off == off) ||
            p.units.any (fun u => u.2.moves.any (fun m => m.vol == vol && m.block == block && m.band == band && m.off == off)) then p
        else { p with relocs := p.relocs ++ [{ vol := vol, block := block, band := band, off := off, keyGen := keyGen, data := data }] })
  | _, _ => s

/-- R115 and R116 for a position of a row whose block failed its check: reconstructed and written back, or moved; `none` where no plan gives it. -/
def mendCell (s : State) (pi band stripe pos row : Nat) (bad : List (Nat × Nat)) : Option State :=
  match poolAt s pi, bandAt s pi band with
  | some p, some b =>
    match rebuildBlk s pi p band b stripe pos row bad, placeOwner s pi band b stripe pos row with
    | some y, some (v, n) =>
      if b.parity && b.k ≤ pos then some (queueMend s pi { band := band, stripe := stripe, pos := pos, row := row, blk := y })
      else some (mendBlock s pi v n band stripe pos row (keyGenOf s v n) y.data)
    | some y, none => some (queueMend s pi { band := band, stripe := stripe, pos := pos, row := row, blk := y })
    | none, _ => none
  | _, _ => some s

/-- Something was written to a row of a band: some position holds a block. -/
def rowHeld (s : State) (p : Pool) (b : Band) (stripe row : Nat) : Bool :=
  (List.range b.w).any (fun j => ((posDrive p b j).bind (fun x => lbaBlk (driveAt s x.1) (rowLba b.stripShift x.2 stripe row))).isSome)

/-- Every drive at a present position of a band can be reached: one whose link is only down has lost nothing. -/
def bandReach (s : State) (p : Pool) (b : Band) : Bool :=
  (List.range b.w).all (fun j => !(posPresent p b j) || ((posDrive p b j).map (fun x => driveOk s x.1)).getD true)

/-- Positions of a row that are there and whose block fails its check: with the drive, the LBA and the cause of the media event (R113, R116). -/
def badCells (s : State) (pi : Nat) (p : Pool) (band : Nat) (b : Band) (stripe row : Nat) (bad : List (Nat × Nat)) : List (Nat × Nat × Nat × Nat) :=
  (List.range b.w).filterMap (fun j =>
    match posDrive p b j with
    | none => none
    | some (d, sl) =>
      let lba := rowLba b.stripShift sl stripe row
      let own := placeOwner s pi band b stripe j row
      if (stripeLacks p b stripe).contains j || !(driveOk s d) then none
      else if bad.contains (d, lba) then some (j, d, lba, 4)
      else
        match lbaBlk (driveAt s d) lba with
        | none => if own.isSome || ((b.mirror || b.parity) && rowHeld s p b stripe row) then some (j, d, lba, 4) else none
        | some x =>
          let ok := if b.parity && b.k ≤ j then rowOk s pi band b stripe j row x
            else match own with
              | some (v, n) => volOk b v n x
              | none => rowOk s pi band b stripe j row x
          let refs := if b.parity && b.k ≤ j then [sysRef band (stripe * stripBlocks b.stripShift + row), 0]
            else match own with
              | some (v, n) => [volRef 4 v n, volRef 3 v n]
              | none => []
          if ok then none else some (j, d, lba, tagCause x refs))

/-- Blocks of a row that the device read and that failed their check: each is a media event, and is mended where a plan gives it (R116). -/
def mendRow (s : State) (pi band stripe row : Nat) (read : Nat → Bool) (bad : List (Nat × Nat)) : State :=
  match poolAt s pi, bandAt s pi band with
  | some p, some b =>
    forAll ((badCells s pi p band b stripe row bad).filter (fun c => read c.1)) (fun s c =>
      let s := mediaEvent s c.2.1 c.2.2.1 c.2.2.2
      (mendCell s pi band stripe c.1 row bad).getD s) s
  | _, _ => s

/-- Read a data block for folding, repair or evacuation: its bytes; and what failed its check on the way is counted and mended (R113, R115, R116). -/
def readMend (s : State) (pi band stripe pos row vol block : Nat) (bad : List (Nat × Nat)) : State × Option Bytes :=
  match poolAt s pi, bandAt s pi band with
  | some p, some b =>
    match fetchData s pi p band b stripe pos row vol block bad false with
    | some (y, false) => (s, some y)
    | some (y, true) => (mendRow s pi band stripe row (fun j => b.mirror || b.parity || j == pos) bad, some y)
    | none => (mendRow s pi band stripe row (fun _ => true) bad, none)
  | _, _ => (s, none)

/-! ## Ends of reads -/

/-- Runs of bad blocks of a finished read, with their causes and loss records (R244, R248). -/
def badRunsOf (p : Option Pool) (vol : Nat) (rs : List RdBlk) : List BadRun :=
  rs.foldl (fun (acc : List BadRun) r =>
    match r.bad with
    | none => acc
    | some kind =>
      let cause := if kind = 1 then 5 else if kind = 2 then 6 else 2
      let run : BadRun := { first := r.block, count := 1, cause := cause, lossRef := if kind = 3 then 0 else (p.map (fun p => lossRefOf p vol r.block)).getD 0 }
      match acc.getLast? with
      | some l => if l.first + l.count = r.block && l.cause = cause then acc.dropLast ++ [{ l with count := l.count + 1 }] else acc ++ [run]
      | none => acc ++ [run]) []

/-- The loss record of a bad block has yet to reach flash, and its run is not reported before (R136). -/
def lossWaits (p : Pool) (vol block : Nat) : Bool :=
  p.lossReports.any (fun x => x.2.2 == vol && p.losses.any (fun l => l.seq == x.2.1 && decide (l.first ≤ block ∧ block < l.first + l.count)))

/-- All blocks of a read are known, and what is lost is on record: data, then guards, are placed in the host buffer by RDMA WRITE, zeros for bad blocks, and
the status is known (R235, R244). A block whose key was unloaded meanwhile gives KEY_UNAVAILABLE. -/
def endRead (s : State) (slot : Nat) : State :=
  match cmdAt s slot with
  | none => s
  | some k =>
    let waits := ((poolAt s k.pool).map (fun p => k.reads.any (fun r => r.bad == some 1 && lossWaits p k.e.volumeId r.block))).getD false
    if k.status.isSome || waits || !(k.reads.all (fun r => r.got.isSome || r.bad.isSome)) then s
    else
      let data := (k.reads.map (fun r => padTo 4096 ((r.got).getD []))).flatten
      let guards := (k.reads.map (fun r =>
        match r.got with
        | some d => leBytes 8 (crc64 (padTo 4096 d)).toNat
        | none => zeros 8)).flatten
      let s := match queueAt s k.conn k.queue with
        | some q =>
          let s := qpSend s q.qp (.rdmaWrite k.e.rkey k.e.addr) data
          if k.e.integrity then qpSend s q.qp (.rdmaWrite k.e.guardKey k.e.guardAddr) guards else s
        | none => s
      let runs := badRunsOf (poolAt s k.pool) k.e.volumeId k.reads
      let st := if runs.any (fun r => r.cause == 5) then 0x26 else if runs.any (fun r => r.cause == 6) then 0x27 else if runs.isEmpty then 0 else 0x29
      let first := (runs.head?.map (·.first)).getD 0
      let s := setPool s k.pool (fun p =>
        { p with winLat := (nowOf s - k.startedAt) :: p.winLat, paceLat := (nowOf s - k.startedAt) :: p.paceLat })
      let s := setCmd s slot (fun k => { k with runs := runs })
      finish s slot st first

/-- Reads of a pool that waited for a loss record end. -/
def retryReads (s : State) (pi : Nat) : State :=
  forAll (s.hq.cmds.filter (fun e => e.2.pool == pi && e.2.status.isNone && e.2.reads.any (fun r => r.bad == some 1))) (fun s e => endRead s e.1) s

/-- One block of a read is known. -/
def setRead (s : State) (slot i : Nat) (got : Option Bytes) (bad : Option Nat) : State :=
  setCmd s slot (fun k => { k with reads := k.reads.modify i (fun r => { r with got := got, bad := bad }) })

/-- One block of a read has its stored bytes: decrypted under their key generation (R117); its key may have been unloaded. -/
def setStored (s : State) (slot i vol keyGen block : Nat) (stored : Bytes) : State :=
  match volAt s vol with
  | none => s
  | some v =>
    match decryptBlock s v vol keyGen block stored with
    | some y => setRead s slot i (some y) none
    | none => setRead s slot i none (some 3)

/-- A command and one block of its read. -/
def readAt (s : State) (slot i : Nat) : Option (Cmd × RdBlk) := (cmdAt s slot).bind (fun k => (k.reads[i]?).map (fun r => (k, r)))

/-! ## Read-around (R119 to R121) -/

/-- The median of a list of latencies. DESIGN CHOICE: of an even number, the upper of the two in the middle; R119 does not say (log entry 51). -/
def median (l : List Rat) : Rat :=
  ((sortBy (fun a b => decide (a ≤ b)) l)[l.length / 2]?).getD 0

/-- Read means of a pool's present members. -/
def memberMeans (s : State) (p : Pool) : List Rat := p.present.filterMap (fun e => e.2.driveSlot.map (fun d => (driveAt s d).rd.mean))

/-- The read-around threshold T in ns (R119). -/
def readAroundT (s : State) (p : Pool) : Rat :=
  let t := (p.f4 : Rat) / 4 * median (memberMeans s p)
  let lo : Rat := (polOf p 0x14 * 1000 : Nat)
  let hi : Rat := (polOf p 0x15 * 1000 : Nat)
  if t < lo then lo else if hi < t then hi else t

/-- Positions a plan reads first for a data position: the other data positions and P; for a mirror, the next copy (R115). -/
def planPositions (b : Band) (pos : Nat) (tried : List Nat) : List Nat :=
  if b.mirror then ((List.range b.w).filter (fun j => !(tried.contains j))).take 1
  else if b.parity then ((List.range (b.k + 1)).filter (fun j => j != pos && !(tried.contains j)))
  else []

/-- The place of a read's block: band, band entry, stripe, position, row. -/
def readPlace (s : State) (pi : Nat) (r : RdBlk) : Option (Nat × Band × Nat × Nat × Nat) :=
  match r.src with
  | .flash band off _ =>
    (bandAt s pi band).map (fun b =>
      let (t, pos, row) := dataPlace b.k b.stripShift off
      (band, b, t, pos, row))
  | _ => none

/-- A unit still to be finished under R395 holds the position of a stripe for missing. -/
def movedAway (p : Pool) (band stripe pos : Nat) : Bool := p.units.any (fun e => e.2.band == band && e.2.stripe == stripe && e.2.toMove.contains pos)

/-- Issue reads of positions of a block's row; a position that cannot be read counts as an input that failed. -/
def issueInputs (s : State) (slot i : Nat) (positions : List Nat) (around : Bool) : State :=
  match readAt s slot i with
  | none => s
  | some (k, r) =>
    match poolAt s k.pool, readPlace s k.pool r with
    | some p, some (band, b, t, _, row) =>
      forAll positions (fun s j =>
        match posDrive p b j, posMayHold p b t j && !(movedAway p band t j) with
        | some (d, sl), true =>
          if !(driveOk s d) then setCmd s slot (fun k => { k with reads := k.reads.modify i (fun r => { r with inputs := r.inputs ++ [(j, none)] }) })
          else
            let s := issueCmd s d .read (rowLba b.stripShift sl t row) 1 (.hostRead slot r.block j) 0 around
            let s := setCmd s slot (fun k => { k with firstIo := k.firstIo.or (some (nowOf s)) })
            setPool s k.pool (fun p =>
              let ra := if around then p.raBytes + 4096 else p.raBytes
              { p with readBytes := p.readBytes + 4096, raBytes := ra
                       raCapped := p.raCapped || (around && decide (2 * polOf p 0x16 * (p.readBytes + 4096) ≤ 100 * ra)) })
        | _, _ => setCmd s slot (fun k => { k with reads := k.reads.modify i (fun r => { r with inputs := r.inputs ++ [(j, none)] }) })) s
    | _, _ => s

/-- Drive commands outstanding for a block of a read. -/
def readOutstanding (s : State) (slot block : Nat) : List Nat :=
  (s.drives.map (fun e => (e.2.cmds ++ e.2.held).filterMap (fun c =>
    match c.owner with
    | .hostRead k b j => if k = slot ∧ b = block then some j else none
    | _ => none))).flatten

/-- A block of a read has its data: decrypted under its key generation, and mended at the positions whose blocks failed their check (R116, R117). -/
def gotBlock (s : State) (slot i : Nat) (stored : Bytes) : State :=
  match readAt s slot i with
  | none => s
  | some (k, r) =>
    match readPlace s k.pool r, r.src with
    | some (band, b, t, pos, row), .flash _ _ kg =>
      let s := setStored s slot i k.e.volumeId kg r.block stored
      let s := forAll r.failed.eraseDups (fun s j =>
        if b.mirror || j == pos then mendBlock s k.pool k.e.volumeId r.block band t j row kg stored
        else
          let bad := match (poolAt s k.pool).bind (fun p => posDrive p b j) with
            | some (d, sl) => [(d, rowLba b.stripShift sl t row)]
            | none => []
          (mendCell s k.pool band t j row bad).getD s) s
      endRead s slot
    | _, _ => s

/-- A block that no plan gives is lost (R115, R133). -/
def loseBlock (s : State) (slot i : Nat) : State :=
  match readAt s slot i with
  | none => s
  | some (k, r) =>
    match readPlace s k.pool r with
    | some (band, b, t, pos, _) =>
      let cause := if b.k == 1 || b.parity then (if b.cls = 1 then 7 else 1) else 3
      let s := poisonBlocks s k.pool k.e.volumeId r.block 1 false cause band t pos
      endRead (setRead s slot i none (some 1)) slot
    | none => s

/-- With every issued input of a plan in, a block's plans are judged; where they give nothing the next plan's reads are issued, the block itself is
read where it was not yet, and after the last the block is lost (R115). A direct read may still be under way (R121). -/
def judgePlans (s : State) (slot i : Nat) : State :=
  match readAt s slot i with
  | none => s
  | some (k, r) =>
    if r.got.isSome || r.bad.isSome then s
    else
      match readPlace s k.pool r with
      | none => s
      | some (band, b, t, pos, row) =>
        let busy := readOutstanding s slot r.block
        let tried := r.inputs.map (·.1) ++ busy
        let reach := ((poolAt s k.pool).map (fun p => bandReach s p b)).getD true
        let giveUp (s : State) : State := if busy.isEmpty && reach then loseBlock s slot i else s
        if b.mirror then
          match r.inputs.find? (fun x => (x.2.map (fun y => volOk b k.e.volumeId r.block y)).getD false) with
          | some (_, some y) => gotBlock s slot i y.data
          | _ =>
            match planPositions b pos tried with
            | [] => giveUp s
            | l => issueInputs s slot i l true
        else if !b.parity then giveUp s
        else
          let stored := (r.inputs.find? (fun x => x.1 == pos)).bind (·.2)
          let ins := r.inputs.filterMap (fun x =>
            if x.1 = pos then none else x.2.bind (fun y => if rowOk s k.pool band b t x.1 row y then some (x.1, y.data) else none))
          match acceptPlan b (fun f => volRef f k.e.volumeId r.block) stored (parityPlans b.k ins pos) false with
          | some d => gotBlock s slot i d
          | none =>
            match planPositions b pos tried with
            | x :: l => issueInputs s slot i (x :: l) true
            | [] =>
              if !(tried.contains (b.k + 1)) then issueInputs s slot i [b.k + 1] true
              else if !(tried.contains pos) then issueInputs s slot i [pos] false
              else giveUp s

/-- Whether no read for a block is under way but perhaps the direct one. -/
def plansIn (s : State) (slot i : Nat) : Bool :=
  match readAt s slot i with
  | none => false
  | some (k, r) =>
    match readPlace s k.pool r with
    | some (_, _, _, pos, _) => r.got.isNone && r.bad.isNone && ((readOutstanding s slot r.block).filter (· != pos)).isEmpty
    | none => false

/-- Judge again while inputs that cannot be read come back at once. -/
def pushPlans (s : State) (slot i : Nat) : State :=
  (List.range 6).foldl (fun s _ => if plansIn s slot i then judgePlans s slot i else s) s

/-- Reads of a pool that waited for a drive to be reached, or to be given up, try its positions again. -/
def retryPlans (s : State) (pi : Nat) : State :=
  forAll (s.hq.cmds.filter (fun e => e.2.pool == pi && e.2.status.isNone)) (fun s e =>
    forAll e.2.reads.zipIdx (fun s x =>
      if x.1.got.isNone && x.1.bad.isNone && x.1.inputs.any (fun y => y.2.isNone) && (readOutstanding s e.1 x.1.block).isEmpty then
        pushPlans (setCmd s e.1 (fun k => { k with reads := k.reads.modify x.2 (fun r => { r with inputs := r.inputs.filter (fun y => y.2.isSome) }) })) e.1 x.2
      else s) s) s

/-- Predicted latency of a read of one block at a position of a stripe, where it can be read. -/
def posLatency (s : State) (p : Pool) (band : Nat) (b : Band) (t j : Nat) : Option Rat :=
  (posDrive p b j).bind (fun x =>
    if driveOk s x.1 && posMayHold p b t j && !(movedAway p band t j) then some (predict s x.1 false 4096) else none)

/-- The plan with the lowest largest predicted latency: P before Q and the lower copy position first among equals (R120). -/
def bestPlan (s : State) (p : Pool) (band : Nat) (b : Band) (t pos : Nat) : Option (List Nat × Rat) :=
  let planL (js : List Nat) : Option Rat :=
    if js.all (fun j => (posLatency s p band b t j).isSome) && !js.isEmpty then some (ratMax (js.filterMap (posLatency s p band b t))) else none
  let others := (List.range b.k).filter (· != pos)
  let plans : List (List Nat × Rat) :=
    (if b.mirror then ((List.range b.w).filter (· != pos)).map (fun j => [j])
     else if b.parity then [others ++ [b.k], others ++ [b.k + 1]] else []).filterMap (fun js => (planL js).map (fun l => (js, l)))
  plans.foldl (fun (m : Option (List Nat × Rat)) x =>
    match m with
    | some y => if x.2 < y.2 then some x else some y
    | none => some x) none

/-- Start the drive reads of one block (R120): a Mitten copy serves it at once; the direct read, unless its predicted latency exceeds T and a plan's
largest is lower. A block whose position cannot be read goes by the plans of R115 in their order. -/
def startBlock (s : State) (slot i : Nat) : State :=
  match readAt s slot i with
  | none => s
  | some (k, r) =>
    match poolAt s k.pool, readPlace s k.pool r with
    | some p, some (band, b, t, pos, _) =>
      match mittenAt p k.e.volumeId r.block (b.cls == 1), r.src with
      | some y, .flash _ _ kg => setStored s slot i k.e.volumeId kg r.block y.data
      | _, _ =>
        let s := setCmd s slot (fun k => { k with reads := k.reads.modify i (fun r => { r with issuedAt := some (nowOf s) }) })
        let on := polOf p 0x10 = 1 && !p.raCapped
        match posLatency s p band b t pos, bestPlan s p band b t pos with
        | some l, some (js, lp) =>
          if on && decide (readAroundT s p < l ∧ lp < l) then
            pushPlans (setCmd (issueInputs s slot i js true) slot (fun k => { k with raFlag := true })) slot i
          else issueInputs s slot i [pos] false
        | some _, none => issueInputs s slot i [pos] false
        | none, _ => pushPlans (issueInputs s slot i [pos] false) slot i
    | _, _ => s

/-- A block of a read whose source is known is served from it, or its reads begin (R109). -/
def serveBlock (s : State) (slot i : Nat) : State :=
  match readAt s slot i with
  | none => s
  | some (k, r) =>
    if r.got.isSome || r.bad.isSome then s
    else
      match r.src with
      | .zeros => setRead s slot i (some (zeros 4096)) none
      | .lost => setRead s slot i none (some 1)
      | .torn => setRead s slot i none (some 2)
      | .page _ => s
      | .flash _ _ _ => startBlock s slot i
      | .inflight w =>
        match unitAt s k.pool w with
        | none => s
        | some u =>
          match heldBlk s k.pool u r.block with
          | some d => if d.keyOk then setStored s slot i u.vol u.keyGen r.block d.blk.data else setRead s slot i none (some 3)
          | none => s

/-- Blocks of reads with a source are looked up anew, in the order of their commands, and served (R109, R110, R262). -/
def lookAgain (s : State) (pi : Nat) (again : Cmd → RdBlk → Bool) : State :=
  forAll (s.hq.cmds.filter (fun e => e.2.pool == pi && e.2.reads.any (again e.2))) (fun s e =>
    let s := forAll e.2.reads.zipIdx (fun s x =>
      if again e.2 x.1 && x.1.got.isNone && x.1.bad.isNone then
        let src := lookupBlock s pi e.2.e.volumeId x.1.block e.2.snapshot
        serveBlock (setCmd s e.1 (fun k => { k with reads := k.reads.modify x.2 (fun r => { r with src := src }) })) e.1 x.2
      else s) s
    endRead s e.1) s

/-- Reads waiting for a unit's data are served from its blocks that have arrived (R242, R262). -/
def serveReads (s : State) (pi w : Nat) : State :=
  forAll (s.hq.cmds.filter (fun e => e.2.pool == pi && e.2.reads.any (fun r => r.src == .inflight w))) (fun s e =>
    let s := forAll e.2.reads.zipIdx (fun s x => if x.1.src == .inflight w then serveBlock s e.1 x.2 else s) s
    endRead s e.1) s

/-- A unit leaves the table: reads that waited for it look their blocks up again (R110, R262). -/
def relookup (s : State) (pi w : Nat) : State := lookAgain s pi (fun _ r => r.src == .inflight w)

/-- A leaf has arrived: reads that waited for it look their blocks up again (R161). -/
def pageServe (s : State) (pi vol low : Nat) : State := lookAgain s pi (fun k r => k.e.volumeId == vol && r.src == .page low)

end Sys2Proof.Machine
end

