-- ==== Sys2Proof/Machine/WriteOps.lean ====
section
/-! DEFINITION. Write units (R43 to R51, R64 to R76): their blocks and targets, locating records and headers, retirement of records (R87), the journal area
(R90, R92), placement in log streams, data arrival, re-drives and failures, substitution, durability. -/

namespace Sys2Proof.Machine

/-- Pieces of a run cut at multiples of S. -/
def cutAt (S start count : Nat) : List (Nat × Nat) :=
  if S = 0 ∨ count = 0 then []
  else
    (List.range ((start + count - 1) / S + 1 - start / S)).map (fun i =>
      let lo := max start ((start / S + i) * S)
      let hi := min (start + count) ((start / S + i + 1) * S)
      (lo, hi - lo))

/-- Two units cover a common block of one volume. -/
def overlapping (a b : Unit) : Bool :=
  a.vol == b.vol && a.vol != 0xFFFF && decide (a.start < b.start + b.count) && decide (b.start < a.start + a.count)

/-- A unit covers a block of a volume, or moves it. -/
def unitTouches (u : Unit) (vol block : Nat) : Bool := covers u vol block || u.moves.any (fun m => m.vol == vol && m.block == block)

/-- Slot-block index of the first block of position i at or above data-order offset D (R83). -/
def posFirst (k sb i D : Nat) : Nat := D / (k * sb) * sb + min sb (D % (k * sb) - i * sb)

/-- Data-order offset of slot block x of position i. -/
def posOff (k sb i x : Nat) : Nat := x / sb * (k * sb) + i * sb + x % sb

/-- Paths that write whole fresh stripes. -/
def wholeStripe (p : WPath) : Bool := p == .fullFresh || p == .padded

/-- The hull of rows of a stripe that a unit touches: first row and count. -/
def rowHull (b : Band) (u : Unit) : Nat × Nat :=
  match u.rows with
  | some r => r
  | none =>
    let sb := stripBlocks b.stripShift
    let ranges := (List.range b.k).filterMap (fun i =>
      let lo := posFirst b.k sb i u.off
      let hi := posFirst b.k sb i (u.off + u.count)
      if lo < hi then some (lo % sb, (hi - 1) % sb) else none)
    match ranges with
    | [] => (0, 0)
    | r :: _ =>
      let a := ranges.foldl (fun m x => min m x.1) r.1
      let z := ranges.foldl (fun m x => max m x.2) r.2
      (a, z + 1 - a)

/-- Slot blocks that a unit writes at a position: first and count. -/
def posRange (b : Band) (u : Unit) (i : Nat) : Nat × Nat :=
  let sb := stripBlocks b.stripShift
  match u.rows with
  | some r => (u.stripe * sb + r.1, r.2)
  | none =>
    if wholeStripe u.path then (u.stripe * sb, sb)
    else if b.mirror then (u.off, u.count)
    else if i < b.k then (posFirst b.k sb i u.off, posFirst b.k sb i (u.off + u.count) - posFirst b.k sb i u.off)
    else (u.stripe * sb + (rowHull b u).1, (rowHull b u).2)

/-- Targets of a unit in its band: position, and the slot blocks it writes there. -/
def unitTargets (p : Pool) (b : Band) (u : Unit) : List Target :=
  (List.range b.w).filterMap (fun i =>
    let rng := posRange b u i
    if rng.2 = 0 then none
    else
      match posDrive p b i with
      | some (d, sl) => some { pos := i, slot := d, lba := slotLba sl + rng.1, count := rng.2 }
      | none => some { pos := i, slot := 64, lba := rng.1, count := rng.2, missing := true })

/-- Index in a unit's data of a data-order offset of its band; none where the unit does not write it. -/
def ownIdx (b : Band) (u : Unit) (d : Nat) : Option Nat :=
  match u.rows with
  | none => if u.off ≤ d ∧ d < u.off + u.count then some (d - u.off) else none
  | some (r0, n) =>
    let (t, pos, row) := dataPlace b.k b.stripShift d
    if t = u.stripe ∧ r0 ≤ row ∧ row < r0 + n then some (pos * n + (row - r0)) else none

/-- An old block captured for a unit's parity. -/
def oldAt (u : Unit) (pos row : Nat) : Option Bytes := (u.oldRows.find? (fun e => e.1 == pos && e.2.1 == row)).map (·.2.2)

/-- Stored bytes of data-order offset d as the unit leaves it: its own block, the captured old block, or padding. -/
def unitBytes (b : Band) (u : Unit) (d : Nat) : Option Bytes :=
  match ownIdx b u d with
  | some i => ((u.data[i]?).bind id).map (·.blk.data)
  | none =>
    let (_, pos, row) := dataPlace b.k b.stripShift d
    some ((oldAt u pos row).getD (zeros 4096))

/-- P and Q of a row by read-modify: P xor each old and new touched block, Q likewise with each difference times its power of g (R64 step 4). -/
def deltaParity (band : Nat) (b : Band) (u : Unit) (x : Nat) : Option (Blk × Blk) :=
  let sb := stripBlocks b.stripShift
  let row := x % sb
  let touched := (List.range b.k).filter (fun i => (ownIdx b u (posOff b.k sb i x)).isSome)
  let ds := touched.map (fun i => (unitBytes b u (posOff b.k sb i x)).map (fun y => (i, xorBytes y ((oldAt u i row).getD (zeros 4096)))))
  if ds.any (·.isNone) then none
  else
    let l := ds.filterMap id
    let p := xorBytes ((oldAt u b.k row).getD (zeros 4096)) (parityP 4096 (l.map (·.2)))
    let q := xorBytes ((oldAt u (b.k + 1) row).getD (zeros 4096)) (parityQ 4096 l)
    some (mkBlk p (sysRef band x) b.gen, mkBlk q (sysRef band x) b.gen)

/-- The block that a unit writes at slot block x of a position; none while its data has not arrived. -/
def unitBlk (band : Nat) (b : Band) (u : Unit) (pos x : Nat) : Option Blk :=
  let sb := stripBlocks b.stripShift
  let own (d : Nat) : Option Blk :=
    match ownIdx b u d with
    | some i => ((u.data[i]?).bind id).map (fun e => placed e b.gen)
    | none => some (sysBlk (zeros 4096) band x)
  if b.mirror then own x
  else if pos < b.k then own (posOff b.k sb pos x)
  else if u.delta.contains (x % sb) then (deltaParity band b u x).map (fun y => if pos = b.k then y.1 else y.2)
  else
    let row := x % sb
    let ds := (List.range b.k).map (fun i => (unitBytes b u (posOff b.k sb i x)).map (fun y => (i, y)))
    if ds.any (·.isNone) then none
    else ((parityBlks band b (x / sb) row (ds.filterMap id)).find? (fun e => e.1 == pos)).map (·.2)

/-- A unit's own data blocks as a JOURNALED intent lists them: by ascending position, then row; a mirror's once (R83). -/
def unitJournal (b : Band) (u : Unit) : List Blk :=
  let at_ (d : Nat) : Option Blk := (ownIdx b u d).bind (fun i => ((u.data[i]?).bind id).map (fun e => placed e b.gen))
  if b.mirror then (List.range (posRange b u 0).2).filterMap (fun i => at_ ((posRange b u 0).1 + i))
  else ((List.range b.k).map (fun pos => (List.range (posRange b u pos).2).filterMap (fun i => at_ (posOff b.k (stripBlocks b.stripShift) pos ((posRange b u pos).1 + i))))).flatten

/-! ## Records (R83, R157) -/

/-- Runs of moved blocks that one map delta redirects: the first, its index in the unit, how many (R59). -/
def moveRuns (l : List Move) : List (Move × Nat × Nat) :=
  (l.zipIdx.foldl (fun (acc : List (Move × Nat × Nat)) x =>
    match acc with
    | (f, i, n) :: r =>
      if f.vol = x.1.vol ∧ f.keyGen = x.1.keyGen ∧ f.band = x.1.band ∧ f.block + n = x.1.block ∧ f.off + n = x.1.off ∧ n < 4096 then (f, i, n + 1) :: r
      else (x.1, x.2, 1) :: acc
    | [] => [(x.1, x.2, 1)]) []).reverse

/-- The locating records of a unit (R31): map deltas, a log-entry record, or an intent. -/
def locating (b : Option Band) (u : Unit) (w : Nat) : List RecBody :=
  match u.path with
  | .mapOnly =>
    (chunks 4096 0 u.count).map (fun c => .mapDelta (u.zero) (u.dealloc) false false false false false w u.vol 0 c.2 (u.start + c.1) 0xFFFFFFFF 0 0 0)
  | .log => [.logEntry (u.intentOpen) u.zero w u.vol u.keyGen u.count u.start u.band u.hdrBlock (u.off - u.hdrBlock) u.entry]
  | .plainInPlace =>
    -- the rotation of a plain-stripe volume goes by intents too (R96)
    match u.rotation, u.rows, b with
    | true, some (r0, rn), some b =>
      [.intent true false true false w u.vol u.keyGen u.band u.stripe b.gen r0 rn ((u.targets.map (fun t => 2 ^ t.pos)).sum) u.dataPage u.data.length]
    | _, _, _ => []
  | .fullInPlace | .rmw | .mirrorInPlace =>
    match b with
    | some b =>
      let (r0, rn) := rowHull b u
      let mask := (u.targets.filter (fun t => !t.missing || u.journaled)).foldl (fun m t => m + 2 ^ t.pos) 0
      [.intent u.journaled b.mirror u.rotation u.fold w u.vol u.keyGen u.band u.stripe b.gen r0 rn mask (if u.journaled then u.dataPage else 0)
        (if u.journaled then u.data.length else 0)]
    | none => []
  | path =>
    let whole := wholeStripe path
    if u.moves.isEmpty then
      (chunks 4096 0 u.count).map (fun c =>
        .mapDelta false false false whole (!whole) false false w u.vol u.keyGen c.2 (u.start + c.1) u.band (u.off + c.1) 0 0)
    else
      (moveRuns u.moves).map (fun r =>
        .mapDelta false false true whole (!whole) false false w r.1.vol r.1.keyGen r.2.2 r.1.block u.band (u.off + r.2.1) r.1.band r.1.off)

/-- WRITE_SEQ that a record names as a unit's locating record. -/
def recWseq (r : RecBody) : Option Nat :=
  match r with
  | .mapDelta _ _ _ _ _ _ _ w _ _ _ _ _ _ _ _ => some w
  | .logEntry _ _ w _ _ _ _ _ _ _ _ => some w
  | .intent _ _ _ _ w _ _ _ _ _ _ _ _ _ _ => some w
  | _ => none

/-- Send a unit's locating records; its acknowledgement waits until they are valid. -/
def sendLocating (s : State) (pi w : Nat) : State :=
  match unitAt s pi w with
  | none => s
  | some u =>
    let rs := locating (bandAt s pi u.band) u w
    let s := forAll rs (fun s r => sendRec s pi r) s
    setUnit s pi w (fun u => { u with recSent := true, recsLeft := rs.length, recSeq := none, recValid := rs.isEmpty })

/-- A record of a ring copied forward: its bytes with a new SEQ, CARRIED set, and the EPOCH that it was first written with (R87, Table 3.3). -/
def carryReq (x : Rec) : RecReq := { body := x.body, carried := true, epoch := x.epoch }

/-- Overlapping later units whose records were written and whose deltas are not applied are carried forward after a re-drive (R261). -/
def carryOver (s : State) (pi w : Nat) : State :=
  match poolAt s pi, unitAt s pi w with
  | some p, some u =>
    let later := p.units.filter (fun e => decide (w < e.1) && overlapping u e.2 && e.2.recSeq.isSome && !e.2.applied)
    forAll later (fun s e =>
      let olds := (ringAt s p.ring).slots.filter (fun x => recWseq x.2.body == some e.1 && !((ringAt s p.ring).retired.contains x.2.seq))
      let s := forAll olds (fun s x =>
        setRing s p.ring (fun r => { r with queue := r.queue ++ [carryReq x.2], retired := x.2.seq :: r.retired })) s
      setUnit s pi e.1 (fun u => { u with recValid := u.recValid && olds.isEmpty, recsLeft := u.recsLeft + olds.length })) s
  | _, _ => s

/-! ## Headers (R50, R51) -/

/-- Whether the blocks that a unit moves are one contiguous run of one volume. -/
def oneRun (l : List Move) : Bool :=
  match l with
  | [] => true
  | f :: _ => l.zipIdx.all (fun x => x.1.vol == f.vol && x.1.block == f.block + x.2 && x.1.keyGen == f.keyGen)

/-- The stripe write headers of a unit (Table 2.4): one for each stripe that it touches. A unit that moves blocks of several runs is MIXED. -/
def headersOf (s : State) (b : Band) (u : Unit) (w : Nat) : List StripeHdr :=
  let f : Option Move := u.moves.head?
  let mapped := !(inPlace u.path) && f.isSome
  let mixed := mapped && !(oneRun u.moves)
  let vol := if mixed then 0xFFFF else if mapped then (f.map (·.vol)).getD u.vol else u.vol
  let kg := if mixed then 0 else if mapped then (f.map (·.keyGen)).getD 0 else u.keyGen
  let enc := if mapped then u.moves.any (fun m => m.keyGen != 0) else ((volAt s u.vol).map (·.encrypted)).getD false
  let first := if mixed then 0 else if mapped then (f.map (·.block)).getD 0 else u.start
  let base : StripeHdr :=
    { direct := inPlace u.path, encrypted := enc, fold := u.fold, mixed := mixed, padded := u.path == .padded, k := b.k, w := b.w, wseq := w, band := u.band
      stripe := u.stripe, gen := b.gen, vol := vol, keyGen := kg, blockCount := u.count, volBlock := first, time := nowOf s }
  if u.path == .log || u.path == .mapOnly then []
  else if wholeStripe u.path || u.path == .fullInPlace then [base]
  else
    match u.rows with
    | some (r0, n) =>
      let d := dataOff b.k b.stripShift u.stripe 0 r0
      [{ base with part := true, blockCount := n * b.k, volBlock := u.start + (d - u.off), firstOff := d }]
    | none =>
      (cutAt (b.k * stripBlocks b.stripShift) u.off u.count).map (fun c =>
        { base with part := true, stripe := c.1 / (b.k * stripBlocks b.stripShift), blockCount := c.2
                    volBlock := if mixed then 0 else first + (c.1 - u.off), firstOff := c.1 })

/-- Headers of a unit are queued for the header ring; its acknowledgement waits for them. -/
def queueHeaders (s : State) (pi w : Nat) : State :=
  match unitAt s pi w with
  | some u =>
    match bandAt s pi u.band with
    | some b =>
      let hs := headersOf s b u w
      let s := setPool s pi (fun p => { p with copy := { p.copy with hdrQueue := p.copy.hdrQueue ++ hs } })
      setUnit s pi w (fun u => { u with headers := u.headers + hs.length })
    | none => s
  | none => s

/-! ## Retirement (Table 3.5) -/

/-- Newest MAP_ROOT cut of a volume that is on every drive copy. -/
def rootCutCopied (r : Ring) (copied vol : Nat) : Nat :=
  r.slots.foldl (fun m e =>
    match e.2.body with
    | .mapRoot v _ _ _ c => if v = vol ∧ e.2.seq < copied then max m c else m
    | _ => m) 0

/-- The INTENT_DONE of a unit is valid. -/
def hasDone (r : Ring) (w : Nat) : Bool :=
  r.slots.any (fun e =>
    match e.2.body with
    | .intentDone x _ _ _ => x == w && !(r.inflight.any (fun i => i.1 == e.2.seq))
    | _ => false)

/-- A later record of the same type, and for the same volume where one is named, is on every drive copy. -/
def laterCopied (r : Ring) (copied seq : Nat) (same : RecBody → Bool) : Bool :=
  r.slots.any (fun e => decide (seq < e.2.seq ∧ e.2.seq < copied) && same e.2.body)

/-- A direct volume's LOG_ENTRY is folded, its fold's INTENT_DONE being valid, or superseded: neither the index nor a unit still holds it. -/
def logRetired (s : State) (p : Pool) (w vol : Nat) : Bool :=
  !((((volAt s vol).map (·.pending)).getD []).any (fun b => b.wseq == w)) && !(thas p.units w) && !(p.units.any (fun u => u.2.moves.any (fun m => m.wseq == w)))

/-- A volume block lies in the rows and positions that an intent names. -/
def inIntent (s : State) (p : Pool) (vol band stripe r0 rn mask block : Nat) : Bool :=
  let (li, t, pos, row) := directPlace p.k p.stripShift block
  (((volAt s vol).bind (fun v => v.bandList[li]?)) == some band) && t == stripe && decide (r0 ≤ row ∧ row < r0 + rn) && mask.testBit pos

/-- Whether a record that locates or intends is retired. An INTENT of a folded pool's host unit waits for the log entries that its unit superseded (R394). -/
def locRetired (s : State) (p : Pool) (r : Ring) (x : Rec) : Bool :=
  r.retired.contains x.seq ||
  match x.body with
  | .mapDelta _ _ _ _ _ _ _ _ vol _ _ _ _ _ _ _ => decide (x.seq < rootCutCopied r p.copy.copied vol)
  | .logEntry direct _ w vol _ _ _ _ _ _ _ => if direct then logRetired s p w vol else decide (x.seq < rootCutCopied r p.copy.copied vol)
  | .intent _ _ _ fold w vol _ band t _ r0 rn mask _ _ =>
    hasDone r w && (p.layout != 4 || fold || !(r.slots.any (fun e =>
      match e.2.body with
      | .logEntry true _ y v _ n start _ _ _ _ =>
        v == vol && decide (y < w ∧ r.tail ≤ e.2.seq) && !(r.retired.contains e.2.seq) && !(logRetired s p y v) &&
          (List.range n).any (fun j => inIntent s p vol band t r0 rn mask (start + j))
      | _ => false)))
  | _ => false

/-- The records of a ring that an ABANDON cancels: its WRITE_SEQ, below it (R83). -/
def locatesUnit (x : Rec) (w : Nat) : Bool := recWseq x.body == some w

/-- Whether a record is retired (Table 3.5). -/
def isRetired (s : State) (p : Pool) (r : Ring) (x : Rec) : Bool :=
  r.retired.contains x.seq ||
  match x.body with
  | .mapDelta _ _ _ _ _ _ _ _ _ _ _ _ _ _ _ _ => locRetired s p r x
  | .logEntry _ _ _ _ _ _ _ _ _ _ _ => locRetired s p r x
  | .intent _ _ _ _ _ _ _ _ _ _ _ _ _ _ _ => locRetired s p r x
  | .intentDone w _ _ _ => !(r.slots.any (fun e => locatesUnit e.2 w && decide (r.tail ≤ e.2.seq) && !(locRetired s p r e.2)))
  | .abandon _ w _ _ _ => !(r.slots.any (fun e => locatesUnit e.2 w && decide (r.tail ≤ e.2.seq ∧ e.2.seq < x.seq) && !(locRetired s p r e.2)))
  | .band n _ _ _ _ _ => entryOnFlash p n
  | .keyRotate _ v _ _ _ _ => laterCopied r p.copy.copied x.seq (fun b =>
      match b with
      | .keyRotate _ u _ _ _ _ => u == v
      | _ => false)
  | .mapRoot v _ _ _ _ => laterCopied r p.copy.copied x.seq (fun b =>
      match b with
      | .mapRoot u _ _ _ _ => u == v
      | _ => false)
  | .watermark _ _ _ _ => laterCopied r p.copy.copied x.seq (fun b =>
      match b with
      | .watermark _ _ _ _ => true
      | _ => false)
  | _ => decide (x.epoch < r.epoch)

/-! ## The journal area and the header ring (R89 to R92) -/

/-- Blocks of the journal area (Table 3.6). -/
def areaBlocks : Nat := 245759

/-- Block index within the slot of a place of the journal area (Table 3.6). -/
def pageBlock (place : Nat) : Nat := 16385 + place

/-- Block index within the slot of the i-th ring block (Table 3.6). -/
def hdrBlockAt (c : DriveCopy) (i : Nat) : Nat :=
  1 + (i - (match c.opening with
            | some o => o.hdrBase
            | none => c.hdrBase)) % 16384

/-- The Hatbox band that takes what belongs to the newest epoch, and its members (R93). -/
def newestCopy (c : DriveCopy) : Nat × List Nat :=
  match c.opening with
  | some o => (o.band, o.members)
  | none => (c.band, c.members)

/-- A block of the area may be reused: the records of its page are retired, or the intent of its journaled data is, and it lies outside the current epoch's
checkpoint set (R92). -/
def areaDone (s : State) (p : Pool) (a : AreaBlk) : Bool :=
  let r := ringAt s p.ring
  !a.ckpt &&
  match a.data with
  | some w => !(thas p.units w) && !(r.slots.any (fun e => decide (r.tail ≤ e.2.seq) &&
      (match e.2.body with
       | .intent _ _ _ _ x _ _ _ _ _ _ _ _ _ _ => x == w && !(locRetired s p r e.2)
       | _ => false)))
  | none => !(r.slots.any (fun e => decide (a.first ≤ e.2.seq ∧ e.2.seq ≤ a.last ∧ r.tail ≤ e.2.seq) && !(isRetired s p r e.2)))

/-- Two runs of the area have a block in common. -/
def areaMeets (a : AreaBlk) (place n : Nat) : Bool := decide (a.idx < place + n ∧ place < a.idx + a.count)

/-- `n` blocks take the next places of a band's journal area, which pages and data fill in one circle; a run does not cross its end, and passes over what
may not be reused yet (R83, R90, R92, log entry 53). Answers the place of the first, none while there is no room. -/
def takeArea (s : State) (pi band n : Nat) (blk : AreaBlk) : Option (Nat × State) :=
  match poolAt s pi with
  | none => none
  | some p =>
    let own := p.copy.area.filter (fun a => a.band == band)
    let next := match p.copy.opening with
      | some o => if o.band = band then o.nextPage else p.copy.nextPage
      | none => p.copy.nextPage
    let free (place : Nat) : Bool := decide (place + n ≤ areaBlocks) && own.all (fun a => !(areaMeets a place n) || areaDone s p a)
    let ends := own.map (fun a => a.idx + a.count)
    let later := sortBy (fun (a b : Nat) => decide (a ≤ b)) (ends.filter (fun e => decide (next < e)))
    match (next :: later ++ 0 :: sortBy (fun (a b : Nat) => decide (a ≤ b)) ends).find? free with
    | none => none
    | some place =>
      let after := if place + n = areaBlocks then 0 else place + n
      some (place, setPool s pi (fun p =>
        let c := p.copy
        let c := { c with area := { blk with band := band, idx := place, count := n } :: c.area.filter (fun a => a.band != band || !(areaMeets a place n)) }
        { p with copy := match c.opening with
            | some o => if o.band = band then { c with opening := some { o with nextPage := after } } else { c with nextPage := after }
            | none => { c with nextPage := after } }))

/-- The place of a band's slot on a copy member: drive and slot. -/
def copySlot (s : State) (pi band member : Nat) : Option (Nat × Nat) :=
  match poolAt s pi, bandAt s pi band with
  | some p, some b =>
    ((tget p.members member).bind (·.driveSlot)).bind (fun d => (b.members.find? (fun x => x.1 == member)).map (fun x => (d, x.2)))
  | _, _ => none

/-- Blocks of journaled data in flight for a pool (R65). -/
def journalHeld (p : Pool) : Nat := ((p.units.filter (fun e => e.2.jPlaced)).map (fun e => e.2.data.length)).sum

/-- A unit's blocks have all passed the edge. -/
def allHere (u : Unit) : Bool := u.data.all (·.isSome)

/-- A unit under R65 writes its new data blocks to every copy member and sends its JOURNALED intent, once all its blocks are there, at most 64 MiB being in
flight in the pool and the journal area having room: else it waits (R65, R83, R96). -/
def journalUnit (s : State) (pi w : Nat) : State :=
  match poolAt s pi, unitAt s pi w with
  | some p, some u =>
    let n := u.data.length
    let (band, ms) := newestCopy p.copy
    if !u.journaled || u.jPlaced || !(allHere u) || decide (16384 < journalHeld p + n) || !(entryOnFlash p band) then s
    else
      match takeArea s pi band n { idx := 0, data := some w } with
      | none => s
      | some (place, s) =>
        let s := setUnit s pi w (fun u => { u with jPlaced := true, dataPage := pageBlock place, jTodo := ms.map (fun m => (m, place)) })
        let s := forAll ms (fun s m =>
          match copySlot s pi band m with
          | some (d, sl) => issueCmd s d .write (slotLba sl + pageBlock place) n (.jdata pi w place) 0 false
          | none => s) s
        sendLocating s pi w
  | _, _ => s

/-- The blocks that a write of journaled data carries, by LBA: each with the tag that its target block will carry (R90). -/
def jdataBlks (s : State) (pi w : Nat) : List Blk :=
  match unitAt s pi w with
  | some u => ((bandAt s pi u.band).map (fun b => unitJournal b u)).getD []
  | none => []

/-! ## Log placement (R52, R53, R55) -/

/-- Streams a pool keeps: min(16, ⌊n / 3⌋) (R52). -/
def streamCount (p : Pool) : Nat := if layoutParity p.layout then min 16 (p.activeCount / 3) else 0

/-- Whether an entry of n data blocks joins the stream's open record, or a fresh record of its band (R55). -/
def openRec (st : LogStream) : Option LogRec := st.recs.getLast?.bind (fun r => if r.issued then none else some r)

def joins (b : Band) (r : LogRec) (n : Nat) : Bool :=
  decide (r.entries.length < 63) && decide (r.dataBlocks + n ≤ 1024) && decide (b.next + n ≤ 262144)

/-- Close a band: BAND record with EVENT 3, then the Band Table (R145). -/
def closeBand (s : State) (pi band : Nat) : State :=
  match bandAt s pi band with
  | some b =>
    if b.state = .opened then
      let s := sendRec s pi (.band band b.gen 3 0 0 0)
      writeTables (setPool s pi (fun p =>
        { p with bands := tmod p.bands band (fun b => { b with state := .closed })
                 openBands := p.openBands.filter (fun e => e.2 != band), foldBands := p.foldBands.filter (· != band)
                 streams := p.streams.map (fun st => if st.band = some band then { st with band := none } else st) })) pi
    else s
  | none => s

/-- A pool keeps its number of streams: missing ones are added; of ones too many the open band closes, and they go once their records are done (R52). -/
def fitStreams (s : State) (pi : Nat) : State :=
  match poolAt s pi with
  | none => s
  | some p =>
    let n := streamCount p
    let s := forAll ((p.streams.drop n).filterMap (·.band)) (fun s b => closeBand s pi b) s
    setPool s pi (fun p =>
      let extra := (p.streams.drop n).reverse.dropWhile (fun st => st.recs.isEmpty)
      { p with streams := p.streams.take n ++ extra.reverse ++ List.replicate (n - p.streams.length) {} })

/-- Give a stream a band with room for an entry of n blocks: its own, or a new log band (R55). -/
def streamBand (s : State) (pi i n : Nat) : Option State :=
  match poolAt s pi with
  | none => none
  | some p =>
    match p.streams[i]? with
    | none => none
    | some st =>
      let fits := match st.band.bind (fun x => (tget p.bands x)) with
        | some b =>
          (match openRec st with
           | some r => (some r.band == st.band && joins b r n) || decide (b.next + 1 + n ≤ 262144)
           | none => decide (b.next + 1 + n ≤ 262144))
        | none => false
      if fits then some s
      else
        match allocBand s pi 1 [] with
        | none => none
        | some (nb, s) =>
          let s := match st.band with
            | some old => closeBand s pi old
            | none => s
          some (writeTables (setPool s pi (fun p =>
            { p with streams := p.streams.modify i (fun st => { st with band := some nb })
                     logHalf := p.logHalf || decide (p.logReserveSlots < 2 * p.logHeld) })) pi)

/-- Place a log entry of n data blocks: band, header block, offset of its first data block, entry index. None when no stream can take it. -/
def placeLog (s : State) (pi w n : Nat) : Option (State × Nat × Nat × Nat × Nat) :=
  let s := fitStreams s pi
  match poolAt s pi with
  | none => none
  | some p =>
    let streams := p.streams.take (streamCount p)
    let vals := streams.zipIdx.map (fun x =>
      (x.2, match x.1.band.bind (fun y => tget p.bands y) with
            | some b => bandPredict s p b
            | none => 0))
    let order := match steer vals p.streamRr with
      | some i => i :: (List.range streams.length).filter (· != i)
      | none => []
    match order.findSome? (fun i => (streamBand s pi i n).map (fun s => (i, s))) with
    | none => none
    | some (i, s) =>
      match poolAt s pi with
      | none => none
      | some p =>
        match p.streams[i]?, (p.streams[i]?).bind (·.band) with
        | some st, some bn =>
          match tget p.bands bn with
          | none => none
          | some b =>
            let join := match openRec st with
              | some r => if r.band = bn ∧ joins b r n = true then some r else none
              | none => none
            let put (s : State) (r : LogRec) (first : Nat) (recs : List LogRec) : State :=
              setPool s pi (fun p =>
                { p with streamRr := p.streamRr + 1
                         bands := tmod p.bands bn (fun b => { b with next := first + n })
                         streams := p.streams.modify i (fun st =>
                           { st with recs := recs ++ [{ r with entries := r.entries ++ [{ wseq := w, off := first, count := n }], dataBlocks := r.dataBlocks + n }] }) })
            match join with
            | some r => some (put s r b.next st.recs.dropLast, bn, r.headerBlock, b.next, r.entries.length)
            | none => some (put s { band := bn, headerBlock := b.next } (b.next + 1) st.recs, bn, b.next, b.next + 1, 0)
        | _, _ => none

/-- A unit's entry becomes a hole of its log record: no entry header, padding for its blocks. -/
def markDead (s : State) (pi : Nat) (u : Unit) (w : Nat) : State :=
  setPool s pi (fun p =>
    { p with streams := p.streams.map (fun st =>
        { st with recs := st.recs.map (fun r =>
            if r.band = u.band ∧ r.headerBlock = u.hdrBlock then { r with entries := r.entries.map (fun e => if e.wseq = w then { e with dead := true } else e) } else r) }) })

/-- A unit's entry leaves its log record. In a record not issued yet it leaves a hole, and a record of nothing else goes. A record whose cells
are on their way is abandoned with all its entries: answers the units of the others, which are driven again (R55, R74). -/
def killEntry (s : State) (pi w : Nat) : State × List Nat :=
  match poolAt s pi, unitAt s pi w with
  | some p, some u =>
    match p.streams.zipIdx.findSome? (fun x => (x.1.recs.find? (fun r => r.band == u.band && r.headerBlock == u.hdrBlock)).map (fun r => (x.2, r))) with
    | none => (s, [])
    | some (i, r) =>
      let same (x : LogRec) : Bool := x.band == r.band && x.headerBlock == r.headerBlock
      let left := (r.entries.filter (fun e => !e.dead && e.wseq != w)).map (·.wseq)
      if r.issued then
        let mine (o : CmdOwner) : Bool :=
          match o with
          | .logRec q j b h _ => q == pi && j == i && b == r.band && h == r.headerBlock
          | _ => false
        (setPool (dropCmds s mine) pi (fun p => { p with streams := p.streams.modify i (fun st => { st with recs := st.recs.filter (fun x => !(same x)) }) }),
          left)
      else if left.isEmpty then
        (setPool s pi (fun p => { p with streams := p.streams.modify i (fun st => { st with recs := st.recs.filter (fun x => !(same x)) }) }), [])
      else (markDead s pi u w, [])
  | _, _ => (s, [])

/-! ## Ends of units -/

/-- Free a stripe's accumulator with its buffers. -/
def freeAcc (s : State) (acc : Option Nat) : State :=
  match acc with
  | none => s
  | some i =>
    setOut { s with par := { s.par with accs := tdel s.par.accs i } } (136 + i / 512)
      (fun o => { o with charges := o.charges.filter (fun e => e.1 != i) })

/-- Drive commands of a unit are dropped; Writes of its old place count for it no more (R32). -/
def dropUnitCmds (s : State) (pi w : Nat) : State :=
  let mine (o : CmdOwner) : Bool :=
    match o with
    | .unit p x _ _ => p == pi && x == w
    | .jdata p x _ => p == pi && x == w
    | _ => false
  dropCmds s mine

/-- A band whose last slot is allocated, or that takes no more units, closes once no unit writes it (R47). -/
def closeIfFull (s : State) (pi band : Nat) : State :=
  match poolAt s pi, bandAt s pi band with
  | some p, some b =>
    let full := if runBand b then decide (bandBlocks b ≤ b.next) else decide (stripesPerBand b.stripShift ≤ b.next)
    let retired := (b.cls == 0 || b.cls == 2) && (directOwner s pi band).isNone && !(p.openBands.any (fun e => e.2 == band)) && !(p.foldBands.contains band)
    if b.state = .opened ∧ (full || retired) = true ∧ ¬ p.units.any (fun e => e.2.band == band && e.2.stage == .writing && e.2.path != .log) = true then closeBand s pi band
    else s
  | _, _ => s

/-- An open band takes no more units, and closes when those that write it are done: it lacks a member, or its place among the open bands is needed
(R47, R125). -/
def retireBand (s : State) (pi band : Nat) : State :=
  closeIfFull (setPool s pi (fun p =>
    { p with openBands := p.openBands.filter (fun e => e.2 != band), foldBands := p.foldBands.filter (· != band) })) pi band

/-- The location of a placed unit is abandoned: ABANDON record, and the stripe slot never written again; drive reads of its cells that a port holds complete
poisoned (R47, R74, R83). -/
def abandonPlace (s : State) (pi w : Nat) : State :=
  match unitAt s pi w with
  | none => s
  | some u =>
    let s := forAll u.waitsHold (fun s h => emit s (.cellData h.1 h.2.2.1 false)) s
    let s := freeAcc (dropUnitCmds s pi w) u.acc
    let s := setUnit s pi w (fun u => { u with waitsHold := [], acc := none })
    if !u.recSent then s
    else
      match u.path with
      | .log => sendRec s pi (.abandon true w u.band 0 u.hdrBlock)
      | .fullFresh | .padded | .freshRun | .plainRun =>
        let s := sendRec s pi (.abandon false w u.band u.stripe 0xFFFFFFFF)
        if wholeStripe u.path then setBand s pi u.band (fun b => { b with abandoned := u.stripe :: b.abandoned }) else s
      | _ => s

/-- The lock of a unit is released (R66), and what waited for it in its stripe is mended. -/
def unlock (s : State) (pi w : Nat) : State := pumpMends (setPool s pi (fun p => { p with locks := p.locks.filter (fun l => l.2.2 != w) })) pi

/-- A command's unit has ended; with all ended the command's status is known (R76). -/
def unitEnded (s : State) (slot w : Nat) : State :=
  match cmdAt s slot with
  | none => s
  | some k =>
    let left := k.units.filter (· != w)
    let s := setCmd s slot (fun k => { k with units := left, lastIo := some (nowOf s) })
    if !left.isEmpty || k.status.isSome then s
    else
      let runs := (sortBy (fun (a b : Nat × Nat × Nat) => decide (a.1 ≤ b.1)) k.failures).map
        (fun f => ({ first := f.1, count := f.2.1, cause := causeOf f.2.2 } : BadRun))
      match k.failures with
      | [] => finish s slot 0 0
      | f :: _ =>
        let s := setCmd s slot (fun k => { k with runs := runs, cause := causeOf f.2.2 })
        if k.unitCount = 1 then finish s slot f.2.2 0
        else finish s slot 0x2A ((runs.head?.map (·.first)).getD 0)

/-- A unit leaves the table having failed: its location is abandoned and its lock released (R72, R75, R76). -/
def dropUnit (s : State) (pi w st : Nat) : State :=
  match unitAt s pi w with
  | none => s
  | some u =>
    let s := unlock (abandonPlace s pi w) pi w
    let s := setPool s pi (fun p => { p with units := tdel p.units w })
    let s := closeIfFull (relookup s pi w) pi u.band
    match u.cmd with
    | some slot => unitEnded (setCmd s slot (fun k => { k with failures := k.failures ++ [(u.start, u.count, st)] })) slot w
    | none => s

/-- A direct volume's log unit without log space becomes an in-place unit of its stripe (R62). -/
def logToPlace (s : State) (pi w : Nat) : State :=
  match poolAt s pi, unitAt s pi w with
  | some p, some u =>
    match volAt s u.vol with
    | none => s
    | some v =>
      let (li, stripe, pos, row) := directPlace p.k p.stripShift u.start
      let data := if u.zero then (List.range u.count).map (fun j => some (edgeBlock s u.vol v.keyGen (u.start + j) (zeros 4096) none)) else u.data
      setUnit s pi w (fun u =>
        { u with path := .rmw, stage := .waitLock, intentOpen := false, zero := false, data := data, band := (v.bandList[li]?).getD 0, stripe := stripe
                 off := dataOff p.k p.stripShift stripe pos row, recSent := false })
  | _, _ => s

/-- A log unit takes its place in a stream; with no log space a mapped volume's becomes a padded stripe of its own, and a direct volume's goes by
read-modify-write (R55, R62). `intentOpen` of a log unit marks a direct volume. -/
def placeLogUnit (s : State) (pi w : Nat) : State :=
  match unitAt s pi w with
  | none => s
  | some u =>
    match placeLog s pi w (if u.zero then 0 else u.count) with
    | some (s, band, hdr, off, e) =>
      let s := setUnit s pi w (fun u => { u with band := band, hdrBlock := hdr, off := if u.zero then hdr else off, entry := e, stage := .writing })
      let s := sendLocating s pi w
      if u.fails = 0 then s else carryOver s pi w
    | none =>
      if u.intentOpen then logToPlace s pi w else setUnit s pi w (fun u => { u with path := .padded, stage := .waitPlace })

/-- A unit whose place is lost is driven again elsewhere, keeping its WRITE_SEQ; the fourth failure fails it (R74, R75, R261). -/
def driveAgain (s : State) (pi w : Nat) : State :=
  match unitAt s pi w with
  | none => s
  | some u =>
    if 3 ≤ u.fails then dropUnit s pi w 0x2B
    else
      let s := abandonPlace s pi w
      let pulled := ((u.cmd.bind (cmdAt s)).map (fun k => k.e.dataMode == 2)).getD false
      let s := setUnit s pi w (fun u =>
        { u with fails := u.fails + 1, stage := .waitPlace, targets := [], headers := 0, recSent := false, recsLeft := 0, recSeq := none, recValid := false
                 data := if pulled then u.data.map (fun _ => none) else u.data, raw := if pulled then [] else u.raw, pulled := if pulled then 0 else u.pulled })
      let s := match u.cmd with
        | some slot => setCmd s slot (fun k => { k with redrivenFlag := true })
        | none => s
      let s := closeIfFull s pi u.band
      if u.path = .log then placeLogUnit s pi w else s

/-- What a unit does on a failure, with the units that lose their log record by it. -/
def withEntry (s : State) (pi w : Nat) (f : State → State) : State :=
  match unitAt s pi w with
  | none => s
  | some u =>
    let (s, others) := if u.path = .log then killEntry s pi w else (s, [])
    forAll others (fun s x => driveAgain s pi x) (f s)

/-- A unit fails with a status (R76). -/
def failUnit (s : State) (pi w st : Nat) : State := withEntry s pi w (fun s => dropUnit s pi w st)

/-- A unit is abandoned and driven again (R72). -/
def redrive (s : State) (pi w : Nat) : State := withEntry s pi w (fun s => driveAgain s pi w)

/-! ## Data arrival -/

/-- Insert a run of bytes into a list of runs, joining neighbours. -/
def segPut : List (Nat × Bytes) → Nat → Bytes → List (Nat × Bytes)
  | [], o, b => [(o, b)]
  | (p, c) :: r, o, b =>
    if p + c.length = o then segPut r p (c ++ b)
    else if o + b.length = p then (o, b ++ c) :: r
    else if o < p then (o, b) :: (p, c) :: r
    else (p, c) :: segPut r o b

/-- Bytes [o, o + n) where a list of runs holds them all. -/
def segGet (l : List (Nat × Bytes)) (o n : Nat) : Option Bytes :=
  (l.find? (fun e => decide (e.1 ≤ o ∧ o + n ≤ e.1 + e.2.length))).map (fun e => (e.2.drop (o - e.1)).take n)

/-- Held drive reads whose cells have arrived are answered (R49). -/
def serveHeld (s : State) (pi w : Nat) : State :=
  match unitAt s pi w with
  | none => s
  | some u =>
    match bandAt s pi u.band with
    | none => s
    | some b =>
      let (now_, later) := u.waitsHold.partition (fun h => (unitBlk u.band b u h.2.1 h.2.2.1).isSome)
      let s := setUnit s pi w (fun u => { u with waitsHold := later })
      forAll now_ (fun s h => emit s (.cellData h.1 h.2.2.1 true)) s

/-- The accumulator of a full stripe takes the cells of the blocks that have arrived and completes with the last (R48, R191). -/
def feedAcc (s : State) (pi w : Nat) : State :=
  match unitAt s pi w with
  | none => s
  | some u =>
    match u.acc.bind (fun i => (tget s.par.accs i).map (fun a => (i, a))) with
    | none => s
    | some (i, a) =>
      let full := u.data.all (·.isSome)
      let a' : Acc := { a with seen := if full then a.expected else 16 * (u.data.filter (·.isSome)).length, done := full }
      let s' := { s with par := { s.par with accs := tput s.par.accs i a' } }
      if full && !a.done then count s' (0x684 + i / 512) else s'

/-- Blocks of a unit pass the edge. A block whose guard failed, or whose key is not loaded, is not written, and its unit fails (R38, R42, R76). -/
def takeBlocks (s : State) (pi w : Nat) (blks : List (Nat × EdgeBlk)) : State :=
  if blks.any (fun x => !x.2.guardOk) then failUnit s pi w 0x20
  else if blks.any (fun x => !x.2.keyOk) then failUnit s pi w 0x29
  else
    let s := setUnit s pi w (fun u => { u with data := blks.foldl (fun d x => d.set x.1 (some x.2)) u.data })
    serveReads (serveHeld (feedAcc s pi w) pi w) pi w

/-- Pulled bytes arrive at a byte offset of a unit: data at 0 to 4,096 × count − 1, then guards (R35, R38). -/
def arriveBytes (s : State) (pi w off : Nat) (bytes : Bytes) : State :=
  match unitAt s pi w with
  | none => s
  | some u =>
    let raw := segPut u.raw off bytes
    let s := setUnit s pi w (fun u => { u with raw := raw })
    let ready := (List.range u.count).filterMap (fun j =>
      match u.data[j]? with
      | some none =>
        match segGet raw (4096 * j) 4096 with
        | some plain =>
          if u.wantGuard then
            (segGet raw (4096 * u.count + 8 * j) 8).map (fun g =>
              (j, edgeBlock s u.vol u.keyGen (u.start + j) plain (some (BitVec.ofNat 64 (leNat g)))))
          else some (j, edgeBlock s u.vol u.keyGen (u.start + j) plain none)
        | none => none
      | _ => none)
    if ready.isEmpty then s else takeBlocks s pi w ready

/-! ## Failures of positions (Table 2.11) -/

/-- A direct unit in a layout with redundancy goes on with a position treated as missing: its in-place writes wait until its new data is journaled
(R65, R395). -/
def degradeUnit (s : State) (pi w pos : Nat) (move : Bool) : State :=
  match unitAt s pi w with
  | none => s
  | some u =>
    if 3 ≤ u.fails then failUnit s pi w 0x2B
    else
      let s := setUnit s pi w (fun u =>
        { u with journaled := true, fails := u.fails + 1, stage := if u.stage = .writing && !u.jPlaced then .waitIntent else u.stage
                 targets := u.targets.map (fun t => if t.pos = pos then { t with missing := true } else t)
                 toMove := if move then pos :: u.toMove else u.toMove })
      journalUnit s pi w

/-- A direct plain-stripe Write failed after its retry: what is still in flight of it is dropped and it is written again in place; at the fourth failure the
unit fails (R67). -/
def rewritePlain (s : State) (pi w pos : Nat) : State :=
  match unitAt s pi w with
  | none => s
  | some u =>
    if 3 ≤ u.fails then failUnit s pi w 0x2B
    else
      let s := dropCmds s (fun o =>
        match o with
        | .unit p x q _ => p == pi && x == w && q == pos
        | _ => false)
      setUnit s pi w (fun u =>
        { u with fails := u.fails + 1
                 targets := u.targets.map (fun t => if t.pos = pos then { t with issued := 0, done := 0, onFlash := 0 } else t) })

/-- A position of a unit failed: by its path (Table 2.11). -/
def unitPosFailed (s : State) (pi w pos : Nat) (move : Bool) : State :=
  match unitAt s pi w with
  | none => s
  | some u =>
    match u.path with
    | .fullInPlace | .rmw | .mirrorInPlace => degradeUnit s pi w pos move
    | .plainInPlace => rewritePlain s pi w pos
    | .mapOnly => s
    | _ => redrive s pi w

/-! ## Substitution (R73, R124) -/

/-- The substitute of a position: the highest-ranked eligible non-member under the balance correction, with its lowest free slot. -/
def chooseSubstitute (s : State) (p : Pool) (band : Nat) (b : Band) : Option (Nat × Nat) :=
  let all := p.members.filter (fun e => eligible s e.2)
  let cand := ranked p.seed band (all.filter (fun e => !(b.members.any (fun m => m.1 == e.1))))
  let used := (all.map (fun e => e.2.used.length)).sum
  let total := (all.map (fun e => e.2.slots)).sum
  let ovr (m : Member) : Bool := decide (m.slots * (used * 100 + p.balance * total) < m.used.length * total * 100)
  let low (m : Member) : Bool := decide (m.used.length * total ≤ used * m.slots)
  match cand with
  | [] => none
  | c :: _ =>
    let pick := if ovr c.2 then (cand.find? (fun e => low e.2)).getD c else c
    (lowestSlot pick.2.used pick.2.slots).map (fun sl => (pick.1, sl))

/-- A position is substituted: BAND record with EVENT 2, then the Band Table entry with REPAIR_MASK set (R124, R145). What was rebuilt at other positions
stays rebuilt. -/
def substitute (s : State) (pi band pos : Nat) : Option State :=
  match poolAt s pi, bandAt s pi band with
  | some p, some b =>
    match chooseSubstitute s p band b with
    | none => none
    | some (m, sl) =>
      let s := sendRec s pi (.band band b.gen 2 pos m sl)
      some (writeTables (setPool s pi (fun p =>
        { p with members := useSlots p.members [(m, sl)]
                 bands := tmod p.bands band (fun b =>
                   { b with members := b.members.set pos (m, sl), rebuilt := b.rebuilt.filter (fun x => x.1 != pos)
                            repairMask := if b.repairMask.contains pos then b.repairMask else pos :: b.repairMask
                            unknownRebuild := b.unknownRebuild.filter (· != pos) }) })) pi)
  | _, _ => none

/-- Largest NVMe Write of a drive in blocks: 1 MiB or its maximum data transfer size (R49). -/
def segMax (s : State) (slot : Nat) : Nat :=
  let m := (((driveAt s slot).ident).map (·.mdts)).getD 0
  if m = 0 then 256 else min 256 m

/-- Copies of log records of a band at a position go to a substitute drive (R73): the band closes to new records, and each record issued and not yet complete
there is written again at the same block offsets. A copy that failed on a substitute counts once against every unit of its record (R75). With no substitute to be
had the units are driven again elsewhere (log entry 52). -/
def retargetLog (s : State) (pi band pos : Nat) (failed : Bool) : State :=
  let s := closeBand s pi band
  let hits (p : Pool) : List (Nat × LogRec) :=
    (p.streams.zipIdx.map (fun x => (x.1.recs.filter (fun r => r.band == band && r.issued && !(r.donePos.contains pos))).map (fun r => (x.2, r)))).flatten
  let units (r : LogRec) : List Nat := (r.entries.filter (fun e => !e.dead)).map (·.wseq)
  let s := if failed then
      forAll ((((poolAt s pi).map hits).getD []).map (fun x => units x.2)).flatten (fun s w =>
        match unitAt s pi w with
        | some u => if 3 ≤ u.fails then dropUnit (markDead s pi u w) pi w 0x2B else setUnit s pi w (fun u => { u with fails := u.fails + 1 })
        | none => s) s
    else s
  match substitute s pi band pos with
  | none => forAll ((((poolAt s pi).map hits).getD []).map (fun x => (units x.2).take 1)).flatten (fun s w => redrive s pi w) s
  | some s =>
    match poolAt s pi, bandAt s pi band with
    | some p, some b =>
      match posDrive p b pos with
      | none => s
      | some (d, sl) =>
        forAll (hits p) (fun s x =>
          let s := setPool s pi (fun p =>
            { p with streams := p.streams.modify x.1 (fun st =>
                { st with recs := st.recs.map (fun r => if r.band = band ∧ r.headerBlock = x.2.headerBlock then { r with subst := pos :: r.subst } else r) }) })
          issueCmd s d .write (slotLba sl + x.2.headerBlock) (1 + x.2.dataBlocks) (.logRec pi x.1 band x.2.headerBlock pos) 0 false) s
    | _, _ => s

/-! ## Durability (R31, R32) -/

/-- The record of a log unit. -/
def recOf (p : Pool) (u : Unit) : Option LogRec :=
  ((p.streams.map (fun st => st.recs)).flatten).find? (fun r => r.band == u.band && r.headerBlock == u.hdrBlock)

/-- A unit meets the durability point: its blocks are on flash with the redundancy of its path, its locating record is valid, and where it is journaled the
intent and the data are on flash on every drive copy (R31, R65). -/
def durable (p : Pool) (u : Unit) : Bool :=
  u.stage == .writing && u.recValid && allHere u &&
  (!u.journaled || (u.jPlaced && u.jTodo.isEmpty && (match u.recSeq with
                                                    | some q => decide (q < p.copy.copied)
                                                    | none => false))) &&
  match u.path with
  | .mapOnly => true
  | .log =>
    match recOf p u, tget p.bands u.band with
    | some r, some b => (List.range b.w).all (fun j => r.donePos.contains j)
    | _, _ => false
  | _ => u.headers == 0 && u.targets.all (fun t => t.missing || t.onFlash == t.count)

/-- Mitten blocks of a pool: the Mitten divided in proportion to log reserves (R56). -/
def mittenShare (s : State) (p : Pool) : Nat :=
  let total := (s.pools.map (fun e => e.2.logReserveSlots)).sum
  if total = 0 then 0 else s.ctl.mittenGib * 2 ^ 18 * p.logReserveSlots / total

end Sys2Proof.Machine
end

