-- ==== Sys2Proof/Machine/WritePath.lean ====
section
/-! DEFINITION. The write path: classification of write commands (R43 to R46, R62, R68), stripes and accumulators (R47, R48), pulls (R35),
drive writes (R49), acknowledgement (R31, R46), in-place units (R64 to R66, R96), logs (R55), headers (R51), flushes (R34). -/

namespace Sys2Proof.Machine

/-! ## Classification -/

/-- What a write command does to its blocks. -/
inductive WKind where | write | zero | dealloc
deriving DecidableEq, Repr

/-- A new unit takes the next WRITE_SEQ and, of a host's command, an entry of the in-flight write table with its other units (R45). The first write to an
imported format-3 pool writes ledger copy 0 in format 4 (R149). -/
def addUnit (s : State) (pi : Nat) (u : Unit) : State × Nat :=
  match poolAt s pi with
  | none => (s, 0)
  | some p =>
    let w := p.wseq
    let s := firstWrite s pi
    let first := ((u.cmd.bind (cmdAt s)).bind (fun k => k.units.head?)).getD w
    let s := setPool s pi (fun p => { p with wseq := w + 1, units := tput p.units w { u with cmdSeq := first } })
    match u.cmd with
    | some slot => (setCmd s slot (fun k => { k with units := k.units ++ [w], unitCount := k.unitCount + 1 }), w)
    | none => (s, w)

/-- A unit before placement. -/
def freshUnit (v : Volume) (vol slot start count : Nat) (path : WPath) (kind : WKind) (guard : Bool) : Unit :=
  { vol := vol, cmd := some slot, start := start, count := count, path := path, stage := .waitPlace, keyGen := v.keyGen
    zero := kind == .zero, dealloc := kind == .dealloc, data := List.replicate count none, wantGuard := guard }

/-- A log unit of a piece, placed in a stream; none without log space. -/
def logUnit (s : State) (pi : Nat) (v : Volume) (vol slot start count : Nat) (kind : WKind) (guard direct : Bool) : Option State :=
  let u := { freshUnit v vol slot start count .log kind guard with intentOpen := direct
                                                                   data := if kind = WKind.zero then [] else List.replicate count none }
  (poolAt s pi).bind (fun p =>
    (placeLog s pi p.wseq (if kind = WKind.zero then 0 else count)).map (fun (s, band, hdr, off, e) =>
      let (s, w) := addUnit s pi { u with band := band, hdrBlock := hdr, off := if kind = WKind.zero then hdr else off, entry := e, stage := .writing }
      sendLocating s pi w))

/-- Unretired LOG_ENTRY records of direct volumes fill DIRECT_LOG_FRAC of the ring (R88). -/
def directLogFull (s : State) (p : Pool) : Bool :=
  let r := ringAt s p.ring
  let n := (r.slots.filter (fun x =>
    match x.2.body with
    | .logEntry true _ w vol _ _ _ _ _ _ _ => decide (r.tail ≤ x.2.seq) && !(r.retired.contains x.2.seq) &&
        ((((volAt s vol).map (·.pending)).getD []).any (fun b => b.wseq == w) || thas p.units w)
    | _ => false)).length
  decide (fld s .hbxRingCfg 23 16 * 1966080 ≤ n * 256)

/-- An in-place unit of a direct volume's run inside one stripe; every block is written under the current key generation (R42). -/
def directUnit (s : State) (pi : Nat) (p : Pool) (v : Volume) (vol slot : Nat) (c : Nat × Nat) (path : WPath) (kind : WKind) (guard : Bool) : State :=
  let (li, stripe, pos, row) := directPlace p.k p.stripShift c.1
  let u := { freshUnit v vol slot c.1 c.2 path .write guard with
             band := (v.bandList[li]?).getD 0, stripe := stripe, off := dataOff p.k p.stripShift stripe pos row, stage := .waitLock
             data := if kind = WKind.zero then
                 (List.range c.2).map (fun j => some (edgeBlock s vol v.keyGen (c.1 + j) (zeros 4096) none))
               else List.replicate c.2 none }
  (addUnit s pi u).1

/-- Divide a write into units (Table 2.3, R44, R68). Where log space runs out, what is left of a mapped write's remainder becomes padded stripes, each of as
many of the blocks as it holds (R62). -/
def classify (s : State) (pi vol slot start count : Nat) (kind : WKind) (guard : Bool) : State :=
  match poolAt s pi, volAt s vol with
  | some p, some v =>
    let S := p.k * stripBlocks p.stripShift
    match v.kind with
    | .mapped =>
      if kind != .write then
        let (s, w) := addUnit s pi { freshUnit v vol slot start count .mapOnly kind false with stage := .writing, data := [] }
        sendLocating s pi w
      else if layoutParity p.layout then
        let whole := if esLevel s = 3 then 0 else count / S
        let s := forAll (List.range whole) (fun s i => (addUnit s pi (freshUnit v vol slot (start + i * S) S .fullFresh kind guard)).1) s
        ((chunks 1024 (start + whole * S) (count - whole * S)).foldl (fun (acc : State × Bool) c =>
          if acc.2 then acc
          else
            match logUnit acc.1 pi v vol slot c.1 c.2 kind guard false with
            | some s => (s, false)
            | none =>
              (forAll (chunks S c.1 (start + count - c.1)) (fun s d => (addUnit s pi (freshUnit v vol slot d.1 d.2 .padded kind guard)).1) acc.1, true))
          (s, false)).1
      else
        forAll (chunks 4096 start count) (fun s c =>
          (addUnit s pi (freshUnit v vol slot c.1 c.2 (if layoutMirror p.layout then .freshRun else .plainRun) kind guard)).1) s
    | .direct =>
      if kind == .dealloc then s
      else
        forAll (cutAt S start count) (fun s c =>
          let whole := decide (c.2 = S) && decide (c.1 % S = 0)
          match p.layout with
          | 1 => directUnit s pi p v vol slot c .mirrorInPlace kind guard
          | 2 => directUnit s pi p v vol slot c .mirrorInPlace kind guard
          | 3 => directUnit s pi p v vol slot c .plainInPlace kind guard
          | 0 => directUnit s pi p v vol slot c (if whole then .fullInPlace else .rmw) kind guard
          | _ =>
            if whole then directUnit s pi p v vol slot c .fullInPlace kind guard
            else if directLogFull s p then directUnit s pi p v vol slot c .rmw kind guard
            else
              forAll (chunks 1024 c.1 c.2) (fun s d =>
                (logUnit s pi v vol slot d.1 d.2 kind guard true).getD (directUnit s pi p v vol slot d .rmw kind guard)) s) s
  | _, _ => s

/-- The data of a command's units that is at hand when it starts: the capsule's blocks, or a gather window's pages, which pass the edge now
(R34, R36, R38). -/
def supplyUnits (s : State) (pi slot : Nat) (blocks : List EdgeBlk) : State :=
  match cmdAt s slot with
  | none => s
  | some k =>
    forAll k.units (fun s w =>
      match unitAt s pi w with
      | none => s
      | some u =>
        if u.zero then s
        else takeBlocks s pi w ((List.range u.count).filterMap (fun j => (blocks[u.start - k.e.start + j]?).map (fun b => (j, b))))) s

/-! ## Stripes (R47, R48) -/

/-- The first free accumulator of the next Parity Unit, in turn, that has one and whose two strip buffers the fabric admits (R48, R190). -/
def freeAccumulator (s : State) (n : Nat) : Option Nat :=
  ((List.range 4).map (fun i => (s.par.next + i) % 4)).findSome? (fun u =>
    if flag s .parCtrl u && admits s (136 + u) n then
      (List.range 512).map (· + u * 512) |>.find? (fun i => !(thas s.par.accs i))
    else none)

/-- An open data band with room for a unit: the one with the lowest predicted completion time, else a new one (R47). A band that lost a member takes no more;
with an open band on every Command Engine one without room makes way. -/
def dataBand (s : State) (pi : Nat) (room : Band → Bool) : Option (Nat × State) :=
  let gone (p : Pool) : List Nat := (p.openBands.filter (fun e => ((tget p.bands e.2).map (fun b => b.state != .opened || !(lacking p b).isEmpty)).getD true)).map (·.2)
  let s := forAll (((poolAt s pi).map gone).getD []) (fun s n => retireBand s pi n) s
  match poolAt s pi with
  | none => none
  | some p =>
    let vals := p.openBands.filterMap (fun e => (tget p.bands e.2).bind (fun b => if room b then some (e.2, bandPredict s p b) else none))
    match steer vals p.bandRr with
    | some n => some (n, setPool s pi (fun p => { p with bandRr := p.bandRr + 1 }))
    | none =>
      (allocBand s pi 0 []).map (fun r =>
        let s := match freeKey p.openBands 0 24, p.openBands.head? with
          | none, some e => retireBand r.2 pi e.2
          | _, _ => r.2
        (r.1, writeTables (setPool s pi (fun p => { p with openBands := tput p.openBands ((freeKey p.openBands 0 24).getD 0) r.1 })) pi))

/-- An open fold band with room, or a new one; at most four are open, and one that lacks a member or room makes way (R47). -/
def foldBand (s : State) (pi : Nat) (room : Band → Bool) : Option (Nat × State) :=
  match poolAt s pi with
  | none => none
  | some p =>
    let fits (x : Nat) : Bool := ((tget p.bands x).map (fun b => b.state == .opened && (lacking p b).isEmpty && room b)).getD false
    match p.foldBands.find? fits with
    | some x => some (x, s)
    | none =>
      (allocBand s pi 2 []).map (fun r =>
        let s := if 4 ≤ p.foldBands.length then forAll (p.foldBands.take 1) (fun s x => retireBand s pi x) r.2 else r.2
        (r.1, writeTables (setPool s pi (fun p => { p with foldBands := p.foldBands ++ [r.1] })) pi))

/-- A fresh unit takes its stripe slot or run and its accumulator; with no accumulator free it waits, and with no band to be had its write is
out of space (R21, R47, R48, R50, R67). -/
def placeFresh (s : State) (pi w : Nat) : State :=
  match poolAt s pi, unitAt s pi w with
  | some p, some u =>
    if u.stage != .waitPlace then s
    else
      let sb := stripBlocks p.stripShift
      let whole := wholeStripe u.path
      let room (b : Band) : Bool :=
        if whole then decide (b.next < stripesPerBand b.stripShift) else decide (b.next + u.count ≤ bandBlocks b)
      let cells := 2 * sb * 4096 / 256
      let acc := if whole then freeAccumulator s cells else none
      if whole && acc.isNone then s
      else
        match (if u.fold then foldBand s pi room else dataBand s pi room) with
        | none => failUnit s pi w 0x28
        | some (bn, s) =>
          match poolAt s pi, bandAt s pi bn with
          | some p, some b =>
            let u1 := if whole then { u with band := bn, stripe := b.next, off := b.next * b.k * sb, acc := acc, stage := .writing }
              else { u with band := bn, stripe := b.next / (b.k * sb), off := b.next, stage := .writing }
            let u1 := { u1 with targets := unitTargets p b u1 }
            let s := setPool s pi (fun p =>
              { p with units := tput p.units w u1
                       bands := tmod p.bands bn (fun b => { b with next := if whole then b.next + 1 else b.next + u.count }) })
            let s := match acc with
              | some i =>
                let unit := i / 512
                let bind : AccBind :=
                  { acc := i, mode := .full, k := b.k, stripBytes := sb * 4096, rows := sb * 16, touched := []
                    targets := (u1.targets.filter (fun t => b.k ≤ t.pos)).map (fun t => 64 + t.slot), prio := 1, engine := enginePort (engineFor s (.unit pi w 0 0)), band := bn
                    firstBlock := u1.stripe * sb, generation := b.gen }
                let s := { s with par := { s.par with accs := tput s.par.accs i { bind := bind, boundAt := nowOf s, expected := accExpected bind }
                                                      next := (unit + 1) % 4 } }
                count (setOut s (136 + unit) (fun o => { o with charges := o.charges ++ [(i, cells)] })) (0x680 + unit)
              | none => s
            let s := sendLocating (queueHeaders (feedAcc s pi w) pi w) pi w
            if u.fails = 0 then s else carryOver s pi w
          | _, _ => s
  | _, _ => s

/-- STRIPE_ALLOCATE. -/
def execStripeAllocate (pool wseq : Nat) (s : State) : Res := .next (placeFresh s pool wseq)

/-! ## Pulls (R35) -/

/-- The length of a unit's next RDMA READ: at most 1 MiB, to the next strip boundary of the target stripe. -/
def pullLength (p : Pool) (u : Unit) : Nat :=
  let sb := stripBlocks p.stripShift
  let left := u.count * 4096 - u.pulled
  if u.path = .log then min 0x100000 left
  else
    let blk := u.off + u.pulled / 4096
    min (min 0x100000 left) ((sb - blk % sb) * 4096)

/-- The drive slots whose outputs a unit's data goes to: of a log unit its record's members, of a unit that waits for its lock those it will write (R35). -/
def pullSlots (p : Pool) (u : Unit) : List Nat :=
  match tget p.bands u.band with
  | none => []
  | some b =>
    if u.path = .log then (List.range b.w).filterMap (fun j => (posDrive p b j).map (·.1))
    else ((if u.targets.isEmpty then unitTargets p b u else u.targets).filter (fun t => !t.missing)).map (·.slot)

/-- One RDMA READ request of a pulled unit is issued: its data, then its guards, within the queue pair's outstanding reads and the free
cell-buffer space of the target outputs. -/
def pullOne (s : State) (pi w : Nat) : State :=
  match poolAt s pi, unitAt s pi w with
  | some p, some u =>
    match u.cmd.bind (fun slot => (cmdAt s slot).map (fun k => (slot, k))) with
    | none => s
    | some (_, k) =>
      if k.e.dataMode != 2 || u.zero || u.stage == .waitPlace || u.stage == .acked || u.stage == .failed then s
      else
        match queueAt s k.conn k.queue with
        | none => s
        | some q =>
          match qpAt s q.qp with
          | none => s
          | some x =>
            if x.state != .rts || decide (x.maxReads ≤ x.reads.length) then s
            else if u.pulled < u.count * 4096 then
              let n := pullLength p u
              if !((pullSlots p u).all (fun d => admits s (64 + d) ((n + 255) / 256))) then s
              else
                let s := qpRead s q.qp k.e.rkey (k.e.addr + (u.start - k.e.start) * 4096 + u.pulled) n pi w u.pulled
                let s := setCmd s ((u.cmd).getD 0) (fun k => { k with firstIo := k.firstIo.or (some (nowOf s)) })
                setUnit s pi w (fun u => { u with pulled := u.pulled + n })
            else if u.wantGuard && decide (u.pulled < u.count * 4104) then
              let s := qpRead s q.qp k.e.guardKey (k.e.guardAddr + (u.start - k.e.start) * 8) (u.count * 8) pi w (u.count * 4096)
              setUnit s pi w (fun u => { u with pulled := u.count * 4104 })
            else s
  | _, _ => s

/-- PULL_READ_ISSUE. -/
def execPullReadIssue (pool wseq : Nat) (s : State) : Res := .next (pullOne s pool wseq)

/-! ## Drive writes (R49) -/

/-- The port of a position issues the next segment of its strip once the segment's first 16 KiB, or the whole segment if smaller, has
arrived; a band's entry is on flash before its first stripe is written (R16). -/
def issueSegment (s : State) (pi w pos : Nat) : State :=
  match unitAt s pi w with
  | none => s
  | some u =>
    match bandAt s pi u.band, u.targets.find? (fun t => t.pos == pos) with
    | some b, some t =>
      if !(((poolAt s pi).map (fun p => entryOnFlash p u.band)).getD false) then s
      else if u.stage != .writing || u.path == .log || t.missing || decide (t.count ≤ t.issued) || !(driveOk s t.slot) then s
      else
        let n := min (segMax s t.slot) (t.count - t.issued)
        let x0 := (t.lba - slotLba 0) % 0x40000 + t.issued
        if !((List.range (min 4 n)).all (fun i => (unitBlk u.band b u pos (x0 + i)).isSome)) then s
        else
          let s := issueCmd s t.slot .write (t.lba + t.issued) n (.unit pi w pos t.issued) 0 false
          let s := match u.cmd with
            | some slot => setCmd s slot (fun k => { k with firstIo := k.firstIo.or (some (nowOf s)) })
            | none => s
          setUnit s pi w (fun u => { u with targets := u.targets.map (fun t => if t.pos = pos then { t with issued := t.issued + n } else t) })
    | _, _ => s

/-- DRIVE_WRITE_ISSUE. -/
def execDriveWriteIssue (pool wseq pos : Nat) (s : State) : Res := .next (issueSegment s pool wseq pos)

/-- A drive reads a block of write data through its port's window: answered when the cell has arrived, else held (R49). -/
def execDriveCellRead (port pool wseq pos block : Nat) (s : State) : Res :=
  .next <|
    match unitAt s pool wseq with
    | none => s
    | some u =>
      match bandAt s pool u.band with
      | none => s
      | some b =>
        if (unitBlk u.band b u pos block).isSome then emit s (.cellData port block true)
        else setUnit s pool wseq (fun u => { u with waitsHold := u.waitsHold ++ [(port, pos, block, nowOf s)] })

/-- An in-place unit whose cells did not come in time is driven again at its place: its data is fetched anew and every position written again; the fourth
failure fails it (R72, R75). -/
def againInPlace (s : State) (pi w : Nat) : State :=
  match unitAt s pi w with
  | none => s
  | some u =>
    if 3 ≤ u.fails then failUnit s pi w 0x2B
    else
      let pulled := ((u.cmd.bind (cmdAt s)).map (fun k => k.e.dataMode == 2)).getD false
      let s := forAll u.waitsHold (fun s h => emit s (.cellData h.1 h.2.2.1 false)) s
      setUnit (dropUnitCmds s pi w) pi w (fun u =>
        { u with fails := u.fails + 1, waitsHold := [], targets := u.targets.map (fun t => { t with issued := 0, done := 0, onFlash := 0 })
                 data := if pulled then u.data.map (fun _ => none) else u.data, raw := if pulled then [] else u.raw, pulled := if pulled then 0 else u.pulled })

/-- A held drive read whose cell did not arrive within 40 µs completes poisoned, and the unit is driven again (R49, R72, R74). -/
def execCellReadTimeout (port : Nat) (s : State) : Res :=
  .next <|
    let hit := s.pools.findSome? (fun e =>
      e.2.units.findSome? (fun u => (u.2.waitsHold.find? (fun h => h.1 == port)).map (fun h => (e.1, u.1, u.2, h))))
    match hit with
    | none => s
    | some (pi, w, u, h) =>
      let s := reach s (h.2.2.2 + 40000)
      let s := setUnit s pi w (fun u => { u with waitsHold := u.waitsHold.erase h })
      let s := emit s (.cellData port h.2.2.1 false)
      if inPlace u.path then againInPlace s pi w else redrive s pi w

/-- ACCUMULATOR_TIMEOUT: an accumulator that has not completed by its timeout is freed, and the unit whose stripe it was bound to is driven again (R191). -/
def execAccumulatorTimeout (acc : Nat) (s : State) : Res :=
  .next <|
    match tget s.par.accs acc with
    | none => s
    | some a =>
      if a.done then s
      else
        let mine := s.pools.findSome? (fun e => (e.2.units.find? (fun u => u.2.acc == some acc)).map (fun u => (e.1, u.1)))
        let s := accTimeout s acc a
        match mine with
        | some (pi, w) => redrive s pi w
        | none => s

/-! ## Latency windows (R10, R118, R119) -/

/-- Upper edge of a histogram bucket in ns: 1 µs × 2^((i+1)/4), by the integer fourth root. -/
def bucketEdge (i : Nat) : Nat :=
  let target := 1000 ^ 4 * 2 ^ (i + 1)
  (List.range 40).reverse.foldl (fun acc b => if (acc + 2 ^ b) ^ 4 ≤ target then acc + 2 ^ b else acc) 0

/-- The 99th percentile of a window's histogram: the upper edge of the bucket that reaches 99 % (R118). -/
def histP99 (h : Tab Nat) : Nat :=
  let total := (h.map (·.2)).sum
  if total = 0 then 0
  else
    (h.foldl (fun (acc : Nat × Option Nat) e =>
      let c := acc.1 + e.2
      (c, if acc.2.isNone ∧ 99 * total ≤ 100 * c then some (bucketEdge e.1) else acc.2)) (0, none)).2.getD 0

/-- The 99th percentile of a list of samples. -/
def listP99 (l : List Nat) : Nat :=
  let l := sortBy (fun a b => decide (a ≤ b)) l
  (l[(99 * l.length + 99) / 100 - 1]?).getD 0

def rollLat (l : Lat) : Lat := { l with p99 := histP99 l.hist, rate := (l.bytes : Rat) / 100000, hist := [], bytes := 0 }

/-- A 100 ms window is over once shelf time has reached its end: what comes then belongs to the next (R10). After a gap of more than a window the one
before was empty. Windows follow each other from shelf time 0 (log entry 56). -/
def rollWindow (s : State) : State :=
  if nowOf s < s.clk.latStart + 100000000 then s
  else
    let skipped := decide (s.clk.latStart + 200000000 ≤ nowOf s)
    let s := { s with pools := tmap s.pools (fun _ p =>
      let t := readAroundT s p
      let b := polOf p 0x16
      let f :=
        if b * p.readBytes < 100 * p.raBytes then min (p.f4 + 1) (polOf p 0x13)
        else if 200 * p.raBytes < b * p.readBytes ∧ t < (listP99 p.winLat : Rat) then max (p.f4 - 1) (polOf p 0x11)
        else p.f4
      { p with f4 := f, winLat := [], raBytes := 0, readBytes := 0, raCapped := false }) }
    let roll (l : Lat) : Lat := if skipped then rollLat (rollLat l) else rollLat l
    { s with drives := tmap s.drives (fun _ d => { d with rd := roll d.rd, wr := roll d.wr })
             clk := { s.clk with latStart := nowOf s / 100000000 * 100000000 } }

/-- A drive command leaves its drive's list, its latency sample taken (R118) and its completion counted; a command that waited for room in its queue goes out (R69). -/
def popCmd (s : State) (slot cid : Nat) : State :=
  let s := rollWindow s
  let d := driveAt s slot
  match d.cmds.find? (fun c => c.cid == cid) with
  | none => s
  | some c =>
    let bytes := c.count * 4096
    let linkNs : Nat := if d.gen = 7 then bytes / 29 else if d.gen = 6 then bytes * 2 / 29 else bytes / 7
    let x := nowOf s - c.submitAt - linkNs
    let bucket := ((List.range 64).find? (fun i => decide (x ^ 4 < 1000 ^ 4 * 2 ^ (i + 1)))).getD 63
    let upd (l : Lat) : Lat :=
      let l := { l with bytes := l.bytes + bytes, hist := tput l.hist bucket ((tget l.hist bucket).getD 0 + 1) }
      if c.count ≤ 32 then { l with mean := l.mean + ((x : Rat) - l.mean) / 16 } else l
    pumpQueue (count (setDrive s slot (fun d =>
      { d with cmds := d.cmds.filter (fun c => c.cid != cid), rd := if c.op = .read then upd d.rd else d.rd
               wr := if c.op = .write then upd d.wr else d.wr })) (0x6C0 + slot)) slot

/-- Blocks that a completed write put on a drive count as on flash for their owner (R32); `n` counts blocks, and names the member for what goes to the members
of a Hatbox band. -/
def onFlash (s : State) (o : CmdOwner) (n : Nat) : State :=
  match o with
  | .unit pi w pos _ =>
    setUnit s pi w (fun u => { u with targets := u.targets.map (fun t => if t.pos = pos then { t with onFlash := t.onFlash + n } else t) })
  | .header pi idx =>
    match (poolAt s pi).bind (fun p => p.copy.hdrInflight.find? (fun h => h.idx == idx)) with
    | none => s
    | some h =>
      let todo := h.todo.filter (· != n)
      if todo.isEmpty then
        let s := setPool s pi (fun p =>
          { p with copy := { p.copy with hdrInflight := p.copy.hdrInflight.filter (fun x => x.idx != idx), hdrPlaced := (idx, h.headers) :: p.copy.hdrPlaced } })
        forAll h.headers (fun s x => setUnit s pi x.wseq (fun u => { u with headers := u.headers - 1 })) s
      else setPool s pi (fun p =>
        { p with copy := { p.copy with hdrInflight := p.copy.hdrInflight.map (fun x => if x.idx = idx then { x with todo := todo } else x) } })
  | .jdata pi w first => setUnit s pi w (fun u => { u with jTodo := u.jTodo.filter (fun x => x != (n, first)) })
  | .logRec pi stream band hdr pos =>
    setPool s pi (fun p =>
      { p with streams := p.streams.modify stream (fun st =>
          { st with recs := st.recs.map (fun r => if r.band == band && r.headerBlock == hdr && r.issued then { r with donePos := pos :: r.donePos } else r) }) })
  | _ => s

/-- NVME_FLUSH_SUBMIT: a Flush covers every Write completed before it; at most one is outstanding (R34). -/
def execNvmeFlushSubmit (slot : Nat) (s : State) : Res :=
  .next <|
    let d := driveAt s slot
    if !d.flushed || d.unflushed.isEmpty || d.flushing.isSome then s
    else
      let s := setDrive s slot (fun d => { d with flushing := some d.unflushed, unflushed := [], nextCid := d.nextCid + 1, cached := d.cached.map (fun x => { x with covered := true }) })
      emit s (.nvme slot d.nextCid .flush 0 0 none (formOf d 0))

/-- A ring block may be overwritten: every stripe it names is acknowledged or abandoned, and the drive copy holds every record of those stripes (R51). -/
def hdrReusable (s : State) (p : Pool) (idx : Nat) : Bool :=
  let r := ringAt s p.ring
  let base := match p.copy.opening with
    | some o => o.hdrBase
    | none => p.copy.hdrBase
  match p.copy.hdrPlaced.find? (fun e => e.1 + 16384 == idx && decide (base ≤ e.1)) with
  | none => !(p.copy.hdrInflight.any (fun h => h.idx + 16384 == idx))
  | some (_, hs) => hs.all (fun h =>
      ((tget p.units h.wseq).map (fun u => u.stage == .acked)).getD true && !(r.queue.any (fun q => recWseq q.body == some h.wseq)) &&
        !(r.slots.any (fun e => recWseq e.2.body == some h.wseq && decide (p.copy.copied ≤ e.2.seq))))

/-- HEADER_RING_WRITE: up to 64 queued headers go into the next ring block, written to every ring member, with at most 8 in flight (R51). -/
def execHeaderRingWrite (pool : Nat) (s : State) : Res :=
  .next <|
    match poolAt s pool with
    | none => s
    | some p =>
      let c := p.copy
      let (band, ms) := newestCopy c
      if c.hdrQueue.isEmpty || decide (8 ≤ c.hdrInflight.length) || ms.isEmpty || !(entryOnFlash p band) || !(hdrReusable s p c.nextHdr) then s
      else
        let hs := c.hdrQueue.take 64
        let s := setPool s pool (fun p =>
          { p with copy := { p.copy with
              hdrQueue := p.copy.hdrQueue.drop 64, nextHdr := p.copy.nextHdr + 1
              hdrPlaced := p.copy.hdrPlaced.filter (fun e => e.1 + 16384 != c.nextHdr)
              hdrInflight := p.copy.hdrInflight ++ [{ idx := p.copy.nextHdr, band := band, headers := hs, todo := ms }] } })
        forAll ms (fun s m =>
          match copySlot s pool band m with
          | some (d, sl) => issueCmd s d .write (slotLba sl + hdrBlockAt c c.nextHdr) 1 (.header pool c.nextHdr) 0 false
          | none => s) s

/-- The 64 bytes of an entry header (Table 2.7). -/
def entryHdr (w : Nat) (u : Unit) : Bytes :=
  crcTail 60 (pack 60 [(0, 4, 0x4D4C4F47), (4, 1, 4), (5, 1, flagBits [u.intentOpen, u.keyGen != 0, u.zero]), (6, 2, u.count), (8, 8, w), (16, 2, u.vol)
    , (18, 2, u.keyGen), (20, 4, if u.zero then 0 else u.off - u.hdrBlock), (24, 8, u.start)])

/-- The block of a log record at an index: its header block, then its data blocks in entry order (R53). An entry whose unit is gone leaves zeros for its
header and padding for its blocks. -/
def logBlk (p : Pool) (r : LogRec) (i : Nat) : Option Blk :=
  match tget p.bands r.band with
  | none => none
  | some b =>
    let live (e : LogEnt) : Option Unit := if e.dead then none else tget p.units e.wseq
    if i = 0 then
      let hdr := crcTail 60 (pack 60 [(0, 4, 0x4C524543), (4, 1, 4), (5, 1, r.entries.length), (6, 2, r.dataBlocks), (8, 4, r.band), (12, 2, b.gen)
                                     , (16, 4, r.headerBlock), (24, 8, ((r.entries.head?).map (·.wseq)).getD 0), (32, 8, r.issuedAt)])
      some (sysBlk (padTo 4096 (hdr ++ (r.entries.map (fun e => ((live e).map (entryHdr e.wseq)).getD (zeros 64))).flatten)) r.band r.headerBlock)
    else
      match r.entries.find? (fun e => decide (e.off ≤ r.headerBlock + i ∧ r.headerBlock + i < e.off + e.count)) with
      | none => none
      | some e =>
        match live e with
        | some u => ((u.data[r.headerBlock + i - u.off]?).bind id).map (fun y => placed y b.gen)
        | none => some (sysBlk (zeros 4096) r.band (r.headerBlock + i))

/-- LOG_RECORD_ISSUE: the open record goes to its members when fewer than 4 record writes are in flight (R55), once its first 16 KiB are there
(R49). -/
def execLogRecordIssue (pool stream : Nat) (s : State) : Res :=
  .next <|
    match poolAt s pool with
    | none => s
    | some p =>
      match p.streams[stream]? with
      | none => s
      | some st =>
        match st.recs.find? (fun r => !r.issued), tget p.bands (((st.recs.find? (fun r => !r.issued)).map (·.band)).getD 0) with
        | some r, some b =>
          let busy := (st.recs.filter (fun x => x.issued && decide (x.donePos.length < b.w))).length
          if 4 ≤ busy ∨ entryOnFlash p r.band = false ∨ ¬ (List.range (min 4 (1 + r.dataBlocks))).all (fun i => (logBlk p r i).isSome) = true then s
          else
            let s := setPool s pool (fun p =>
              { p with streams := p.streams.modify stream (fun st =>
                  { st with recs := st.recs.map (fun x => if x.headerBlock = r.headerBlock ∧ x.band = r.band then { x with issued := true, issuedAt := nowOf s } else x) }) })
            forAll (List.range b.w) (fun s j =>
              match posDrive p b j with
              | some (d, sl) =>
                if driveOk s d then issueCmd s d .write (slotLba sl + r.headerBlock) (1 + r.dataBlocks) (.logRec pool stream r.band r.headerBlock j) 0 false else s
              | none => s) s
        | _, _ => s

/-! ## Acknowledgement (R31, R46) -/

/-- Records of a stream all of whose units have ended leave the list. -/
def dropRecs (p : Pool) : Pool :=
  { p with streams := p.streams.map (fun st =>
      { st with recs := st.recs.filter (fun r => !r.issued || r.entries.any (fun e => !e.dead && thas p.units e.wseq)) }) }

/-- The Mitten copies of a log unit's blocks, while the pool's share has room and unless they went missing (R56, R63, R73); the blocks count as logged in the
window (R58). -/
def mittenAdd (s : State) (pi w : Nat) (u : Unit) : State :=
  let s := rollFold s pi
  match poolAt s pi with
  | none => s
  | some p =>
    let room := if u.cold then 0 else mittenShare s p - p.mitten.length
    let gen := ((tget p.bands u.band).map (·.gen)).getD 0
    let new := (u.data.zipIdx.filterMap (fun x => x.1.map (fun e =>
      ({ vol := u.vol, block := u.start + x.2, wseq := w, blk := placed e gen } : MittenBlk))))
    setPool s pi (fun p =>
      { p with mitten := p.mitten ++ new.take room, logWinTotal := p.logWinTotal + u.count
               winBlocks := p.winBlocks ++ (List.range u.count).map (fun j => (u.vol, u.start + j, w)) })

/-- A running checkpoint's image takes a unit applied after the freeze whose records lie below the cut (R158 step 2); what the checkpoint will not write then
is only what is younger, as `since` was before (R159). -/
def ckptCatchUp (s : State) (pi w vol : Nat) (since : Option Nat) : State :=
  match poolAt s pi, (volAt s vol).bind (·.ckpt) with
  | some p, some c =>
    if c.job.isSome || c.rootSent then s
    else
      let recs := (ringAt s p.ring).slots.filter (fun e => recWseq e.2.body == some w && decide (e.2.seq < c.cut))
      let s := if recs.isEmpty then s else setVol s vol (fun v => { v with dirtySince := since })
      forAll recs (fun s e =>
        setVol s vol (fun v => { v with ckpt := v.ckpt.map (fun c =>
          let image := (c.image.map (fun l =>
            let l' := leafApply l e.2.body bodyExtent
            if l' = l then [l] else leafSplit l')).flatten
          { c with image := image, inner := growInner image (markParents c.image image c.inner) }) })) s
  | _, _ => s

/-- A unit whose blocks have moved: they leave the Mitten and the window's count, and of a direct volume the pending-block index, up to the log entry that
they came from (R56, R58, R60). -/
def dropMoved (s : State) (pi : Nat) (u : Unit) : State :=
  let hit (v b w : Nat) : Bool := u.moves.any (fun m => m.vol == v && m.block == b && decide (w ≤ m.wseq))
  let s := setPool s pi (fun p =>
    { p with mitten := p.mitten.filter (fun m => !(hit m.vol m.block m.wseq)), winBlocks := p.winBlocks.filter (fun x => !(hit x.1 x.2.1 x.2.2)) })
  if !(inPlace u.path) then s
  else
    let gone := (((volAt s u.vol).map (·.pending)).getD []).filter (fun x => hit u.vol x.block x.wseq)
    let s := forAll (gone.filter (fun x => !x.zeroes)) (fun s x => subLive s pi x.band 1) s
    setVol s u.vol (fun v => { v with pending := v.pending.filter (fun x => !(hit u.vol x.block x.wseq)) })

/-- The runs of volume blocks that an in-place unit writes: start and count. -/
def writtenRuns (b : Option Band) (u : Unit) : List (Nat × Nat) :=
  match u.rows, b with
  | some (r0, n), some b =>
    if b.mirror then [(u.start + r0, n)] else (List.range b.k).map (fun pos => (u.start + (dataOff b.k b.stripShift u.stripe pos r0 - u.off), n))
  | _, _ => [(u.start, u.count)]

/-- A read that looked into the table before a unit was there, and waits for the leaf of a block of it, comes before the unit's delta (R110). -/
def lookupWaits (s : State) (pi : Nat) (u : Unit) : Bool :=
  s.hq.cmds.any (fun e => e.2.pool == pi && e.2.reads.any (fun r =>
    (match r.src with
     | .page _ => true
     | _ => false) && unitTouches u e.2.e.volumeId r.block))

/-- The leaves that a unit's map deltas change are in their frames (R161). -/
def leavesHere (s : State) (u : Unit) : Bool :=
  let here (vol a n : Nat) : Bool :=
    match volAt s vol with
    | some v => v.kind == .direct || !v.rootLoaded || v.leaves.all (fun l => l.resident || decide (a + n ≤ l.low ∨ l.high ≤ a))
    | none => true
  if u.moves.isEmpty then here u.vol u.start u.count else u.moves.all (fun m => here m.vol m.block 1)

/-- A durable unit whose lower overlapping units are applied is applied, and its command may complete (R31, R46, R68, R110, R138, R394). -/
def ackUnit (s : State) (pi w : Nat) : State :=
  match poolAt s pi, unitAt s pi w with
  | some p, some u =>
    let blocked := p.units.any (fun e => decide (e.1 < w) && overlapping e.2 u && !e.2.applied)
    if !(durable p u) || blocked || (!(inPlace u.path) && (lookupWaits s pi u || !(leavesHere s u))) then s
    else
      let s := freeAcc s u.acc
      let s := setUnit s pi w (fun u => { u with acc := none })
      let s :=
        if inPlace u.path then
          let s := forAll (writtenRuns (tget p.bands u.band) u) (fun s r => noteGen s u.vol r.1 r.2 u.keyGen) s
          if u.rotation then s
          else if u.fold then dropMoved (clearBad s pi u.vol u.start u.count) pi u
          else supersede (clearBad s pi u.vol u.start u.count) pi u.vol u.start u.count w
        else
          let since (v : Nat) : Option Nat := (volAt s v).bind (·.dirtySince)
          let s := forAll (locating (tget p.bands u.band) u w) (fun s r => applyBody s pi r) s
          if !u.moves.isEmpty then forAll (u.moves.map (·.vol)).eraseDups (fun s v => ckptCatchUp s pi w v (since v)) (dropMoved s pi u)
          else
            let s := if u.intentOpen then clearBad s pi u.vol u.start u.count else supersede s pi u.vol u.start u.count w
            ckptCatchUp (if u.path = .log then mittenAdd s pi w u else s) pi w u.vol (since u.vol)
      let s := if inPlace u.path && (u.path != .plainInPlace || u.rotation) then
          setUnit s pi w (fun u => { u with stage := .acked, applied := true })
        else setPool s pi (fun p => dropRecs { p with units := tdel p.units w })
      let s := closeIfFull (unlock s pi w) pi u.band
      match u.cmd with
      | some slot => unitEnded s slot w
      | none => s
  | _, _ => s

/-- WRITE_ACK. -/
def execWriteAck (pool wseq : Nat) (s : State) : Res := .next (ackUnit s pool wseq)

/-- UNDELIVERED_NOTICE: a target is removed from the unit's delivery mask (R186): a log copy is re-targeted, a missing Mitten copy (target 64 or
above) makes the entry cold, any other target fails the unit there (R73, Table 2.11). -/
def execUndeliveredNotice (pool wseq target reason : Nat) (s : State) : Res :=
  .next <|
    match unitAt s pool wseq with
    | none => s
    | some u =>
      let _ := reason
      if 64 ≤ target then setUnit s pool wseq (fun u => { u with cold := true })
      else if u.path = .log then retargetLog s pool u.band target false else unitPosFailed s pool wseq target false

/-! ## In-place units (R64 to R66, R96, R395) -/

/-- Whether a read with a lower snapshot still waits for data of blocks a unit would overwrite (R111). -/
def readsPending (s : State) (pi w : Nat) (u : Unit) : Bool :=
  s.hq.cmds.any (fun e => e.2.pool == pi && e.2.e.volumeId == u.vol && decide (e.2.snapshot ≤ w) && e.2.status.isNone &&
    e.2.reads.any (fun r => covers u u.vol r.block && r.got.isNone && r.bad.isNone &&
      (match r.src with
       | .flash _ _ _ => true
       | _ => false)))

/-- What a unit's parity needs of the rows it touches (R64): where it touches at most k / 2 data strips of a row and all of the old touched blocks, P and Q can
be had, those; else the untouched blocks, a lost one entering as zeros (R133). -/
structure Captured where
  olds : List (Nat × Nat × Bytes) := []
  delta : List Nat := []
  lost : List (Nat × Nat) := []
deriving DecidableEq, Repr

/-- A block of a row as it stands, reconstructed where it fails its check. -/
def oldCell (s : State) (pi : Nat) (p : Pool) (band : Nat) (b : Band) (stripe pos row : Nat) (bad : List (Nat × Nat)) : Option Bytes :=
  if pos < b.k then fetchRow s pi p band b stripe pos row bad
  else
    match (readPos s pi p band b stripe pos row bad).bind (fun x => if rowOk s pi band b stripe pos row x then some x else none) with
    | some x => some x.data
    | none => (rebuildBlk s pi p band b stripe pos row bad).map (·.data)

/-- The reads of one row for a unit's parity. -/
def captureRow (s : State) (pi : Nat) (p : Pool) (b : Band) (u : Unit) (row : Nat) (bad : List (Nat × Nat)) : Captured :=
  let mine (i : Nat) : Bool := (ownIdx b u (dataOff b.k b.stripShift u.stripe i row)).isSome
  let touched := (List.range b.k).filter mine
  let get (i : Nat) : Nat × Nat × Option Bytes := (i, row, oldCell s pi p u.band b u.stripe i row bad)
  let known (l : List (Nat × Nat × Option Bytes)) : List (Nat × Nat × Bytes) := l.filterMap (fun e => e.2.2.map (fun y => (e.1, e.2.1, y)))
  let rmw := if 2 * touched.length ≤ b.k then (touched ++ [b.k, b.k + 1]).map get else []
  if !rmw.isEmpty && rmw.all (fun e => e.2.2.isSome) then { olds := known rmw, delta := [row] }
  else
    let rest := ((List.range b.k).filter (fun i => !(mine i))).map get
    { olds := rest.map (fun e => (e.1, e.2.1, (e.2.2).getD (zeros 4096))), lost := (rest.filter (fun e => e.2.2.isNone)).map (fun e => (e.1, e.2.1)) }

/-- The reads of all rows of a unit. -/
def captureRows (s : State) (pi : Nat) (p : Pool) (b : Band) (u : Unit) (bad : List (Nat × Nat)) : Captured :=
  if !b.parity then {}
  else
    let (r0, rn) := rowHull b u
    (List.range rn).foldl (fun (acc : Captured) i =>
      let c := captureRow s pi p b u (r0 + i) bad
      { olds := acc.olds ++ c.olds, delta := acc.delta ++ c.delta, lost := acc.lost ++ c.lost }) {}

/-- Blocks that the reads of a unit's rows found bad: each is a media event, and one that the unit does not write is mended (R116). -/
def captureMedia (s : State) (pi : Nat) (u : Unit) (c : Captured) (bad : List (Nat × Nat)) : State :=
  match poolAt s pi, bandAt s pi u.band with
  | some p, some b =>
    forAll (c.olds.map (fun e => e.2.1)).eraseDups (fun s row =>
      forAll (badCells s pi p u.band b u.stripe row bad) (fun s x =>
        if !(c.olds.any (fun e => e.1 == x.1 && e.2.1 == row)) then s
        else
          let s := mediaEvent s x.2.1 x.2.2.1 x.2.2.2
          if c.delta.contains row then s else (mendCell s pi u.band u.stripe x.1 row bad).getD s) s) s
  | _, _ => s

/-- The log entries that a fold unit applies are still the newest of their blocks (R60, R394). -/
def foldFresh (s : State) (u : Unit) : Bool :=
  u.moves.all (fun m => ((((volAt s u.vol).map (·.pending)).getD []).filter (fun x => x.block == m.block)).getLast?.map (·.wseq) == some m.wseq)

/-- The rows of a rotation unit under the new key, position by position (R42): read, decrypted under the generation recorded for each block, encrypted under
the new one. A block that is lost counts as zeros, and is poisoned (R133). None while a key is not loaded. -/
def rotationData (s : State) (pi : Nat) (p : Pool) (b : Band) (u : Unit) (bad : List (Nat × Nat)) : Option (List EdgeBlk × List (Nat × Nat)) :=
  match volAt s u.vol, u.rows, directOwner s pi u.band with
  | some v, some (r0, n), some (_, li) =>
    if !(keysLoaded s u.vol v) then none
    else
      let cells := ((List.range b.k).map (fun pos => (List.range n).map (fun i => (pos, r0 + i)))).flatten
      let got := cells.map (fun c =>
        let block := directBlock b li u.stripe c.1 c.2
        (c, block, (fetchData s pi p u.band b u.stripe c.1 c.2 u.vol block bad false).bind (fun y =>
          rekeyBytes s v u.vol (directKeyGen v block li u.stripe c.2) u.keyGen block y.1)))
      some (got.map (fun g => { blk := mkBlk ((g.2.2).getD (zeros 4096)) (volRef 4 u.vol g.2.1) 0, guardOk := true }),
        (got.filter (fun g => g.2.2.isNone)).map (·.1))
  | _, _, _ => none

/-- Lost blocks of a direct volume's stripe are poisoned, those of them that are not yet (R64, R133). -/
def poisonCells (s : State) (pi band : Nat) (b : Band) (stripe : Nat) (lost : List (Nat × Nat)) : State :=
  forAll lost (fun s c =>
    match directOwner s pi band with
    | some (v, i) =>
      let block := directBlock b i stripe c.1 c.2
      if ((poolAt s pi).bind (fun p => bbtAt p v block)).isSome then s
      else poisonBlocks s pi v block 1 false (if b.k = 1 ∨ b.parity then 1 else 3) band stripe c.1
    | none => s) s

/-- STRIPE_LOCK_GRANT: the stripe lock, granted in WRITE_SEQ order (R66); a rotation's data, or the reads of R64; poison of untouched blocks that are lost; the
header and the INTENT, or first the journaled data where the stripe is degraded or the unit rotates a key (R65, R96). -/
def grantLock (s : State) (pi w : Nat) (bad : List (Nat × Nat)) : State :=
  match poolAt s pi, unitAt s pi w with
  | some p, some u =>
    match tget p.bands u.band with
    | none => s
    | some b =>
      let earlier := p.units.any (fun e => decide (e.1 < w) && e.2.stage == .waitLock && e.2.band == u.band && e.2.stripe == u.stripe)
      if u.stage != .waitLock || lockHeld s pi u.band u.stripe || earlier then s
      else if u.fold && !(foldFresh s u) then dropUnit s pi w 0
      else
        let rot := if u.rotation then rotationData s pi p b u bad else some ([], [])
        match rot with
        | none => s
        | some (rdata, rlost) =>
          let u := if u.rotation then { u with data := rdata.map some } else u
          let lack := stripeLacks p b u.stripe
          let targets := (unitTargets p b u).map (fun t => if lack.contains t.pos then { t with missing := true } else t)
          let deg := u.rotation || (!lack.isEmpty && u.path != .plainInPlace)
          if deg && (decide (16384 < journalHeld p + u.data.length) || !(allHere u)) then s
          else
            let c := captureRows s pi p b u bad
            let s := setPool s pi (fun p => { p with locks := p.locks ++ [(u.band, u.stripe, w)] })
            let s := poisonCells (captureMedia s pi u c bad) pi u.band b u.stripe (c.lost ++ rlost)
            let s := setUnit s pi w (fun x =>
              { x with data := u.data, targets := targets, oldRows := c.olds, delta := c.delta, journaled := deg, stage := .waitIntent })
            let s := serveReads (queueHeaders s pi w) pi w
            if deg then journalUnit s pi w else sendLocating s pi w
  | _, _ => s

/-- STRIPE_LOCK_GRANT. -/
def execStripeLockGrant (pool wseq : Nat) (bad : List (Nat × Nat)) (s : State) : Res := .next (grantLock s pool wseq bad)

/-- Whether a unit's in-place writes may be issued (R96, R111): its INTENT is valid and its header on flash; with journaled data, the intent and the data are
on flash on every copy member. A host's plain-stripe unit has no intent. -/
def inplaceReady (s : State) (pi w : Nat) : Bool :=
  match poolAt s pi, unitAt s pi w with
  | some p, some u =>
    u.stage == .waitIntent && u.recValid && u.headers == 0 && !(readsPending s pi w u) &&
      (!u.journaled || (u.jPlaced && u.jTodo.isEmpty && (match u.recSeq with
                                                        | some q => decide (q < p.copy.copied)
                                                        | none => false)))
  | _, _ => false

/-- INPLACE_WRITE_ISSUE. -/
def execInplaceWriteIssue (pool wseq : Nat) (s : State) : Res :=
  .next <|
    let s := journalUnit s pool wseq
    if inplaceReady s pool wseq then
      let s := match unitAt s pool wseq with
        | some u => touchBand s pool u.band
        | none => s
      setUnit s pool wseq (fun u => { u with stage := .writing })
    else s

/-- INTENT_CLOSE: a completion record closes the intent of an acknowledged unit, except while a position still has to be moved (R64, R395). -/
def execIntentClose (pool wseq : Nat) (s : State) : Res :=
  .next <|
    match unitAt s pool wseq with
    | none => s
    | some u =>
      if u.stage != .acked || u.closing || !u.toMove.isEmpty then s
      else setUnit (sendRec s pool (.intentDone wseq u.vol u.band u.stripe)) pool wseq (fun u => { u with closing := true })

end Sys2Proof.Machine
end

