-- ==== Sys2Proof/Machine/Hatbox.lean ====
section
/-! DEFINITION. The Hatbox (chapter 3): record acceptance and validity (R81, R85), ring space (R87, R88), wear (R106), the drive copy (R90, R91, R94),
epochs (R93), remaps and drive-journal mode (R103, R104), self-test (R331); and what follows a valid record: key rotation's pointer (R96). -/

namespace Sys2Proof.Machine

/-- Record slots of a ring (R78). -/
def ringN : Nat := 1966080

def ringFree (r : Ring) : Nat := ringN - (r.head - r.tail)

/-- Free slots below a fraction in 1/256 of N. -/
def freeBelow (r : Ring) (frac : Nat) : Bool := decide (ringFree r * 256 < frac * ringN)

/-- The pool that holds a ring. -/
def poolOfRing (s : State) (ring : Nat) : Option (Nat × Pool) := s.pools.find? (fun e => e.2.ring == ring)

/-! ## MRAM lines and segments (Table 3.1, R106) -/

/-- Logical segment of a ring slot (Table 3.1). -/
def segmentOf (ring slot : Nat) : Nat := 32 + ring * 120 + slot * 64 / 2 ^ 20

/-- Spare segments in no use and not failed (Table 3.1). -/
def spareSegments (h : Hatbox) : List Nat :=
  ((List.range 28).map (4 + ·)).filter (fun g => !(h.segFailed.contains g) && !(h.remap.any (fun e => e.2 == g)))

/-- The physical segment that holds a logical one (R103). -/
def physOf (h : Hatbox) (seg : Nat) : Nat := (tget h.remap seg).getD seg

/-- A line of a logical segment is written. -/
def countLine (s : State) (seg line : Nat) : State :=
  let l := physOf s.hbx seg * 16384 + line
  { s with hbx := { s.hbx with lineWrites := tput s.hbx.lineWrites l ((tget s.hbx.lineWrites l).getD 0 + 1) } }

/-- The line of a record slot is written. -/
def countSlot (s : State) (ring seq : Nat) : State := countLine s (segmentOf ring (seq % ringN)) (seq % ringN % 16384)

/-- A pool directory entry is rewritten (R79). -/
def setDir (s : State) (ring : Nat) (f : DirEntry → DirEntry) : State :=
  countLine (setRing s ring (fun r => { r with dir := f r.dir })) 0 ring

/-- A whole ring is written to zero: every line of its segments once (R78). -/
def zeroRing (s : State) (ring : Nat) : State :=
  let segs := (List.range 120).map (fun i => physOf s.hbx (32 + ring * 120 + i))
  let s := { s with hbx := { s.hbx with segWrites := segs.foldl (fun t g => tput t g ((tget t g).getD 0 + 1)) s.hbx.segWrites } }
  setRing s ring (fun r => { r with slots := [] })

/-! ## Operations (R275) and the rotation pointer (R42, R96) -/

/-- An operation ends with a status: 0 done, other values failed; event 1 reports it (Table 10.6). -/
def endOp (s : State) (op status : Nat) : State :=
  match tget s.ctl.ops op with
  | none => s
  | some o =>
    if o.state != 1 then s
    else
      let s := { s with ctl := { s.ctl with ops := tput s.ctl.ops op { o with state := if status = 0 then 2 else 3, status := status, ended := nowOf s } } }
      mgmt s 1 op status

/-- The running operation of an opcode on a volume. -/
def volOp (s : State) (opcode vol : Nat) : Option Nat :=
  (s.ctl.ops.find? (fun e => e.2.state == 1 && e.2.opcode == opcode && e.2.obj == .volume vol)).map (·.1)

/-- A rotation ends: every block is under the current key, the previous key is discarded and its KEY_ROTATE operation ends (R42). -/
def endRotation (s : State) (vol : Nat) : State :=
  match volAt s vol with
  | none => s
  | some v =>
    let s := { s with ctl := { s.ctl with keys := s.ctl.keys.filter (fun k => !(k.vol == vol && k.gen == v.prevKeyGen)) } }
    let s := setVol s vol (fun v => { v with rotating := false, rotation := none, prevKeyGen := 0, gens := [] })
    let s := writeTables s v.pool
    match volOp s 0x0703 vol with
    | some o => endOp s o 0
    | none => s

/-- The rotation pointer after a step of n rows. -/
def rotationNext (p : Pool) (r : Rotation) (n : Nat) : Rotation :=
  if r.row + n < stripBlocks p.stripShift then { r with row := r.row + n }
  else if r.stripe + 1 < stripesPerBand p.stripShift then { r with stripe := r.stripe + 1, row := 0 }
  else { list := r.list + 1, stripe := 0, row := 0 }

/-- The INTENT_DONE of a rotation's intent is valid: a KEY_ROTATE record advances the pointer, and one with DONE ends the rotation (R96). -/
def rotationOn (s : State) (pi : Nat) (u : Unit) : State :=
  match poolAt s pi, volAt s u.vol, u.rows with
  | some p, some v, some (r0, n) =>
    match v.rotation with
    | none => s
    | some r =>
      if v.bandList[r.list]? = some u.band ∧ r.stripe = u.stripe ∧ r.row = r0 then
        let nx := rotationNext p r n
        if v.bandList.length ≤ nx.list then endRotation (sendRec s pi (.keyRotate true u.vol v.keyGen nx.list 0 0)) u.vol
        else setVol (sendRec s pi (.keyRotate false u.vol v.keyGen nx.list nx.stripe nx.row)) u.vol (fun v => { v with rotation := some nx })
      else s
  | _, _, _ => s

/-! ## Bands of the copy, and the end of a band -/

/-- FORMAT_OLDEST becomes 4 once the last band of format 3 is gone or converted (R147, R150). -/
def ageFormat (s : State) (pi : Nat) : State :=
  match poolAt s pi with
  | some p =>
    if p.formatOldest = 3 ∧ ¬ p.bands.any (fun e => e.2.state != .free && (e.2.fmt == 3 || e.2.state == .converting)) = true then
      writeLedger (setPool s pi (fun p => { p with formatOldest := 4 })) pi
    else s
  | none => s

/-- Release the slots of a band and free its entry: BAND record with EVENT 1, then the Band Table (R145). -/
def freeBandOf (s : State) (pi band : Nat) : State :=
  match bandAt s pi band with
  | none => s
  | some b =>
    if b.state = .free then s
    else
      let s := sendRec s pi (.band band b.gen 1 0 0 0)
      let held := b.members ++ (b.evac.map (fun e => (e.2.1, e.2.2))).toList
      ageFormat (writeTables (setPool s pi (fun p =>
        { p with members := releaseSlots p.members held
                 openBands := p.openBands.filter (fun e => e.2 != band), foldBands := p.foldBands.filter (· != band)
                 mends := p.mends.filter (fun m => m.band != band), relocs := p.relocs.filter (fun r => r.band != band)
                 bands := tmod p.bands band (fun b =>
                   { b with state := .free, live := 0, repairMask := [], rebuilt := [], unknownRebuild := [], evac := none, next := 0, abandoned := []
                            scrubNext := 0, movesSeq := 0 }) })) pi) pi

/-- The band of the previous epoch is freed once the ledger that names the new one is on flash (R93 step 6). -/
def freeOld (s : State) (pi : Nat) : State :=
  match poolAt s pi with
  | some p =>
    match p.copy.freeing with
    | some (band, job) => if jobDone p job then freeBandOf (setPool s pi (fun p => { p with copy := { p.copy with freeing := none } })) pi band else s
    | none => s
  | none => s

/-! ## Checkpoint sets (R93 steps 2 and 3) -/

/-- The checkpoint set of an opening epoch: every unretired record from the tail to the SEQ of its EPOCH_OPEN. -/
def ckptSet (s : State) (p : Pool) (r : Ring) (openSeq : Nat) : List Rec :=
  sortBy (fun a b => decide (a.seq ≤ b.seq))
    ((r.slots.map (·.2)).filter (fun x => decide (r.tail ≤ x.seq ∧ x.seq ≤ openSeq) && !(isRetired s p r x)))

/-- Records cut into pages of at most 63 with ascending SEQs and no gap (R90). -/
def pageRuns (l : List Rec) : List (List Rec) :=
  (l.foldl (fun (acc : List (List Rec)) x =>
    match acc with
    | (y :: t) :: r => if y.seq + 1 = x.seq ∧ t.length < 62 then (x :: y :: t) :: r else [x] :: acc
    | _ => [x] :: acc) []).reverse.map List.reverse

/-- A journal page as a system block of a band's slot: its place in the area, its epoch, the time of its issue, its records (Table 3.8). -/
def pageBlk (gen band epoch place time : Nat) (recs : List Rec) : SysBlk :=
  { body := .journalPage { gen := gen, band := band, epoch := epoch, index := pageBlock place, first := ((recs.head?).map (·.seq)).getD 0
                           last := ((recs.getLast?).map (·.seq)).getD 0, time := time } recs
    ref := sysRef band (pageBlock place) }

/-- A page of the checkpoint set takes a place of the new band's area; answers its writes to the members. -/
def setPage (s : State) (pi : Nat) (o : Opening) (recs : List Rec) : State × List (Nat × SysPut) :=
  let blk : AreaBlk := { idx := 0, first := ((recs.head?).map (·.seq)).getD 0, last := ((recs.getLast?).map (·.seq)).getD 0, ckpt := true }
  match takeArea s pi o.band 1 blk with
  | none => (s, [])
  | some (place, s) =>
    let x := pageBlk (((bandAt s pi o.band).map (·.gen)).getD 0) o.band o.epoch place (nowOf s) recs
    (s, (o.members.filterMap (copySlot s pi o.band)).map (fun m => (m.1, .block (slotLba m.2 + pageBlock place) x)))

/-- The journaled data of an intent, from its unit or, with the unit gone, from a copy of the band in use. -/
def intentData (s : State) (pi w page n : Nat) : List Blk :=
  match poolAt s pi with
  | none => []
  | some p =>
    if !(jdataBlks s pi w).isEmpty then jdataBlks s pi w
    else
      let from_ := p.copy.members.filterMap (copySlot s pi p.copy.band)
      (List.range n).filterMap (fun i => from_.findSome? (fun m => lbaBlk (driveAt s m.1) (slotLba m.2 + page + i)))

/-- Journaled data of the unretired intents of a set, at its DATA_PAGE in the new band (R93 step 3). -/
def setData (s : State) (pi : Nat) (o : Opening) (set : List Rec) : State × List (Nat × SysPut) :=
  set.foldl (fun (acc : State × List (Nat × SysPut)) x =>
    match x.body with
    | .intent true _ _ _ w _ _ _ _ _ _ _ _ page n =>
      let l := intentData acc.1 pi w page n
      let place := page - pageBlock 0
      let s := setPool acc.1 pi (fun p =>
        { p with copy := { p.copy with area := p.copy.area ++ [{ band := o.band, idx := place, count := l.length, data := some w, ckpt := true }] } })
      (s, acc.2 ++ ((o.members.filterMap (copySlot s pi o.band)).map (fun m => l.zipIdx.map (fun y => (m.1, SysPut.data (slotLba m.2 + page + y.2) y.1)))).flatten)
    | _ => acc) (s, [])

/-- Step 3 of R93, once EPOCH_OPEN and every record below it have been written: the journal area of the new band starts with a page holding EPOCH_OPEN, then
the checkpoint set follows with its journaled data, and CHECKPOINT_END is offered with the count, SEQs and SET_CRC of the set. -/
def startSet (s : State) (pi : Nat) : State :=
  match poolAt s pi with
  | none => s
  | some p =>
    match p.copy.opening.bind (fun o => o.openSeq.map (fun q => (o, q))) with
    | none => s
    | some (o, q) =>
      let r := ringAt s p.ring
      if !o.set.isEmpty || r.inflight.any (fun i => decide (i.1 ≤ q)) || !(entryOnFlash p o.band) then s
      else
        let set := ckptSet s p r q
        let (s, data) := setData s pi o set
        let (s, puts) := (pageRuns (set.filter (fun x => x.seq == q)) ++ pageRuns set).foldl (fun (acc : State × List (List (Nat × SysPut))) l =>
          let (s, x) := setPage acc.1 pi o l
          (s, acc.2 ++ [x])) (s, [])
        -- 4 pages at a time (R91)
        let phases := (List.range ((puts.length + 3) / 4)).map (fun i => ((puts.drop (4 * i)).take 4).flatten)
        let id := ((poolAt s pi).map (·.nextJob)).getD 0
        let s := addJobs s pi true [] [] (data :: phases)
        let s := setPool s pi (fun p => { p with copy := { p.copy with opening := p.copy.opening.map (fun o => { o with set := set, setJob := id }) } })
        sendRec s pi (.checkpointEnd o.epoch set.length ((set.head?.map (·.seq)).getD q) ((set.getLast?.map (·.seq)).getD q)
          (crc32c (set.map recBytes).flatten).toNat)

/-! ## Acceptance and validity -/

/-- A request whose unit must wait for the records of a lower-numbered overlapping unit of its volume (R157). -/
def recBlocked (p : Pool) (q : RecReq) : Bool :=
  !q.carried &&
  match (recWseq q.body).bind (fun w => (tget p.units w).map (fun u => (w, u))) with
  | some (w, u) => !(inPlace u.path) && p.units.any (fun e =>
      decide (e.1 < w) && overlapping e.2 u && !(inPlace e.2.path) && !(e.2.recSent && e.2.recsLeft == 0) && e.2.stage != .failed && !e.2.applied)
  | none => false

/-- ACKED_BELOW: every unit with a lower WRITE_SEQ is acknowledged or abandoned (R86). -/
def ackedBelow (p : Pool) : Nat :=
  ((p.units.find? (fun e => e.2.stage != .acked && e.2.stage != .failed)).map (·.1)).getD p.wseq

/-- A record body as it is written: EPOCH_OPEN carries its own SEQ as START_SEQ (log entry 27), and a WATERMARK what holds when it is written (R86). A
record copied forward keeps its body (R87). -/
def bodyAt (s : State) (ring seq : Nat) (q : RecReq) : RecBody :=
  match q.carried, q.body, poolOfRing s ring with
  | false, .epochOpen e p b pb _ c r, _ => .epochOpen e p b pb seq c r
  | false, .watermark _ _ _ _, some (_, p) => .watermark (ackedBelow p) (ringAt s ring).tail p.wseq (nowOf s)
  | _, b, _ => b

/-- The record that a request becomes: EPOCH is the epoch when it was first written (Table 3.3). -/
def recAt (s : State) (ring : Nat) (q : RecReq) : Rec :=
  let r := ringAt s ring
  { carried := q.carried, epoch := if q.carried then q.epoch else r.epoch, seq := r.head, body := bodyAt s ring r.head q }

/-- A record takes the next SEQ and its ring slot, and its MRAM write is issued; in drive-journal mode DRAM holds it (R81, R104). -/
def acceptRec (s : State) (ring : Nat) (q : RecReq) : State :=
  let x := recAt s ring q
  let s := setRing s ring (fun r =>
    { r with head := x.seq + 1, queue := r.queue.erase q, slots := tput r.slots (x.seq % ringN) x
             inflight := if s.hbx.driveJournal then r.inflight else r.inflight ++ [(x.seq, 0)] })
  let s := count s (0x600 + ring)
  match poolOfRing s ring with
  | none => s
  | some (pi, _) =>
    match recWseq q.body, q.body with
    | some w, _ => setUnit s pi w (fun u => { u with recSeq := some x.seq, recsLeft := u.recsLeft - 1 })
    | none, .epochOpen e _ b _ _ _ _ =>
      setPool s pi (fun p => { p with copy := { p.copy with opening := p.copy.opening.map (fun o =>
        if o.epoch = e ∧ o.band = b then { o with openSeq := some x.seq } else o) } })
    | none, _ => s

/-- A record of a unit is offered once more as a copy: its original is retired, and the unit waits for the copy (R87, R103). -/
def recAgain (s : State) (ring : Nat) (x : Rec) : State :=
  let s := setRing s ring (fun r => { r with retired := x.seq :: r.retired })
  match poolOfRing s ring, recWseq x.body with
  | some (pi, _), some w => setUnit s pi w (fun u => { u with recsLeft := u.recsLeft + 1 })
  | _, _ => s

/-- Whether a SEQ is valid everywhere that counts: in MRAM, or in drive-journal mode on every copy member (R85, R104). -/
def seqValid (s : State) (p : Pool) (q : Nat) : Bool :=
  !((ringAt s p.ring).inflight.any (fun i => i.1 == q)) && (!s.hbx.driveJournal || decide (q < p.copy.copied))

/-- What waits for system writes or records goes on: jobs, the checkpoint set of an epoch, the band of the previous one, reads that wait for a loss record. -/
def systemOn (s : State) (pi : Nat) : State := startSet (retryReads (freeOld (pumpJobs s pi) pi) pi) pi

/-- Units whose INTENT_DONE is valid leave the table; a rotation's pointer moves on (R96). -/
def closeUnits (s : State) (pi : Nat) : State :=
  match poolAt s pi with
  | none => s
  | some p =>
    let r := ringAt s p.ring
    let done := p.units.filter (fun e => e.2.closing && hasDone r e.1 && r.slots.any (fun x =>
      match x.2.body with
      | .intentDone w _ _ _ => w == e.1 && seqValid s p x.2.seq
      | _ => false))
    forAll done (fun s e =>
      let s := setPool s pi (fun p => { p with units := tdel p.units e.1 })
      closeIfFull (if e.2.rotation then rotationOn s pi e.2 else s) pi e.2.band) s

/-- Records of a ring have become valid: units whose locating records are all valid are told (R85), closed intents end, and what waited for records goes
on. In drive-journal mode a record is valid when its page is on every copy member (R104). -/
def noteValid (s : State) (ring : Nat) : State :=
  match poolOfRing s ring with
  | none => s
  | some (pi, _) =>
    let r := ringAt s ring
    let s := setPool s pi (fun p =>
      { p with units := tmap p.units (fun w u =>
          if !u.recSent || u.recValid then u
          else
            let waiting := u.recsLeft != 0 || r.queue.any (fun q => recWseq q.body == some w)
            let flying := r.inflight.any (fun i => ((tget r.slots (i.1 % ringN)).bind (fun x => recWseq x.body)) == some w)
            { u with recValid := !waiting && !flying && (u.recSeq.map (seqValid s p)).getD false }) })
    systemOn (closeUnits s pi) pi

/-- The record at the tail is copied forward when it is unretired and free slots are below the carry-forward threshold (R87). -/
def carryTail (s : State) (ring : Nat) : State :=
  let r := ringAt s ring
  match poolOfRing s ring, tget r.slots (r.tail % ringN) with
  | some (_, p), some x =>
    if freeBelow r (fld s .hbxRingCfg 7 0) && x.seq == r.tail && decide (r.tail < r.head) && !(isRetired s p r x) then
      setRing (recAgain s ring x) ring (fun r => { r with queue := r.queue ++ [carryReq x] })
    else s
  | _, _ => s

/-- A ring's stall under R88 is entered or left. -/
def ringStall (s : State) (ring : Nat) : State :=
  let r := ringAt s ring
  let st := freeBelow r (fld s .hbxRingCfg 15 8)
  let s := if st && !r.stalled then setBit s .hbxEvent 2 else s
  setRing s ring (fun r => { r with stalled := st })

/-- The port and the ring are enabled (Table 3.11). -/
def ringOn (s : State) (ring : Nat) : Bool := flag s .hbxCtrl 0 && flag s .hbxCtrl (4 + ring)

/-- Whether the port takes a record for a ring now: a slot is free (R87), its pool is replayed (R98), and nothing makes records wait (R81, R88, R91, R103, R162). -/
def portOpen (s : State) (ring : Nat) : Bool :=
  let r := ringAt s ring
  ringOn s ring && !r.stalled && !r.lagStalled && r.remapBusy.isEmpty && decide (r.head - r.tail < ringN)
    && !(((poolOfRing s ring).map (fun e => e.2.areaStall || !e.2.replayed)).getD false)
    && (s.hbx.driveJournal || (!s.hbx.dead && decide (r.inflight.length < 32)))

/-- A record that a step sees through to validity itself: accepted at the next SEQ and valid (R81, R85). With the port or the ring
disabled, or the pool not yet replayed, it waits. -/
def sendNow (s : State) (pi : Nat) (q : RecReq) : State :=
  match poolAt s pi with
  | none => s
  | some p =>
    if !(ringOn s p.ring) || !p.replayed then setRing s p.ring (fun r => { r with queue := r.queue ++ [q] })
    else
      let seq := (ringAt s p.ring).head
      let s := acceptRec s p.ring q
      let s := if s.hbx.driveJournal then s else countSlot s p.ring seq
      setRing s p.ring (fun r => { r with inflight := r.inflight.filter (fun i => i.1 != seq), validAt := tput r.validAt seq (nowOf s) })

def sendValid (s : State) (pi : Nat) (body : RecBody) : State := sendNow s pi { body := body }

/-- HATBOX_RECORD_ACCEPT: the first record offered that need not wait for another. -/
def execHatboxRecordAccept (ring : Nat) (s : State) : Res :=
  .next <|
    let s := ringStall s ring
    if !(portOpen s ring) then s
    else
      match (ringAt s ring).queue.find? (fun q =>
        match poolOfRing s ring with
        | some (_, p) => !(recBlocked p q)
        | none => true) with
      | none => s
      | some q =>
        let s := acceptRec s ring q
        let s := match poolOfRing s ring with
          | some (pi, _) => startSet s pi
          | none => s
        ringStall (carryTail s ring) ring

/-! ## Epochs (R93) -/

/-- The headers of units not yet acknowledged that ring blocks hold are queued again; with `forget` those blocks are gone (R93 step 4). -/
def requeueHeaders (p : Pool) (blocks : Nat → Bool) (forget : Bool) : Pool :=
  let c := p.copy
  let (fly, stay) := c.hdrInflight.partition (fun h => blocks h.idx)
  let held := (fly.map (·.headers)).flatten ++ ((c.hdrPlaced.filter (fun e => blocks e.1)).map (·.2)).flatten
  let live (h : StripeHdr) : Bool := ((tget p.units h.wseq).map (fun u => u.stage != .acked && u.stage != .failed)).getD false
  let queue := (held.filter (fun h => live h && !(c.hdrQueue.contains h))).eraseDups ++ c.hdrQueue
  let waits (w : Nat) : Nat := ((queue ++ (stay.map (·.headers)).flatten).filter (fun h => h.wseq == w)).length
  { p with units := tmap p.units (fun w u => { u with headers := waits w })
           copy := { c with hdrQueue := queue, hdrInflight := stay, hdrPlaced := if forget then c.hdrPlaced.filter (fun e => !(blocks e.1)) else c.hdrPlaced } }

/-- An epoch being opened is given up: its band is freed, and what was on its way there is dropped (R94). -/
def abandonOpening (s : State) (pi : Nat) : State :=
  match poolAt s pi with
  | none => s
  | some p =>
    match p.copy.opening with
    | none => s
    | some o =>
      let gone (c : CmdOwner) : Bool :=
        match c with
        | .page q f => q == pi && p.copy.inflight.any (fun g => g.band == o.band && g.firstSeq == f)
        | .header q i => q == pi && p.copy.hdrInflight.any (fun h => h.band == o.band && h.idx == i)
        | .sys q j _ => q == pi && (j == o.job || (!o.set.isEmpty && j == o.setJob))
        | .jdata q w f => q == pi && p.units.any (fun e => e.1 == w && e.2.dataPage == pageBlock f) && p.copy.area.any (fun a => a.band == o.band && a.idx == f && a.data == some w)
        | _ => false
      let s := dropCmds s gone
      -- journaled data that went only to this band is written anew
      let lostData (w : Nat) : Bool := p.copy.area.any (fun a => a.band == o.band && a.data == some w && !a.ckpt)
      let s := setPool s pi (fun p =>
        let p := requeueHeaders p (fun i => decide (o.hdrBase ≤ i)) true
        let paged := min p.copy.pagedTo (o.openSeq.getD p.copy.pagedTo)
        { p with jobs := p.jobs.filter (fun j => j.id != o.job && (o.set.isEmpty || j.id != o.setJob))
                 units := tmap p.units (fun w u =>
                   if lostData w && u.jPlaced && u.stage != .acked then { u with jPlaced := false, jTodo := [], recSent := false, recValid := false } else u)
                 copy := { p.copy with opening := none, area := p.copy.area.filter (fun a => a.band != o.band), pagedTo := paged
                                       inflight := p.copy.inflight.filter (fun g => g.band != o.band) } })
      freeBandOf (pumpJobs s pi) pi o.band

/-- A new epoch on members other than those listed and those the copy has lost: a Hatbox band with its header, EPOCH raised, EPOCH_OPEN offered, and the
headers of units not yet acknowledged queued for the new header ring (R93 steps 1, 2 and 4). -/
def beginEpoch (s : State) (pi reason : Nat) (skip : List Nat) : State :=
  match poolAt s pi with
  | none => s
  | some p =>
    let lost := match tget p.bands p.copy.band with
      | some b => (b.members.map (·.1)).filter (fun m => !(p.copy.members.contains m))
      | none => []
    match allocBand s pi 4 (skip ++ lost) with
    | none => s
    | some (nb, s) =>
      let e := if p.epoch = 0 then 1 else p.epoch + 1
      let b := bandAt s pi nb
      let ms := (b.map (fun b => b.members.map (·.1))).getD []
      let s := writeTables s pi
      let id := ((poolAt s pi).map (·.nextJob)).getD 0
      let head : SysBlk := { body := .hbxHeader ((b.map (·.gen)).getD 0) nb e p.id (nowOf s), ref := sysRef nb 0 }
      let s := addJob s pi [] [] [(ms.filterMap (copySlot s pi nb)).map (fun m => (m.1, .block (slotLba m.2) head))]
      let s := setRing (setDir s p.ring (fun d => { d with epoch := e })) p.ring (fun r => { r with epoch := e })
      -- no record that still waits is to carry the new epoch before EPOCH_OPEN
      let s := setRing s p.ring (fun r => { r with queue := { body := .epochOpen e p.epoch nb p.copy.band 0 Config.uidLo reason } :: r.queue })
      let mine (o : CmdOwner) : Bool :=
        match o with
        | .header q _ => q == pi
        | _ => false
      setPool (dropCmds s mine) pi (fun p =>
        let p := requeueHeaders p (fun _ => true) false
        { p with copy := { p.copy with opening := some { epoch := e, reason := reason, band := nb, members := ms, job := id, hdrBase := p.copy.nextHdr }
                                       openWseq := p.wseq } })

/-- A new epoch is opened for a reason, without some members. An opening under way is given up for it where the journal mode changes, or where one of those
members holds its band; else it goes on (R93, R94, R104). A pool opens its epoch when it has been
replayed (R98). -/
def openEpochBut (s : State) (pi reason : Nat) (skip : List Nat) : State :=
  if ((poolAt s pi).map (fun p => !p.replayed)).getD false then s
  else
  match (poolAt s pi).bind (fun p => p.copy.opening) with
  | none => beginEpoch s pi reason skip
  | some o =>
    if reason = 4 ∨ o.members.any (fun m => skip.contains m) then beginEpoch (abandonOpening s pi) pi (if reason = 4 then 4 else o.reason) skip else s

def openEpoch (s : State) (pi reason : Nat) : State := openEpochBut s pi reason []

/-- EPOCH_OPEN. -/
def execEpochOpen (pool reason : Nat) (s : State) : Res := .next (openEpoch s pool reason)

/-- The CHECKPOINT_END of an opening epoch, once written: its SEQ. -/
def setEnd (s : State) (p : Pool) (o : Opening) : Option Nat :=
  let r := ringAt s p.ring
  o.openSeq.bind (fun q => (r.slots.find? (fun x =>
    match x.2.body with
    | .checkpointEnd y _ _ _ _ => y == o.epoch && decide (q < x.2.seq) && x.2.crcOk && !(r.inflight.any (fun i => i.1 == x.2.seq))
    | _ => false)).map (·.2.seq))

/-- When the oldest record not yet on every copy member became valid. -/
def oldestUncopied (p : Pool) (r : Ring) : Option Nat :=
  ((r.validAt.filter (fun e => decide (p.copy.copied ≤ e.1))).head?).map (·.2)

/-- The lag stall ends when the age of the oldest record not copied falls below RESUME (R91). -/
def lagSettle (s : State) (pi : Nat) : State :=
  match poolAt s pi with
  | none => s
  | some p =>
    let s := setRing s p.ring (fun r => { r with validAt := r.validAt.filter (fun e => decide (p.copy.copied ≤ e.1)) })
    let age := match oldestUncopied p (ringAt s p.ring) with
      | some t => nowOf s - t
      | none => 0
    if age < 1000 * fld s .hbxLagCfg 31 16 then setRing s p.ring (fun r => { r with lagStalled := false }) else s

/-- All that R93's steps 1 to 4 write for an opening epoch is on flash on every member of its band. -/
def epochWritten (s : State) (p : Pool) (o : Opening) : Bool :=
  let alive := o.members.all (fun m => ((tget p.members m).map (fun x => x.state == .active && memberOnline s x)).getD false)
  let hdrs := p.copy.hdrQueue ++ (p.copy.hdrInflight.map (·.headers)).flatten
  alive && !o.members.isEmpty && jobDone p o.job && !o.set.isEmpty && jobDone p o.setJob && !(hdrs.any (fun h => decide (h.wseq < p.copy.openWseq))) &&
  match setEnd s p o with
  | some q => decide (q < p.copy.pagedTo) && !(p.copy.inflight.any (fun g => g.band == o.band && decide (g.firstSeq ≤ q)))
  | none => false

/-- The new epoch is on flash on every member: ledger and directory record it, and the previous band is freed after the ledger (R93 steps 5 and 6). -/
def commitEpoch (s : State) (pi : Nat) : State :=
  match poolAt s pi with
  | none => s
  | some p =>
    match p.copy.opening with
    | none => s
    | some o =>
      if !(epochWritten s p o) then s
      else
        let c := p.copy
        -- what was on its way to the previous band is of no more use
        let gone (x : CmdOwner) : Bool :=
          match x with
          | .page q f => q == pi && c.inflight.any (fun g => g.band != o.band && g.firstSeq == f)
          | .jdata q w f => q == pi && c.area.any (fun a => a.band != o.band && a.data == some w && a.idx == f)
          | _ => false
        let s := dropCmds s gone
        let s := match c.freeing with
          | some (b, _) => freeBandOf s pi b
          | none => s
        let later := c.inflight.filter (fun g => g.band == o.band)
        let carried (w : Nat) : Bool := c.area.any (fun a => a.band == o.band && a.ckpt && a.data == some w)
        let job := ((poolAt s pi).map (·.nextJob)).getD 0
        let s := writeLedger (setPool s pi (fun p =>
          { p with epoch := o.epoch
                   units := tmap p.units (fun w u => if carried w then { u with jTodo := [] } else u)
                   copy := { p.copy with band := o.band, members := o.members, opening := none, exposed := false, gapAt := none, nextPage := o.nextPage, hdrBase := o.hdrBase
                                         copied := later.foldl (fun m g => min m g.firstSeq) c.pagedTo, inflight := later
                                         hdrPlaced := c.hdrPlaced.filter (fun e => decide (o.hdrBase ≤ e.1))
                                         area := c.area.filter (fun a => a.band == o.band)
                                         freeing := if (tget p.bands c.band).isSome then some (c.band, job) else none } })) pi
        noteValid (lagSettle (setDir s p.ring (fun d => { d with hbxBand := o.band })) pi) p.ring

/-- EPOCH_COMMIT. -/
def execEpochCommit (pool : Nat) (s : State) : Res := .next (commitEpoch s pool)

/-! ## Drive-journal mode (R104) -/

/-- Drive-journal mode begins: records are valid only by their pages. -/
def journalFlags (s : State) (cause : Nat) : State :=
  mgmt (setBit { s with hbx := { s.hbx with driveJournal := true, djCause := cause
                                            rings := tmap s.hbx.rings (fun _ r => { r with inflight := [], remapBusy := [] }) } } .hbxEvent 0) 6 0 cause

/-- MODE in the directory entry of each ring. -/
def journalMode (s : State) (cause : Nat) : State :=
  forAll ((s.hbx.rings.filter (fun e => e.2.dir.assigned)).map (·.1)) (fun s r => setDir s r (fun d => { d with driveJournal := true })) (journalFlags s cause)

/-- Enter drive-journal mode for every pool: MODE goes to each drive copy, and a new epoch opens. -/
def enterDriveJournal (s : State) (cause : Nat) : State :=
  if s.hbx.driveJournal then s
  else forAll (s.pools.map (·.1)) (fun s pi => openEpoch (sendRec s pi (.mode 1 cause)) pi 4) (journalMode s cause)

/-- HATBOX_DIE_FAULT. -/
def execHatboxDieFault (s : State) : Res :=
  .next (enterDriveJournal (setBit { s with hbx := { s.hbx with dead := true } } .hbxEvent 6) 3)

/-- FORCE_DRIVE_JOURNAL: a write of 1 to the bit. -/
def forceJournal (s : State) : State := enterDriveJournal (setBit s .hbxCtrl 8) 4

def execForceDriveJournal (s : State) : Res := .next (forceJournal s)

/-! ## MRAM writes -/

/-- A segment is mapped to the next spare; none is left when it answers none. -/
def remapSegment (s : State) (seg : Nat) : Option State :=
  if s.hbx.spareFree = 0 then none
  else
    let phys := (spareSegments s.hbx).head?.getD 4
    let old := (tget s.hbx.remap seg).getD seg
    some { s with hbx := { s.hbx with spareFree := s.hbx.spareFree - 1, remap := tput s.hbx.remap seg phys, segFailed := old :: s.hbx.segFailed } }

/-- MRAM_WRITE_COMPLETE: the record is valid, or its write is retried; after the retries the record goes to the next SEQ with CARRIED set and its
segment is remapped (R85, R103). -/
def execMramWriteComplete (ring seq : Nat) (ok : Bool) (s : State) : Res :=
  .next <|
    let r := ringAt s ring
    match r.inflight.find? (fun i => i.1 == seq), tget r.slots (seq % ringN) with
    | some (_, tries), some x =>
      let seg := segmentOf ring (seq % ringN)
      let s := countSlot s ring seq
      if ok then
        let s := setRing s ring (fun r => { r with inflight := r.inflight.filter (fun i => i.1 != seq), validAt := tput r.validAt seq (nowOf s) })
        noteValid s ring
      else if tries < fld s .hbxCtrl 15 12 then
        setRing s ring (fun r => { r with inflight := r.inflight.map (fun i => if i.1 = seq then (seq, tries + 1) else i) })
      else
        let s := count (setBit { s with hbx := { s.hbx with verifyFails := s.hbx.verifyFails + 1 } } .hbxEvent 3) 0x610
        let s := setRing (recAgain s ring x) ring (fun r =>
          { r with inflight := r.inflight.filter (fun i => i.1 != seq), slots := tput r.slots (seq % ringN) { x with crcOk := false } })
        let s := acceptRec s ring (carryReq x)
        if r.remapBusy.contains seg then s
        else
          match remapSegment s seg with
          | some s => setRing s ring (fun r => { r with remapBusy := r.remapBusy ++ [seg] })
          | none => enterDriveJournal (setBit s .hbxEvent 5) 2
    | _, _ => s

/-- The live records of a ring in a logical segment: not retired, and written. -/
def segmentRecs (s : State) (ring seg : Nat) : List Rec :=
  let r := ringAt s ring
  match poolOfRing s ring with
  | none => []
  | some (_, p) => (r.slots.map (·.2)).filter (fun x =>
      segmentOf ring (x.seq % ringN) == seg && decide (r.tail ≤ x.seq) && !(r.inflight.any (fun i => i.1 == x.seq)) && !(isRetired s p r x))

/-- REMAP_COPY_DONE: the live records of the remapped segment stand in the spare, those that MRAM no longer reads taken from the drive copy once it
holds them; the ring's records resume (R103). -/
def execRemapCopyDone (ring : Nat) (s : State) : Res :=
  .next <|
    let segs := (ringAt s ring).remapBusy
    if segs.isEmpty then s
    else
      let recs := (segs.map (segmentRecs s ring)).flatten
      let copied := ((poolOfRing s ring).map (fun e => e.2.copy.copied)).getD 0
      if recs.any (fun x => !x.crcOk && decide (copied ≤ x.seq)) then s
      else
        let s := forAll recs (fun s x => setRing (countSlot s ring x.seq) ring (fun r => { r with slots := tput r.slots (x.seq % ringN) { x with crcOk := true } })) s
        count (setBit (setRing { s with hbx := { s.hbx with remaps := s.hbx.remaps + 1 } } ring (fun r => { r with remapBusy := [] })) .hbxEvent 4) 0x611

/-- The WATERMARK record of a ring's pool; its fields are taken when the record is written (R86). -/
def sendWatermark (s : State) (pi : Nat) : State := sendRec s pi (.watermark 0 0 0 0)

/-- WATERMARK. -/
def execWatermark (ring : Nat) (s : State) : Res :=
  .next <|
    match poolOfRing s ring with
    | some (pi, _) => sendWatermark s pi
    | none => s

/-! ## The drive copy (R90, R91, R94) -/

/-- The next records for a page: first SEQ, records, the band they go to and its members. Records above an opening epoch's EPOCH_OPEN go to the new band
only; with no copy member left those below it are in the checkpoint set alone (R93, R94). -/
def nextRecs (s : State) (p : Pool) : Nat × List Rec × Nat × List Nat :=
  let r := ringAt s p.ring
  let c := p.copy
  let cut := (c.opening.bind (fun o => if o.set.isEmpty then none else o.openSeq)).getD r.head
  let new_ := (cut < r.head) && (decide (cut ≤ c.pagedTo) || c.members.isEmpty)
  let from_ := if new_ then max c.pagedTo (cut + 1) else c.pagedTo
  let stop := if new_ then r.head else cut
  let upTo := r.inflight.foldl (fun m i => if from_ ≤ i.1 then min m i.1 else m) stop
  let (band, ms) := if new_ then newestCopy c else (c.band, c.members)
  (from_, (List.range (min 63 (upTo - from_))).filterMap (fun i => tget r.slots ((from_ + i) % ringN)), band, ms)

/-- JOURNAL_PAGE_ISSUE: up to 63 records go into a page written to every copy member, with at most 4 in flight; PAGE_ISSUE µs after the first
became valid, or at once in drive-journal mode (R91, R104). -/
def execJournalPageIssue (pool : Nat) (s : State) : Res :=
  .next <|
    let s := startSet s pool
    match poolAt s pool with
    | none => s
    | some p =>
      let (first, recs, band, ms) := nextRecs s p
      if recs.isEmpty ∨ 4 ≤ p.copy.inflight.length ∨ ms.isEmpty = true ∨ entryOnFlash p band = false then s
      else
        let valid := (tget (ringAt s p.ring).validAt first).getD (nowOf s)
        let s := if s.hbx.driveJournal then s else reach s (valid + 1000 * fld s .hbxLagCfg 59 48)
        match takeArea s pool band 1 { idx := 0, first := first, last := first + recs.length - 1 } with
        | none => s
        | some (place, s) =>
          let s := setPool s pool (fun p =>
            { p with copy := { p.copy with
                pagedTo := first + recs.length
                inflight := p.copy.inflight ++ [{ idx := place, band := band, epoch := (ringAt s p.ring).epoch, time := nowOf s, firstSeq := first
                                                  recs := recs, oldestValid := valid, todo := ms }] } })
          let s := count s (0x604 + p.ring)
          forAll ms (fun s m =>
            match copySlot s pool band m with
            | some (d, sl) => issueCmd s d .write (slotLba sl + pageBlock place) 1 (.page pool first) 0 false
            | none => s) s

/-- Pages whose last copy member has them are on flash: COPIED advances over the members in use, and records above an opening epoch's EPOCH_OPEN count once
the epoch is recorded (R91, R94, log entry 54). -/
def settleCopy (s : State) (pi : Nat) : State :=
  match poolAt s pi with
  | none => s
  | some p =>
    let left := p.copy.inflight.filter (fun g => !(g.todo.isEmpty))
    let cap := min ((p.copy.opening.bind (·.openSeq)).getD p.copy.pagedTo) (p.copy.gapAt.getD p.copy.pagedTo)
    let low := (left.filter (fun g => g.band == p.copy.band)).foldl (fun m g => min m g.firstSeq) (min cap p.copy.pagedTo)
    let copied := if p.copy.members.isEmpty then p.copy.copied else max p.copy.copied low
    let s := setPool s pi (fun p => { p with copy := { p.copy with inflight := left, copied := copied } })
    noteValid (lagSettle s pi) p.ring

/-- A page write to a member has completed. -/
def pageDone (s : State) (pi first member : Nat) : State :=
  settleCopy (setPool s pi (fun p =>
    { p with copy := { p.copy with inflight := p.copy.inflight.map (fun g => if g.firstSeq = first then { g with todo := g.todo.filter (· != member) } else g) } })) pi

/-- A copy member is lost: the copy goes on with the surviving members, with none left it is exposed, and a new epoch opens without the member (R94). -/
def dropCopyMember (s : State) (pi member : Nat) : State :=
  match poolAt s pi with
  | none => s
  | some p =>
    let inNew := (p.copy.opening.map (fun o => o.members.contains member)).getD false
    if !(p.copy.members.contains member) && !inNew then s
    else
      let old := p.copy.members.contains member
      let ms := p.copy.members.filter (· != member)
      let band := p.copy.band
      let s := setPool s pi (fun p =>
        { p with copy := { p.copy with members := ms, exposed := p.copy.exposed || (old && ms.isEmpty)
                                       inflight := p.copy.inflight.map (fun g => if g.band = band then { g with todo := g.todo.filter (· != member) } else g) } })
      let s := forAll (p.copy.hdrInflight.filter (fun h => h.band == band && h.todo.contains member)) (fun s h => onFlash s (.header pi h.idx) member) s
      let s := forAll p.units (fun s e => forAll (e.2.jTodo.filter (fun x => x.1 == member)) (fun s x => onFlash s (.jdata pi e.1 x.2) member) s) s
      let s := if old && ms.isEmpty then setBit s .hbxEvent 7 else s
      openEpochBut (settleCopy s pi) pi 2 [member]

/-- COPY_MEMBER_EVICT: EVICT µs after the oldest record of an unfinished page became valid (R91). -/
def execCopyMemberEvict (pool member : Nat) (s : State) : Res :=
  .next <|
    match poolAt s pool with
    | none => s
    | some p =>
      match p.copy.inflight.find? (fun g => g.todo.contains member) with
      | none => s
      | some g => dropCopyMember (reach s (g.oldestValid + 1000 * fld s .hbxLagCfg 47 32)) pool member

/-- LAG_STALL: the oldest record not on every copy member reaches STALL µs, and new records wait (R91). -/
def execLagStall (pool : Nat) (s : State) : Res :=
  .next <|
    match poolAt s pool with
    | none => s
    | some p =>
      match oldestUncopied p (ringAt s p.ring) with
      | none => s
      | some t =>
        let s := reach s (t + 1000 * fld s .hbxLagCfg 15 0)
        if (ringAt s p.ring).lagStalled then s
        else setBit (setRing s p.ring (fun r => { r with lagStalled := true })) .hbxEvent 1

/-! ## Self-test and tail -/

/-- A test of spare segments and unassigned rings begins (R331, Table 3.16). -/
def hbxTestStart (s : State) : State :=
  if s.hbx.selftestBusy || s.hbx.dead then s else { s with hbx := { s.hbx with selftestBusy := true } }

def execHbxSelftestStart (s : State) : Res := .next (hbxTestStart s)

/-- A physical segment that a test at run time covers: a spare one in no use, or one of a ring that no pool has (Table 3.16). -/
def testable (s : State) (g : Nat) : Bool :=
  if g < 32 then (spareSegments s.hbx).contains g else decide (g < 512) && !((ringAt s ((g - 32) / 120)).dir.assigned)

/-- HBX_SELFTEST_DONE: failed segments are remapped; with no spare left the test fails. -/
def execHbxSelftestDone (failed : List Nat) (s : State) : Res :=
  .next <|
    if !s.hbx.selftestBusy then s
    else
      let failed := failed.filter (testable s)
      let s := { s with hbx := { s.hbx with selftestBusy := false, selftestFailed := failed.length } }
      let (s, ok) := failed.foldl (fun (acc : State × Bool) g =>
        if g < 32 then ({ acc.1 with hbx := { acc.1.hbx with spareFree := acc.1.hbx.spareFree - 1, segFailed := g :: acc.1.hbx.segFailed } }, acc.2)
        else
          match remapSegment acc.1 g with
          | some s => (s, acc.2)
          | none => (acc.1, false)) (s, true)
      { s with hbx := { s.hbx with selftestResult := if !ok then 3 else if failed.isEmpty then 1 else 2, mramOk := ok } }

/-- A write of HBX_POOL_TAIL_n: ignored with CFG_REJECT when it lowers the tail or passes COPIED (R87, R107). -/
def tailWrite (s : State) (ring : Nat) (value : Word) : State :=
  let r := ringAt s ring
  let copied := ((poolOfRing s ring).map (fun e => e.2.copy.copied)).getD 0
  if r.tail ≤ value.toNat ∧ value.toNat ≤ max copied r.tail then
    ringStall (setRing s ring (fun r => { r with tail := value.toNat, retired := r.retired.filter (fun q => decide (value.toNat ≤ q)) })) ring
  else setBit s .hbxEvent 8

/-- POOL_TAIL_ADVANCE. -/
def execPoolTailAdvance (ring : Nat) (value : Word) (s : State) : Res := .next (tailWrite s ring value)

end Sys2Proof.Machine
end

