-- ==== Sys2Proof/Machine/Drives.lean ====
section
/-! DEFINITION. Drives at work: completions of reads, writes and flushes (R32, R113, R115 to R121), the latency windows (R118, R119), drive
timeouts and member failure (R123, R131). -/

namespace Sys2Proof.Machine

/-! ## Inventory -/

/-- Inventory code of a drive state (R284). -/
def drvCode (d : DrvState) : Nat :=
  match d with
  | .empty => 0
  | .present => 1
  | .noformat => 2
  | .stale => 3
  | .ready => 4
  | .member => 5
  | .evacuating => 6
  | .failed => 7
  | .removed => 8
  | .linkFault => 9

/-- A drive's inventory state changes, with its management event. -/
def setDrvState (s : State) (slot : Nat) (st : DrvState) : State :=
  if (driveAt s slot).state = st then s else mgmt (setDrive s slot (fun d => { d with state := st })) 3 slot (drvCode st)

/-! ## Units of the device's own -/

/-- A unit that moves blocks to a fresh place (R59, R71, R116): folding, reclaim, relocation. Each block keeps its stored bytes and, unless they were put under
another key, its key generation. -/
def moveUnit (path : WPath) (fold : Bool) (l : List (Move × Bytes)) : Unit :=
  { vol := 0xFFFF, cmd := none, start := 0, count := l.length, path := path, stage := .waitPlace, fold := fold, moves := l.map (·.1)
    data := l.map (fun x => some { blk := mkBlk x.2 (volRef 4 x.1.vol x.1.block) 0, guardOk := true }) }

/-- The move of a block that waits for a fresh place. -/
def relocMove (r : Reloc) : Move × Bytes := ({ vol := r.vol, block := r.block, band := r.band, off := r.off, keyGen := r.keyGen }, r.data)

/-- Reconstructed blocks of a pool without fold stripes go to fresh runs (R116). -/
def pumpRelocs (s : State) (pi : Nat) : State :=
  match poolAt s pi with
  | none => s
  | some p =>
    if layoutParity p.layout then s
    else
      forAll p.relocs (fun s r => (addUnit s pi (moveUnit (if layoutMirror p.layout then .freshRun else .plainRun) true [relocMove r])).1)
        (setPool s pi (fun p => { p with relocs := [] }))

/-! ## Completions of drive commands -/

/-- The REFs that a block at a position of a row may carry, where the device knows them (R113). -/
def refsAt (s : State) (pi band : Nat) (b : Band) (stripe pos row : Nat) : List (BitVec 48) :=
  if b.parity && b.k ≤ pos then [sysRef band (stripe * stripBlocks b.stripShift + row), 0]
  else
    match directOwner s pi band with
    | some (v, i) => let n := directBlock b i stripe (if b.mirror then 0 else pos) row; [volRef 4 v n, volRef 3 v n]
    | none => []

/-- A drive's NVMe Read completes: each block is checked, used for its read, or counted as a media event (R113, R115, R116, R121). A command
that timed out counts with its own cause, and its block as missing (R123). -/
def readComplete (s : State) (slot cid : Nat) (status : NvmeStatus) (blocks : List (Option Blk)) (timeout : Bool) : State :=
  match (driveAt s slot).cmds.find? (fun c => c.cid == cid) with
  | none => s
  | some c =>
    if c.op != .read then s
    else
      let s := popCmd s slot cid
      match c.owner with
      | .hostRead kslot block j =>
        match (cmdAt s kslot).bind (fun k => (k.reads.findIdx? (fun r => r.block == block)).bind (fun i => (k.reads[i]?).map (fun r => (k, i, r)))) with
        | none => s
        | some (k, i, r) =>
          match readPlace s k.pool r with
          | none => s
          | some (band, b, t, pos, row) =>
            let s := setCmd s kslot (fun k => { k with lastIo := some (nowOf s) })
            if r.got.isSome || r.bad.isSome then s
            else
              let y := if status = .ok then (blocks.head?).bind id else none
              let mine := j == pos || b.mirror
              let refs := if mine then [volRef 4 k.e.volumeId block, volRef 3 k.e.volumeId block] else refsAt s k.pool band b t j row
              let pass := (y.map (fun y => if mine then volOk b k.e.volumeId block y else rowOk s k.pool band b t j row y)).getD false
              let s := if pass then s else mediaEvent s slot c.lba ((y.map (fun y => tagCause y refs)).getD (if timeout then 5 else 4))
              let s :=
                if pass && (j == pos) then gotBlock s kslot i ((y.map (·.data)).getD [])
                else
                  pushPlans (setCmd s kslot (fun k => { k with reads := k.reads.modify i (fun r =>
                    { r with inputs := r.inputs ++ [(j, y)], failed := if pass || timeout then r.failed else r.failed ++ [j] }) })) kslot i
              pumpRelocs s k.pool
      | _ => s

/-- NVME_READ_COMPLETE. -/
def execNvmeReadComplete (slot cid : Nat) (status : NvmeStatus) (blocks : List (Option Blk)) (s : State) : Res :=
  .next (readComplete s slot cid status blocks false)

/-- Where a write of a unit or a log record goes and what it writes: pool, band, blocks of a strip, position, and each block by its offset in the slot, none
where its cell has not arrived (R49, R53). -/
def writtenBlks (s : State) (c : DrvCmd) : Option (Nat × Nat × Nat × Nat × List (Nat × Option Blk)) :=
  match c.owner with
  | .unit pi w pos _ =>
    match unitAt s pi w with
    | none => none
    | some u =>
      (bandAt s pi u.band).map (fun b =>
        let x0 := (c.lba - slotLba 0) % 0x40000
        (pi, u.band, stripBlocks b.stripShift, pos, (List.range c.count).map (fun i => (x0 + i, unitBlk u.band b u pos (x0 + i)))))
  | .logRec pi stream band hdr pos =>
    match poolAt s pi with
    | none => none
    | some p =>
      ((p.streams[stream]?).bind (fun st => st.recs.find? (fun r => r.band == band && r.headerBlock == hdr && r.issued))).map (fun r =>
        (pi, r.band, ((tget p.bands r.band).map (fun b => stripBlocks b.stripShift)).getD 1, pos,
          (List.range (1 + r.dataBlocks)).map (fun i => (r.headerBlock + i, logBlk p r i))))
  | _ => none

/-- Blocks are put on the drive of a position. -/
def putBlks (s : State) (pi band sb pos : Nat) (xs : List (Nat × Option Blk)) : State :=
  forAll xs (fun s e =>
    match e.2 with
    | some y => writePos s pi band (e.1 / sb) pos (e.1 % sb) y
    | none => s) s

/-- What a write of the device's own structures puts on its drive: a ring block, a journal page, journaled data, a write of a system job (R51, R89, R90). Of its
blocks those that `landed` names. -/
def landSystem (s : State) (slot : Nat) (c : DrvCmd) (landed : Nat → Bool) : State :=
  let idx := (c.lba - slotLba 0) % 0x40000
  match c.owner with
  | .header pi i =>
    match (poolAt s pi).bind (fun p => p.copy.hdrInflight.find? (fun h => h.idx == i)) with
    | some h => if landed 0 then setDrive s slot (fun d => putSys d c.lba { body := .ringBlock h.headers, ref := sysRef h.band idx }) else s
    | none => s
  | .page pi f =>
    match (poolAt s pi).bind (fun p => p.copy.inflight.find? (fun g => g.firstSeq == f)) with
    | some g =>
      let gen := ((bandAt s pi g.band).map (·.gen)).getD 0
      if landed 0 then setDrive s slot (fun d => putSys d c.lba (pageBlk gen g.band g.epoch g.idx g.time g.recs)) else s
    | none => s
  | .jdata pi w _ =>
    forAll (jdataBlks s pi w).zipIdx (fun s x => if landed x.2 then setDrive s slot (fun d => putBlk d (c.lba + x.2) x.1) else s) s
  | .sys pi j i =>
    match putOf s pi j i with
    | some x => if landed 0 then setDrive s slot (fun d => landPut d x) else s
    | none => s
  | _ => s

/-- The blocks of a completed write are put on the drive (R49, R53). Nothing when a cell it reads has not arrived. -/
def landBlocks (s : State) (slot : Nat) (c : DrvCmd) : Option State :=
  match writtenBlks s c with
  | none => some (landSystem s slot c (fun _ => true))
  | some (pi, band, sb, pos, xs) => if xs.any (fun e => e.2.isNone) then none else some (putBlks s pi band sb pos xs)

/-- The member index of a drive slot in a pool: of several members that were in the slot, the one in use (R123). -/
def memberOfSlot (s : State) (pi slot : Nat) : Nat :=
  match poolAt s pi with
  | none => 64
  | some p =>
    let here := p.members.filter (fun e => e.2.driveSlot == some slot)
    (((here.find? (fun e => e.2.state == .active || e.2.state == .evacuating)).or here.head?).map (·.1)).getD 64

/-- A completed write counts for its owner: at once, or when a Flush covers it on a drive in flushed mode (R32, R34). -/
def creditWrite (s : State) (slot : Nat) (o : CmdOwner) (n : Nat) : State :=
  match o with
  | .header pi _ => systemOn (onFlash s o (memberOfSlot s pi slot)) pi
  | .page pi f => pageDone s pi f (memberOfSlot s pi slot)
  | .jdata pi _ _ => onFlash s o (memberOfSlot s pi slot)
  | .sys pi j i => systemOn (putDone s pi j i) pi
  | _ => onFlash s o n

/-- A write of a system job is given up after its retry, or with its drive: the copies on other drives hold it (log entry 55). In an opening epoch the member
counts as a failed copy member (R91, R94). -/
def putLost (s : State) (pi slot job item : Nat) : State :=
  let opens := ((poolAt s pi).bind (fun p => p.copy.opening)).map (fun o => job == o.job || (!o.set.isEmpty && job == o.setJob))
  let s := systemOn (putDone s pi job item) pi
  if opens = some true then dropCopyMember s pi (memberOfSlot s pi slot) else s

/-- A failed write whose retry failed too: a copy member is dropped, the units of a log record are driven again unless the copy was a substitute's, a unit is
re-driven or degraded (R72, R73, R91, R395). -/
def writeFailed (s : State) (slot lba : Nat) (o : CmdOwner) : State :=
  match o with
  | .unit pi w pos _ =>
    let red := ((unitAt s pi w).map (fun u => inPlace u.path && u.path != .plainInPlace)).getD false
    let s := if red then mediaEvent s slot lba 4 else s
    unitPosFailed s pi w pos red
  | .logRec pi stream band hdr pos =>
    match (poolAt s pi).bind (fun p => (p.streams[stream]?).bind (fun st => st.recs.find? (fun r => r.band == band && r.headerBlock == hdr))) with
    | some r =>
      if r.subst.contains pos then retargetLog s pi band pos true
      else forAll ((r.entries.filter (fun e => !e.dead)).take 1) (fun s e => redrive s pi e.wseq) s
    | none => s
  | .header pi _ => dropCopyMember s pi (memberOfSlot s pi slot)
  | .page pi _ => dropCopyMember s pi (memberOfSlot s pi slot)
  | .jdata pi _ _ => dropCopyMember s pi (memberOfSlot s pi slot)
  | .sys pi j i => putLost s pi slot j i
  | .hostRead _ _ _ => s
  | .slot _ => s

/-- NVME_WRITE_COMPLETE. -/
def execNvmeWriteComplete (slot cid : Nat) (status : NvmeStatus) (s : State) : Res :=
  .next <|
    match (driveAt s slot).cmds.find? (fun c => c.cid == cid) with
    | none => s
    | some c =>
      if c.op != .write then s
      else if status = .ok then
        match landBlocks s slot c with
        | none => s
        | some y =>
          let s := if (driveAt s slot).flushed then setDrive y slot (fun d => { d with cached := cachedBy c (driveAt s slot) d ++ d.cached }) else y
          let s := popCmd s slot cid
          let s := match c.owner with
            | .unit pi w pos _ =>
              setUnit s pi w (fun u => { u with targets := u.targets.map (fun t => if t.pos = pos then { t with done := t.done + c.count } else t) })
            | _ => s
          if (driveAt s slot).flushed then setDrive s slot (fun d => { d with unflushed := d.unflushed ++ [(c.owner, c.count)] })
          else creditWrite s slot c.owner c.count
      else
        let s := popCmd s slot cid
        if c.tries = 0 then issueCmd s slot .write c.lba c.count c.owner 1 false
        else writeFailed s slot c.lba c.owner

/-- NVME_FLUSH_COMPLETE: every Write completed before the Flush was submitted is on flash (R34). -/
def execNvmeFlushComplete (slot : Nat) (s : State) : Res :=
  .next <|
    match (driveAt s slot).flushing with
    | none => s
    | some l => forAll l (fun s o => creditWrite s slot o.1 o.2) (setDrive s slot (fun d => { d with flushing := none, cached := d.cached.filter (!·.covered) }))

/-- READ_AROUND_TIMER: a direct read outstanding for T draws the best plan as well, while read-around stays within twice its budget (R121). -/
def execReadAroundTimer (cmd block : Nat) (s : State) : Res :=
  .next <|
    match (cmdAt s cmd).bind (fun k => (k.reads.findIdx? (fun r => r.block == block)).bind (fun i => (k.reads[i]?).map (fun r => (k, i, r)))) with
    | none => s
    | some (k, i, r) =>
      match poolAt s k.pool, readPlace s k.pool r, r.issuedAt with
      | some p, some (band, b, t, pos, _), some t0 =>
        if r.got.isSome || r.bad.isSome || r.around || !(readOutstanding s cmd block).contains pos || polOf p 0x10 = 0 || p.raCapped then s
        else
          let s := reach s (t0 + (readAroundT s p).floor.toNat)
          match bestPlan s p band b t pos with
          | none => s
          | some (js, _) =>
            let s := setCmd s cmd (fun k => { k with raFlag := true, reads := k.reads.modify i (fun r => { r with around := true }) })
            pushPlans (issueInputs s cmd i js true) cmd i
      | _, _, _ => s

/-! ## Windows -/

/-- LATENCY_WINDOW: a 100 ms window ends; each drive's p99 and rate are taken from it (R118), and each pool's factor F is adjusted (R119). -/
def execLatencyWindow (s : State) : Res := .next (rollWindow (reach s (s.clk.latStart + 100000000)))

/-! ## Failure of a member (R123, R131) -/

/-- Log bands with a copy at a member that goes on writing it: open ones, and those with a record's copy on its way; with the position, and whether that copy
was a substitute's (R72, R73). -/
def logCopies (p : Pool) (mi : Nat) : List (Nat × Nat × Bool) :=
  (p.bands.filter (fun e => e.2.cls == 1 && e.2.state != .free)).filterMap (fun e =>
    (e.2.members.findIdx? (fun m => m.1 == mi)).bind (fun j =>
      let recs := (p.streams.map (fun st => st.recs.filter (fun r => r.band == e.1 && r.issued && !(r.donePos.contains j)))).flatten
      if e.2.state = .opened ∨ ¬ recs.isEmpty = true then some (e.1, j, recs.any (fun r => r.subst.contains j)) else none))

/-- Units, logs, reads, system writes and the drive copy lose a drive (R72, R73, R94, R123). -/
def loseDrive (s : State) (pi slot : Nat) : State :=
  let mi := memberOfSlot s pi slot
  let cmds := (driveAt s slot).cmds ++ (driveAt s slot).held
  let s := setDrive s slot (fun d => { d with cmds := [], held := [], unflushed := [], flushing := none })
  -- units with an unfinished target there
  let us := ((poolAt s pi).map (fun p => (p.units.map (fun e => (e.2.targets.filter (fun t => t.slot == slot && !t.missing && t.onFlash != t.count && e.2.stage != .acked)).map (fun t => (e.1, t.pos)))).flatten)).getD []
  let s := forAll us (fun s e => unitPosFailed s pi e.1 e.2 false) s
  let s := forAll (((poolAt s pi).map (fun p => logCopies p mi)).getD []) (fun s e => retargetLog s pi e.1 e.2.1 e.2.2) s
  -- reads and system writes outstanding there
  let s := forAll cmds (fun s c =>
    match c.owner with
    | .hostRead k b j =>
      match (cmdAt s k).bind (fun k => k.reads.findIdx? (fun r => r.block == b)) with
      | some i => pushPlans (setCmd s k (fun k => { k with reads := k.reads.modify i (fun r => { r with inputs := r.inputs ++ [(j, none)] }) })) k i
      | none => s
    | .sys q j i => putLost s q slot j i
    | _ => s) s
  retryPlans (dropCopyMember s pi mi) pi

/-- A member is declared failed: I/O stops, FAILED is recorded on every surviving member, its positions are missing (R123); an
evacuation of it ends, and its partial copies are discarded (R131). -/
def failMember (s : State) (slot : Nat) : State :=
  let d := driveAt s slot
  match d.pool with
  | some pi =>
    if d.state = .member ∨ d.state = .evacuating then
      let mi := memberOfSlot s pi slot
      let s := setDrvState s slot .failed
      let mine (b : Band) : Option (Nat × Nat) := b.evac.bind (fun e => if (b.members[e.1]?).map (·.1) = some mi then some (e.2.1, e.2.2) else none)
      let s := setPool s pi (fun p =>
        { p with members := tmod (releaseSlots p.members (p.bands.filterMap (fun e => mine e.2))) mi (fun m => { m with state := .failed })
                 bands := tmap p.bands (fun _ b => if (mine b).isSome then { b with evac := none } else b) })
      let s := writeTables (writeLedger s pi) pi
      let s := match d.evacOp with
        | some op => endOp (setDrive s slot (fun d => { d with evacOp := none })) op 0x402
        | none => s
      refreshPool (loseDrive s pi slot) pi
    else s
  | none => s

/-- DRIVE_COMMAND_TIMEOUT: a command of more than 5 s is aborted and its blocks are missing for that read; the third timeout within 60 s
fails the member (Table 4.3). -/
def execDriveCommandTimeout (slot cid : Nat) (s : State) : Res :=
  .next <|
    match (driveAt s slot).cmds.find? (fun c => c.cid == cid) with
    | none => s
    | some c =>
      let s := reach s (c.submitAt + 5000000000)
      let s := count (emit s (.nvmeAbort slot cid)) (0x740 + slot)
      let recent := (nowOf s :: (driveAt s slot).timeouts).filter (fun t => decide (nowOf s < t + 60000000000))
      let s := setDrive s slot (fun d => { d with timeouts := recent, timeoutCount := d.timeoutCount + 1 })
      if 3 ≤ recent.length then failMember s slot
      else
        match c.owner with
        | .hostRead _ _ _ => readComplete s slot cid .internal [] true
        | o =>
          let s := pumpQueue (setDrive s slot (fun d => { d with cmds := d.cmds.filter (fun x => x.cid != cid) })) slot
          if c.tries = 0 then issueCmd s slot c.op c.lba c.count o 1 false else writeFailed s slot c.lba o

/-- DRIVE_LINK_DOWN_TIMEOUT: a link down and not retrained within 2 s fails the member. -/
def execDriveLinkDownTimeout (slot : Nat) (s : State) : Res :=
  .next <|
    match (driveAt s slot).downSince with
    | some t => if (driveAt s slot).linkUp then s else failMember (reach s (t + 2000000000)) slot
    | none => s

/-- CONTROLLER_FATAL_STATUS: the member fails. -/
def execControllerFatalStatus (slot : Nat) (s : State) : Res := .next (failMember s slot)

/-- CONTROLLER_RESET_TIMEOUT: a controller reset that has not completed within its 10 s fails the member. -/
def execControllerResetTimeout (slot : Nat) (s : State) : Res := .next (failMember s slot)

end Sys2Proof.Machine
end

