-- ==== Sys2Proof/Machine/Repair.lean ====
section
/-! DEFINITION. Repair, evacuation and scrub (R124 to R140), and conversion of format-3 bands (R150). Each row does the whole of one
stripe or band; `bad` lists the blocks that drives fail to return during it. -/

namespace Sys2Proof.Machine

/-! ## System blocks as DRAM holds them (R135) -/

/-- A leaf as a map node (Table 5.1). -/
def leafNode (vol mapGen seq : Nat) (l : Leaf) : MapNode :=
  { level := 0, vol := vol, mapGen := mapGen, low := l.low, high := l.high, seq := seq, extents := l.extents }

/-- Where the node of a level that begins at a key lies on flash. -/
def nodePlace (leaves : List Leaf) (inner : List Inner) (level low : Nat) : Option (Nat × Nat) :=
  if level = 0 then (leaves.find? (fun l => l.low == low)).bind (·.place) else (inner.find? (fun n => n.level == level && n.low == low)).bind (·.place)

/-- An interior node with its children's places (Table 5.3). -/
def innerNode (vol mapGen seq : Nat) (leaves : List Leaf) (inner : List Inner) (n : Inner) : MapNode :=
  { level := n.level, vol := vol, mapGen := mapGen, low := n.low, high := n.high, seq := seq
    children := (childrenOf leaves inner n).map (fun c =>
      let pl := (nodePlace leaves inner (n.level - 1) c.1).getD (0xFFFFFFFF, 0)
      (c.1, pl.1, pl.2)) }

/-- A page of a volume's band list (R146). -/
def listPageBody (p : Pool) (vol : Nat) (v : Volume) (i : Nat) : SysBody :=
  let l := (v.bandList.drop (1008 * i)).take 1008
  .listPage { count := l.length, index := i, vol := vol, seq := v.listSeq, poolId := p.id } l

/-- Room for n band-list pages in the pool's open band of them, or in a new one (R146). -/
def listSpace (s : State) (pi n : Nat) : Option (Nat × Nat × State) :=
  let open_ := (poolAt s pi).bind (fun p => p.listTable.bind (fun x => (tget p.bands x).bind (fun b =>
    if b.state == .opened && decide (b.next + n ≤ 262144) then some (x, b.next) else none)))
  match open_ with
  | some (x, at_) => some (x, at_, setBand s pi x (fun b => { b with next := b.next + n }))
  | none => (allocBand s pi 6 []).map (fun r =>
      (r.1, 0, setBand (setPool (writeTables r.2 pi) pi (fun p => { p with listTable := some r.1 })) pi r.1 (fun b => { b with next := n })))

/-- A direct volume's band list is written: its pages again where they lie, or with more pages than before at a new place (R146, log entry 63). -/
def writeList (s : State) (pi vol : Nat) : State :=
  match volAt s vol with
  | none => s
  | some v =>
    let n := (v.bandList.length + 1007) / 1008
    if v.kind != .direct || n = 0 then s
    else
      match (if n ≤ v.listPages then some (v.listBand, v.listOff, s) else listSpace s pi n) with
      | none => s
      | some (band, off, s) =>
        let v := { v with listBand := band, listOff := off, listPages := n, listSeq := v.listSeq + 1 }
        let s := setVol s vol (fun _ => v)
        forAll (List.range n) (fun s i =>
          match poolAt s pi with
          | some p => addJob s pi [] [] (pagePhases p band (off + i) (listPageBody p vol v i))
          | none => s) s

/-- The map node that DRAM holds unchanged for a place. It is written again with the newest checkpoint's MAP_GEN and NODE_SEQ (log entry 57). -/
def nodeHeld (s : State) (pi band idx : Nat) : Option MapNode :=
  (s.volumes.filter (fun e => e.2.pool == pi)).findSome? (fun e =>
    ((e.2.leaves.find? (fun l => l.place == some (band, idx) && l.resident && !l.dirty)).map (leafNode e.1 e.2.mapGen e.2.cut)).or
    ((e.2.inner.find? (fun n => n.place == some (band, idx) && !n.dirty)).map (innerNode e.1 e.2.mapGen e.2.cut e.2.leaves e.2.inner)))

/-- What DRAM says that a block of a system band holds: a Band Table, Bad Block Table or band-list page, or a map node. -/
def systemAt (s : State) (pi band idx : Nat) : Option SysBlk :=
  match poolAt s pi with
  | none => none
  | some p =>
    let page : Option SysBody :=
      match p.tableBands.findIdx? (· == band) with
      | some i =>
        let pg := i * 262144 + idx
        let l := p.tabled.filter (fun e => e.1 / 21 == pg)
        (tget p.pageSeqs pg).map (fun q => .bandPage { count := l.length, index := pg, seq := q, poolId := p.id } l)
      | none =>
        if p.bbtBand = some band then (p.bbtTabled[idx]?).map (fun l => .badPage { count := l.length, index := idx, seq := p.bbtSeq, poolId := p.id } l)
        else
          ((s.volumes.find? (fun e => e.2.pool == pi && e.2.listBand == band && decide (e.2.listOff ≤ idx ∧ idx < e.2.listOff + e.2.listPages))).map
            (fun e => listPageBody p e.1 e.2 (idx - e.2.listOff))).or
          ((nodeHeld s pi band idx).map (fun n => .node n))
    page.map (fun x => { body := x, ref := sysRef band idx })

/-! ## Lost blocks (R133 to R135) -/

/-- A block that no plan gives is lost: it is poisoned, with its loss record, unless it already is. -/
def loseCell (s : State) (pi band : Nat) (b : Band) (stripe pos row cause : Nat) : State :=
  match placeOwner s pi band b stripe pos row with
  | none => s
  | some (v, n) =>
    if ((poolAt s pi).bind (fun p => bbtAt p v n)).isSome then s else poisonBlocks s pi v n 1 false cause band stripe pos

/-- The zero block that takes the place of a lost one, for the parity that counts it as zeros. -/
def zeroCell (s : State) (pi band : Nat) (b : Band) (stripe pos row : Nat) : Blk :=
  match directOwner s pi band with
  | some (v, i) => mkBlk (zeros 4096) (volRef 4 v (directBlock b i stripe (if b.mirror then 0 else pos) row)) b.gen
  | none => sysBlk (zeros 4096) band (stripe * stripBlocks b.stripShift + row)

/-- Cause of a loss (Table 4.7). -/
def lossCause (b : Band) (lack : Nat) : Nat := if b.cls = 1 then 7 else if bandTol b < lack then 2 else if bandTol b = 0 then 3 else 1

/-- The system block of a map band that held a leaf DRAM does not hold: every block of its key range is poisoned (R135). -/
def loseNode (s : State) (pi band idx : Nat) : State :=
  match (s.volumes.filter (fun e => e.2.pool == pi)).findSome? (fun e =>
      (e.2.leaves.find? (fun l => l.place == some (band, idx) && !l.resident)).map (fun l => (e.1, e.2, l))) with
  | none => s
  | some (vol, v, l) =>
    let top := min l.high v.capacity
    let s := setVol s vol (fun v => { v with leaves := v.leaves.map (fun x => if x.low = l.low then { x with extents := [], resident := true, dirty := true } else x) })
    if top ≤ l.low then s else poisonBlocks s pi vol l.low (top - l.low) false 5 0xFFFFFFFF 0 0

/-- A row of a mirror band of which no copy passes: a table page or map node is written again from DRAM, a log entry's block from the Mitten; else what it
holds is lost (R133, R135). -/
def loseMirror (s : State) (pi band : Nat) (b : Band) (stripe row lack : Nat) : State :=
  let idx := stripe * stripBlocks b.stripShift + row
  match poolAt s pi, systemAt s pi band idx with
  | some p, some x =>
    forAll ((List.range b.w).map (posTargets p b)).flatten (fun s m => setDrive s m.1 (fun d => putSys d (slotLba m.2 + idx) x)) s
  | _, _ =>
    match placeOwner s pi band b stripe 0 row with
    | none => if b.cls = 3 then loseNode s pi band idx else s
    | some (v, n) =>
      match (poolAt s pi).bind (fun p => mittenAt p v n (b.cls == 1)) with
      | some y => forAll (List.range b.w) (fun s j => writePos s pi band stripe j row y) s
      | none =>
        let s := loseCell s pi band b stripe 0 row (lossCause b lack)
        if (directOwner s pi band).isSome then forAll (List.range b.w) (fun s j => writePos s pi band stripe j row (zeroCell s pi band b stripe 0 row)) s else s

/-! ## Repair (R124 to R127) -/

/-- The copy of a mirror band that repair reads: the lowest position, but those asked for, whose block passes its check. -/
def goodCopy (s : State) (pi : Nat) (p : Pool) (band : Nat) (b : Band) (stripe row : Nat) (skip : List Nat) (bad : List (Nat × Nat)) : Option Nat :=
  let owner := placeOwner s pi band b stripe 0 row
  ((List.range b.w).filter (fun j => !(skip.contains j))).find? (fun j =>
    ((readPos s pi p band b stripe j row bad).map (fun y =>
      match owner with
      | some (v, n) => volOk b v n y
      | none => rowOk s pi band b stripe j row y)).getD false)

/-- The block of a row at one position is copied to the drives of another, in format 4 where the pool's volume block is known. -/
def copyCell (s : State) (pi band : Nat) (b : Band) (stripe row from_ pos : Nat) : State :=
  match poolAt s pi with
  | none => s
  | some p =>
    match posDrive p b from_ with
    | none => s
    | some (d, sl) =>
      let lba := rowLba b.stripShift sl stripe row
      match tget (driveAt s d).sys lba, lbaBlk (driveAt s d) lba with
      | some x, _ => forAll (posTargets p b pos) (fun s m => setDrive s m.1 (fun y => putSys y (rowLba b.stripShift m.2 stripe row) x)) s
      | none, some x =>
        let x := match placeOwner s pi band b stripe 0 row with
          | some (v, n) => mkBlk x.data (volRef 4 v n) b.gen
          | none => x
        writePos s pi band stripe pos row x
      | none, none => s

/-- A position that a restart left with unknown rebuild progress already holds a block of a row that passes its check (R125). -/
def keepsCell (s : State) (pi : Nat) (p : Pool) (band : Nat) (b : Band) (stripe pos row : Nat) (bad : List (Nat × Nat)) : Bool :=
  b.unknownRebuild.contains pos &&
  ((readPos s pi p band b stripe pos row bad).map (fun y =>
    match (if b.parity && b.k ≤ pos then none else placeOwner s pi band b stripe pos row) with
    | some (v, n) => volOk b v n y
    | none => rowOk s pi band b stripe pos row y)).getD false

/-- One row of a stripe: what fails its check at a position that is there is mended; a block that no plan gives is lost and counts as zeros; then every
position that the stripe lacks is written, and with a block lost P and Q as well (R115, R116, R127, R133, R134). -/
def rebuildRow (s : State) (pi band stripe row : Nat) (lack : List Nat) (bad : List (Nat × Nat)) : State :=
  let s := mendRow s pi band stripe row (fun j => !(lack.contains j)) bad
  match poolAt s pi, bandAt s pi band with
  | some p, some b =>
    let idx := stripe * stripBlocks b.stripShift + row
    let todo := lack.filter (fun j => !(keepsCell s pi p band b stripe j row bad))
    if b.mirror then
      match goodCopy s pi p band b stripe row todo bad with
      | some from_ => forAll todo (fun s j => copyCell s pi band b stripe row from_ j) s
      | none => if rowHeld s p b stripe row || (systemAt s pi band idx).isSome || (placeOwner s pi band b stripe 0 row).isSome
                then loseMirror s pi band b stripe row lack.length else s
    else
      let vals := (List.range b.k).map (fun i => (i, fetchRow s pi p band b stripe i row bad))
      let lost := (vals.filter (fun x => x.2.isNone && (b.parity || (placeOwner s pi band b stripe x.1 row).isSome))).map (·.1)
      let s := forAll lost (fun s i =>
        writePos (loseCell s pi band b stripe i row (lossCause b lack.length)) pi band stripe i row (zeroCell s pi band b stripe i row)) s
      let s := forAll (todo.filter (fun j => decide (j < b.k) && !(lost.contains j))) (fun s j =>
        match (vals.find? (fun x => x.1 == j)).bind (·.2) with
        | some y => writePos s pi band stripe j row (match placeOwner s pi band b stripe j row with
            | some (v, n) => mkBlk y (volRef 4 v n) b.gen
            | none => sysBlk y band idx)
        | none => s) s
      if !b.parity then s
      else
        forAll (parityBlks band b stripe row (vals.map (fun x => (x.1, (x.2).getD (zeros 4096))))) (fun s x =>
          if todo.contains x.1 || !lost.isEmpty then writePos s pi band stripe x.1 row x.2 else s) s
  | _, _ => s

/-- Restore every missing position of a stripe (R127). -/
def rebuildStripe (s : State) (pi band stripe : Nat) (lack : List Nat) (bad : List (Nat × Nat)) : State :=
  match bandAt s pi band with
  | none => s
  | some b => forAll (List.range (stripBlocks b.stripShift)) (fun s r => rebuildRow s pi band stripe r lack bad) (touchBand s pi band)

/-- A stripe of a mapped volume's band that lacks more positions than the pool tolerates gives up its place: the blocks on the missing data positions are
lost, and the live blocks of the others move by the reclaim path (R134). -/
def moveSurvivors (s : State) (pi band stripe : Nat) (lack : List Nat) (bad : List (Nat × Nat)) : State :=
  match poolAt s pi, bandAt s pi band with
  | some p, some b =>
    let cells := ((List.range b.k).map (fun j => (List.range (stripBlocks b.stripShift)).map (fun r => (j, r)))).flatten
    let got := cells.filterMap (fun c => (placeOwner s pi band b stripe c.1 c.2).map (fun o => (c, o,
      if lack.contains c.1 then none else (fetchData s pi p band b stripe c.1 c.2 o.1 o.2 bad false).map (·.1))))
    let moves := got.filterMap (fun g => g.2.2.map (fun y =>
      ({ vol := g.2.1.1, block := g.2.1.2, band := band, off := dataOff b.k b.stripShift stripe g.1.1 g.1.2, keyGen := keyGenOf s g.2.1.1 g.2.1.2, data := y } : Reloc)))
    let s := forAll (got.filter (fun g => g.2.2.isNone)) (fun s g => loseCell s pi band b stripe g.1.1 g.1.2 2) s
    setBand (setPool s pi (fun p => { p with relocs := p.relocs ++ moves })) pi band (fun b => { b with abandoned := stripe :: b.abandoned })
  | _, _ => s

/-- A band all of whose written stripes are rebuilt clears its REPAIR_MASK by rewriting its page (R125). -/
def clearMask (s : State) (pi band : Nat) : State :=
  match poolAt s pi, bandAt s pi band with
  | some p, some b =>
    if !b.repairMask.isEmpty && (List.range b.w).all (posPresent p b) && (writtenStripes b).all (fun t => b.repairMask.all (fun j => b.rebuilt.contains (j, t))) then
      refreshPool (writeTables (setBand s pi band (fun b => { b with repairMask := [], rebuilt := [], unknownRebuild := [] })) pi) pi
    else s
  | _, _ => s

/-- The order of repair (R127): bands and stripes that lack positions, least redundancy left first, then band number and stripe. A band with no
written stripe counts once, for its substitution. -/
def repairOrder (p : Pool) : List (Int × Nat × Nat) :=
  let all := (p.bands.map (fun e =>
    if e.2.state == .free || (lacking p e.2).isEmpty then []
    else
      let ts := (writtenStripes e.2).filter (fun t => !(stripeLacks p e.2 t).isEmpty)
      if ts.isEmpty then [((bandTol e.2 : Int) - (lacking p e.2).length, e.1, 0)]
      else ts.map (fun t => ((bandTol e.2 : Int) - (stripeLacks p e.2 t).length, e.1, t)))).flatten
  sortBy (fun a b => decide (a.1 < b.1 ∨ a.1 = b.1 ∧ (a.2.1 < b.2.1 ∨ a.2.1 = b.2.1 ∧ a.2.2 ≤ b.2.2))) all

/-- Substitute every position of a band whose member is gone (R124). -/
def substituteGone (s : State) (pi band : Nat) : State :=
  match poolAt s pi, bandAt s pi band with
  | some p, some b =>
    forAll ((List.range b.w).filter (fun j => !(posPresent p b j))) (fun s j => (substitute s pi band j).getD s) s
  | _, _ => s

/-- Background work of a pool runs: from Early Service level 2, and not while an activation pauses it (R98, R291). -/
def backgroundOn (s : State) (pi : Nat) : Bool := decide (2 ≤ esLevel s) && ((poolAt s pi).map (·.background)).getD false

/-- A stripe that repair can take now: its lock is free (R126), and its drives can be reached. -/
def canRepair (s : State) (pi : Nat) (p : Pool) (band stripe : Nat) : Bool :=
  !(lockHeld s pi band stripe) && ((tget p.bands band).map (bandReach s p)).getD false

/-- REPAIR_STRIPE. Progress already made stands; a further loss changes the order (R132). -/
def repairStripe (s : State) (pi : Nat) (bad : List (Nat × Nat)) : State :=
  match poolAt s pi with
  | none => s
  | some p =>
    if !(backgroundOn s pi) then s
    else
      match (repairOrder p).find? (fun x => canRepair s pi p x.2.1 x.2.2) with
      | none => s
      | some (_, band, stripe) =>
        let lack0 := match tget p.bands band with
          | some b => stripeLacks p b stripe
          | none => []
        let s := substituteGone s pi band
        match poolAt s pi, bandAt s pi band with
        | some p, some b =>
          if (writtenStripes b).contains stripe then
            let beyond := decide (bandTol b < lack0.length) && (directOwner s pi band).isNone && !b.mirror
            if beyond then pumpRelocs (refreshPool (clearMask (moveSurvivors s pi band stripe lack0 bad) pi band) pi) pi
            else
              let lack := stripeLacks p b stripe
              let s := rebuildStripe s pi band stripe lack bad
              let s := setBand s pi band (fun b => { b with rebuilt := (lack.filter (fun j => posPresent p b j)).map (fun j => (j, stripe)) ++ b.rebuilt })
              pumpRelocs (refreshPool (clearMask s pi band) pi) pi
          else clearMask s pi band
        | _, _ => s

def execRepairStripe (pool : Nat) (bad : List (Nat × Nat)) (s : State) : Res := .next (repairStripe s pool bad)

/-- Pending kinds of background work set the floor of s (Table 4.4). -/
def paceFloor (s : State) (p : Pool) : Rat :=
  let one := (repairOrder p).any (fun x => x.1 == 1)
  let evac := p.members.any (fun e => e.2.state == .evacuating)
  let f1 : Rat := if one then (polOf p 0x21 : Nat) else 0
  let f2 : Rat := if evac then (polOf p 0x22 : Nat) else 0
  -- scrub: the rate that reads a member's used slots once in the period, at most 10 %
  let f3 := ratMax (p.present.filterMap (fun e => e.2.driveSlot.map (fun d =>
    let r := (driveAt s d).rd.rate
    let need : Rat := if r = 0 then 0 else ((e.2.used.length * 2 ^ 30 : Nat) : Rat) * 100 / (r * ((polOf p 0x23 * 86400000000 : Nat) : Rat))
    if 10 < need then 10 else need)))
  ratMax [f1, f2, f3]

/-- REPAIR_PACE_ADJUST: every 10 ms the share s falls or rises by the pool's foreground read p99 (R128). -/
def execRepairPaceAdjust (pool : Nat) (s : State) : Res :=
  .next <|
    match poolAt s pool with
    | none => s
    | some p =>
      let s := reach s (p.paceStart + 10000000)
      let ceil : Rat := (polOf p 0x20 : Nat)
      let fl := paceFloor s p
      let ovr := decide (readAroundT s p < (listP99 p.paceLat : Rat))
      let sh := if ovr then (if p.share - p.share / 8 < fl then fl else p.share - p.share / 8)
        else (if ceil < p.share + ceil / 16 then ceil else p.share + ceil / 16)
      setPool s pool (fun p => { p with share := sh, paceLat := [], paceStart := nowOf s })

/-! ## Evacuation (R129 to R131) -/

def evacCode (r : EvacReason) : Nat :=
  match r with
  | .media => 1
  | .drift => 2
  | .wear => 3
  | .critical => 4
  | .backup => 5
  | .command => 6

/-- A member may leave by evacuation: n stays at least w + S (R20). -/
def mayLeave (p : Pool) : Bool := decide (layoutW p.layout p.k + p.spare ≤ p.activeCount - 1) && decide (0 < p.activeCount)

/-- Whether a trigger of Table 4.6 holds for a drive. -/
def evacTrigger (s : State) (p : Pool) (slot : Nat) (r : EvacReason) : Bool :=
  let d := driveAt s slot
  match r with
  | .media => decide (polOf p 0x30 ≤ (d.mediaTimes.filter (fun t => decide (nowOf s < t + 86400000000000))).length)
  | .drift => decide (polOf p 0x32 ≤ d.driftHits)
  | .wear => decide (polOf p 0x33 ≤ d.pctUsed)
  | .critical => d.critWarning.getLsbD 0 || d.critWarning.getLsbD 2 || d.critWarning.getLsbD 3
  | .backup => d.critWarning.getLsbD 4
  | .command => d.evacOp.isSome

/-- A member starts to leave (R129, R130): where R20 forbids it, it waits with its trigger shown. -/
def startEvac (s : State) (slot : Nat) (r : EvacReason) : State :=
  let d := driveAt s slot
  match d.pool with
  | none => s
  | some pi =>
    match poolAt s pi with
    | none => s
    | some p =>
      let mi := memberOfSlot s pi slot
      if d.state = .evacuating ∧ r = .backup then
        -- already leaving: it is put in flushed mode as well (Table 4.6)
        writeLedger (setPool (setDrive s slot (fun d => { d with flushed := true })) pi (fun p =>
          { p with members := tmod p.members mi (fun m => { m with flushed := true }) })) pi
      else if d.state != .member then s
      else
        let s := setDrive s slot (fun d => { d with evacReason := evacCode r, flushed := d.flushed || r == .backup })
        let s := if r = .backup then setPool s pi (fun p => { p with members := tmod p.members mi (fun m => { m with flushed := true }) }) else s
        if !(mayLeave p) then setDrive s slot (fun d => { d with evacWaiting := true })
        else
          let s := setDrvState (setDrive s slot (fun d => { d with evacWaiting := false })) slot .evacuating
          let s := setPool s pi (fun p => { p with members := tmod p.members mi (fun m => { m with state := .evacuating }) })
          let s := mgmt (writeLedger s pi) 10 slot (evacCode r)
          dropCopyMember s pi mi

/-- EVACUATION_START. -/
def execEvacuationStart (slot : Nat) (reason : EvacReason) (s : State) : Res :=
  .next <|
    match (driveAt s slot).pool.bind (poolAt s) with
    | some p => if evacTrigger s p slot reason then startEvac s slot reason else s
    | none => s

/-- LATENCY_DRIFT_WINDOW: a 1 h window ends; a drive above the policy's factor of its pool's median in enough windows in a row triggers evacuation
(Table 4.6). -/
def execLatencyDriftWindow (s : State) : Res :=
  .next <|
    let s := reach s (s.clk.driftStart + 3600000000000)
    forAll s.pools (fun s e =>
      let med := median (memberMeans s e.2)
      let slots := e.2.present.filterMap (fun m => m.2.driveSlot)
      forAll slots (fun s d =>
        let hit := decide ((polOf e.2 0x31 : Rat) * med < (driveAt s d).rd.mean)
        let s := setDrive s d (fun x => { x with driftHits := if hit then x.driftHits + 1 else 0 })
        match poolAt s e.1 with
        | some p => if evacTrigger s p d .drift then startEvac s d .drift else s
        | none => s) s) { s with clk := { s.clk with driftStart := nowOf s } }

/-- One row of an evacuated position goes to the substitute: the source's block where it passes its check, else what R115 gives; a block that no plan gives
is lost, and zeros take its place and count in P and Q (R130, R133). -/
def evacRow (s : State) (pi band stripe pos row : Nat) (bad : List (Nat × Nat)) : State :=
  let s := mendRow s pi band stripe row (· == pos) bad
  match poolAt s pi, bandAt s pi band with
  | some p, some b =>
    let failed := (badCells s pi p band b stripe row bad).any (fun c => c.1 == pos)
    match (posDrive p b pos), b.evac.bind (fun e => ((tget p.members e.2.1).bind (·.driveSlot)).map (fun d => (d, e.2.2))) with
    | some (d, sl), some (d1, sl1) =>
      let lba := rowLba b.stripShift sl stripe row
      let lba1 := rowLba b.stripShift sl1 stripe row
      if !failed && driveOk s d then
        match tget (driveAt s d).sys lba, lbaBlk (driveAt s d) lba with
        | some x, _ => setDrive s d1 (fun y => putSys y lba1 x)
        | none, some x => setDrive s d1 (fun y => putBlk y lba1 x)
        | none, none => s
      else
        let s := touchBand s pi band
        match rebuildBlk s pi p band b stripe pos row ((d, lba) :: bad) with
        | some y => setDrive s d1 (fun z => putBlk z lba1 y)
        | none =>
          if b.mirror then (if rowHeld s p b stripe row then loseMirror s pi band b stripe row 0 else s)
          else rebuildRow s pi band stripe row [] ((d, lba) :: bad)
    | _, _ => s
  | _, _ => s

/-- Copy one position of a band to a substitute, stripe by stripe, then switch the Band Table to it (R130). -/
def evacPosition (s : State) (pi band pos : Nat) (bad : List (Nat × Nat)) : Option State :=
  let s := closeBand s pi band
  match poolAt s pi, bandAt s pi band with
  | some p, some b =>
    match chooseSubstitute s p band b with
    | none => none
    | some (m, sl) =>
      let s := writeTables (setPool s pi (fun p =>
        { p with members := useSlots p.members [(m, sl)], bands := tmod p.bands band (fun b => { b with evac := some (pos, m, sl) }) })) pi
      if ((tget p.members m).bind (·.driveSlot)).isNone then none
      else
        let s := forAll (writtenStripes b) (fun s t => forAll (List.range (stripBlocks b.stripShift)) (fun s row => evacRow s pi band t pos row bad) s) s
        let old := (b.members[pos]?).getD (64, 0)
        let s := sendRec s pi (.band band b.gen 2 pos m sl)
        some (pumpRelocs (writeTables (setPool s pi (fun p =>
          { p with members := releaseSlots p.members [old]
                   bands := tmod p.bands band (fun b => { b with members := b.members.set pos (m, sl), evac := none }) })) pi) pi)
  | _, _ => none

/-- The last band of an evacuating member has moved: it is REMOVED, safe to pull (R131). -/
def finishEvac (s : State) (pi slot : Nat) : State :=
  let mi := memberOfSlot s pi slot
  match poolAt s pi with
  | none => s
  | some p =>
    let left := p.bands.any (fun e => e.2.state != .free && e.2.members.any (fun m => m.1 == mi))
    if left || (driveAt s slot).state != .evacuating then s
    else
      let s := setPool s pi (fun p => { p with members := tmod p.members mi (fun m => { m with state := .removed, driveSlot := none }) })
      let s := setDrvState s slot .removed
      let op := (driveAt s slot).evacOp
      let s := setDrive s slot (fun d => { d with pool := none, member := none, evacReason := 0, evacOp := none })
      let s := writeLedger s pi
      match op with
      | some o => endOp s o 0
      | none => s

/-- EVAC_BAND: the lowest band with a position on the drive moves; so does a position whose failed in-place Write R395 moves. -/
def execEvacBand (slot : Nat) (bad : List (Nat × Nat)) (s : State) : Res :=
  .next <|
    match (driveAt s slot).pool with
    | none => s
    | some pi =>
      match poolAt s pi with
      | none => s
      | some p =>
        if !(backgroundOn s pi) then s
        else
          -- a unit whose position waits to be moved (R395)
          let mi := memberOfSlot s pi slot
          match p.units.findSome? (fun e =>
              if e.2.stage = .acked then
                (e.2.toMove.find? (fun j => ((tget p.bands e.2.band).bind (fun b => b.members[j]?)).map (·.1) == some mi)).map (fun j => (e.1, e.2, j))
              else none) with
          | some (w, u, j) =>
            -- the failed stripe's strip is reconstructed, not copied
            let skip := match tget p.bands u.band with
              | some b => (match posDrive p b j with
                | some (d, sl) => (List.range (stripBlocks b.stripShift)).map (fun r => (d, rowLba b.stripShift sl u.stripe r))
                | none => [])
              | none => []
            match evacPosition s pi u.band j (skip ++ bad) with
            | some s => setUnit s pi w (fun u => { u with toMove := u.toMove.filter (· != j) })
            | none => s
          | none =>
            if (driveAt s slot).state != .evacuating then s
            else
              let bands := p.bands.filterMap (fun e =>
                if e.2.state != .free && e.1 != p.copy.band && some e.1 != p.copy.opening.map (·.band) then
                  (e.2.members.findIdx? (fun m => m.1 == mi)).map (fun j => (e.1, j))
                else none)
              match bands with
              | [] => finishEvac s pi slot
              | (band, j) :: _ =>
                if p.locks.any (fun l => l.1 == band) || !(((tget p.bands band).map (bandReach s p)).getD false) then s
                else
                  match evacPosition s pi band j bad with
                  | some s => finishEvac s pi slot
                  | none => s

/-! ## Scrub (R139, R140) -/

/-- The copies of a row of a mirror band that pass their check: position and block. -/
def passingCopies (s : State) (pi : Nat) (p : Pool) (band : Nat) (b : Band) (stripe row : Nat) (bad : List (Nat × Nat)) : List (Nat × Blk) :=
  (List.range b.w).filterMap (fun j => (readPos s pi p band b stripe j row bad).bind (fun y =>
    let ok := match placeOwner s pi band b stripe 0 row with
      | some (v, n) => volOk b v n y
      | none => rowOk s pi band b stripe j row y
    if ok then some (j, y) else none))

/-- One row of a scrubbed stripe: a block that fails its check is reconstructed and mended, or lost; then parity is compared with the data, or
copies with one another (Table 4.9). -/
def scrubRow (s : State) (pi band stripe row : Nat) (bad : List (Nat × Nat)) : State :=
  match poolAt s pi, bandAt s pi band with
  | some p, some b =>
    if !(rowHeld s p b stripe row) then s
    else
      let cells := badCells s pi p band b stripe row bad
      let s := mendRow s pi band stripe row (fun _ => true) bad
      -- what no plan gives is lost
      let s :=
        if b.mirror then (if (passingCopies s pi p band b stripe row bad).isEmpty then loseMirror s pi band b stripe row 0 else s)
        else if cells.any (fun c => decide (c.1 < b.k) && (rebuildBlk s pi p band b stripe c.1 row bad).isNone) then
          rebuildRow s pi band stripe row [] bad
        else s
      match poolAt s pi with
      | none => s
      | some p =>
        if b.mirror then
          let good := passingCopies s pi p band b stripe row bad
          match good with
          | [] => s
          | c :: _ =>
            if good.all (fun x => x.2.data == c.2.data) then s
            else
              let major := good.find? (fun x => decide (2 ≤ (good.filter (fun y => y.2.data == x.2.data)).length))
              let win := major.getD c
              let s := forAll (good.filter (fun x => x.2.data != win.2.data)) (fun s x =>
                let s := copyCell (touchBand s pi band) pi band b stripe row win.1 x.1
                if major.isSome then s
                else match posDrive p b x.1 with
                  | some (d, sl) =>
                    let (cause, s) := drawNat s
                    mediaEvent s d (rowLba b.stripShift sl stripe row) (cause % 256)
                  | none => s) s
              setPool s pi (fun p => { p with mirrorFixed := p.mirrorFixed + 1 })
        else if b.parity then
          let ds : List (Option (Nat × Bytes)) := (List.range b.k).map (fun i => (fetchRow s pi p band b stripe i row bad).map (fun y => (i, y)))
          if ds.any (·.isNone) then s
          else
            forAll (parityBlks band b stripe row (ds.filterMap id)) (fun s x =>
              match readPos s pi p band b stripe x.1 row bad with
              | some y =>
                if y.data == x.2.data || cells.any (fun c => c.1 == x.1) then s
                else setPool (mendPos s pi band stripe x.1 row x.2) pi (fun p => { p with parityFixed := p.parityFixed + 1 })
              | none => s) s
        else s
  | _, _ => s

/-- The copies of the ledger on a pool's members that are not valid or not the newest, and the copies of Band Table pages that fail their check: the writes
that mend them (R139). -/
def failingTables (s : State) (pi : Nat) (p : Pool) : List (List (Nat × SysPut)) :=
  let l := ledgerOf s pi p
  let want (c : Nat) : List Nat := ((presentDrives p).map (·.2)).filter (fun d =>
    driveOk s d && !(((ledgerCopy (driveAt s d) c).map (fun x => x.valid && x.gen == p.gen)).getD false) && !(c == 0 && p.g2Copy0))
  let copy (c : Nat) : List (List (Nat × SysPut)) :=
    [(want c).map (fun d => (d, .body { l with copy := c })), (want c).map (fun d => (d, .head { l with copy := c }))]
  let pages := (p.pageSeqs.map (fun e =>
    let band := (p.tableBands[e.1 / 262144]?).getD 0xFFFFFFFF
    let idx := e.1 % 262144
    match systemAt s pi band idx, tget p.bands band with
    | some x, some b => ((bandDrives p b).filter (fun m => driveOk s m.1 && (tget (driveAt s m.1).sys (slotLba m.2 + idx) != some x))).map (fun m =>
        (m.1, SysPut.block (slotLba m.2 + idx) x))
    | _, _ => [])).flatten
  copy 1 ++ copy 0 ++ [pages]

/-- Once in each period every ledger copy and every Band Table page copy is read and checked, and what fails is written again (R139). While table writes are
under way the check waits. -/
def scrubTables (s : State) (pi : Nat) : State :=
  match poolAt s pi with
  | none => s
  | some p =>
    if !p.jobs.isEmpty || decide (nowOf s < p.scrubTables + polOf p 0x23 * 86400000000000) then s
    else addJob (setPool s pi (fun p => { p with scrubTables := nowOf s })) pi [] [] (failingTables s pi p)

/-- Whether a stripe of a mapped data band holds no live block (R139). -/
def stripeDead (s : State) (pi band : Nat) (b : Band) (stripe : Nat) : Bool :=
  (b.cls == 0 || b.cls == 2) && (directOwner s pi band).isNone &&
    !((List.range b.k).any (fun j => (List.range (stripBlocks b.stripShift)).any (fun r => (placeOwner s pi band b stripe j r).isSome)))

/-- Whether scrub may take a band: closed, with neither REPAIR_MASK nor EVAC set (R139). -/
def mayScrub (b : Band) : Bool := b.state == .closed && b.repairMask.isEmpty && b.evac.isNone

/-- Whether another band has an older SCRUB_TIME (R139). -/
def olderScrub (s : State) (pi : Nat) (b : Band) : Bool :=
  ((poolAt s pi).map (fun p => p.bands.any (fun e => mayScrub e.2 && decide (e.2.scrubTime < b.scrubTime)))).getD false

/-- SCRUB_STRIPE: the ledgers and Band Table pages where their period is over, and the next stripe of the band with the oldest SCRUB_TIME; after its last stripe the band's SCRUB_TIME is set. -/
def execScrubStripe (pool band stripe : Nat) (bad : List (Nat × Nat)) (s : State) : Res :=
  .next <|
    match bandAt s pool band with
    | none => s
    | some b =>
      let reach_ := ((poolAt s pool).map (fun p => bandReach s p b)).getD false
      let s := if backgroundOn s pool then scrubTables s pool else s
      if !(backgroundOn s pool) || !(mayScrub b) || olderScrub s pool b || lockHeld s pool band stripe || !reach_ then s
      else
        let rest := (writtenStripes b).filter (fun t => decide (b.scrubNext ≤ t))
        let finish (s : State) : State := writeTables (setBand s pool band (fun b => { b with scrubTime := nowOf s, scrubNext := 0 })) pool
        if rest.isEmpty then finish s
        else if !(rest.contains stripe) || rest.any (fun t => decide (t < stripe)) then s
        else
          let s :=
            if stripeDead s pool band b stripe then s
            else pumpRelocs (forAll (List.range (stripBlocks b.stripShift)) (fun s r => scrubRow s pool band stripe r bad) s) pool
          if rest.all (fun t => decide (t ≤ stripe)) then finish s
          else setBand s pool band (fun b => { b with scrubNext := stripe + 1 })

/-! ## Conversion of format-3 bands (R150) -/

/-- One row of a converted stripe: each block that passes under either format is written back with its format-4 tag; one that fails is counted, and takes
what R115 gives; what no plan gives is lost (R116, R133). -/
def convertRow (s : State) (pi band stripe row : Nat) (bad : List (Nat × Nat)) : State :=
  let cells := match poolAt s pi, bandAt s pi band with
    | some p, some b => badCells s pi p band b stripe row bad
    | _, _ => []
  let s := forAll cells (fun s c => mediaEvent s c.2.1 c.2.2.1 c.2.2.2) s
  match poolAt s pi, bandAt s pi band with
  | some p, some b =>
    let idx := stripe * stripBlocks b.stripShift + row
    let lost := cells.any (fun c => (rebuildBlk s pi p band b stripe c.1 row bad).isNone)
    let s := forAll ((List.range b.w).filter (fun j => !(stripeLacks p b stripe).contains j)) (fun s j =>
      let y := if cells.any (fun c => c.1 == j) then (rebuildBlk s pi p band b stripe j row bad).map (·.data) else (readPos s pi p band b stripe j row bad).map (·.data)
      match y with
      | none => s
      | some y =>
        let ref := if b.parity && b.k ≤ j then sysRef band idx
          else match placeOwner s pi band b stripe j row with
            | some (v, n) => volRef 4 v n
            | none => sysRef band idx
        writePos s pi band stripe j row (mkBlk y ref b.gen)) s
    if lost then (if b.mirror then loseMirror s pi band b stripe row 0 else rebuildRow s pi band stripe row [] bad) else s
  | _, _ => s

/-- BAND_CONVERT: every block of the band is written back with a format-4 tag, stripe by stripe, the cursor recorded every 64; then FORMAT is 4 and STATE CLOSED. -/
def convertBand (s : State) (pi band : Nat) (bad : List (Nat × Nat)) : State :=
  match bandAt s pi band with
  | none => s
  | some b =>
    let busy := ((poolAt s pi).map (fun p => p.locks.any (fun l => l.1 == band) || !(bandReach s p b))).getD true
    if b.fmt != 3 || b.state == .free || busy then s
    else
      let s := touchBand s pi band
      let s := forAll ((List.range (stripesPerBand b.stripShift)).filter (fun t => decide (b.convertCursor ≤ t))) (fun s t =>
        let s := forAll (List.range (stripBlocks b.stripShift)) (fun s row => convertRow s pi band t row bad) s
        if (t + 1) % 64 = 0 then writeTables (setBand s pi band (fun b => { b with convertCursor := t + 1 })) pi else s) s
      ageFormat (writeTables (setBand s pi band (fun b => { b with fmt := 4, state := .closed, convertCursor := 0 })) pi) pi

def execBandConvert (pool band : Nat) (bad : List (Nat × Nat)) (s : State) : Res := .next (convertBand s pool band bad)

end Sys2Proof.Machine
end

