-- ==== Sys2Proof/Machine/Fold.lean ====
section
/-! DEFINITION. Folding (R57 to R60, R394), reclaim (R71), freeing of bands (R61) and key rotation of direct volumes (R42, R96). Each row makes units of the
device's own, which take the paths of host units; `bad` lists the blocks that drives fail to return while it reads. -/

namespace Sys2Proof.Machine

/-! ## Blocks on the move (R59, R71) -/

/-- A unit already moves a block from a place, or it waits for one (R116). -/
def moving (p : Pool) (m : Move) : Bool :=
  let same (vol block band off : Nat) : Bool := vol == m.vol && block == m.block && band == m.band && off == m.off
  p.units.any (fun u => u.2.moves.any (fun x => same x.vol x.block x.band x.off && x.wseq == m.wseq)) || p.relocs.any (fun r => same r.vol r.block r.band r.off)

/-- The WRITE_SEQ of the Mitten copy of a logged block, 0 without one. -/
def mittenSeq (p : Pool) (vol block : Nat) : Nat := (((p.mitten.filter (fun m => m.vol == vol && m.block == block)).getLast?).map (·.wseq)).getD 0

/-- The mapped blocks of a pool's volumes that satisfy a condition on volume and extent, in order of volume and block, none of them on its way already. -/
def mappedMoves (s : State) (pi : Nat) (p : Pool) (want : Volume → Extent → Bool) : List Move :=
  ((s.volumes.filter (fun e => e.2.pool == pi && e.2.kind == .mapped)).map (fun e =>
    ((e.2.leaves.map (·.extents)).flatten.filter (fun x => x.kind == .mapped && want e.2 x)).map (fun x =>
      (List.range x.len).map (fun j =>
        ({ vol := e.1, block := x.start + j, band := x.band, off := x.off + j, keyGen := x.keyGen, wseq := mittenSeq p e.1 (x.start + j) } : Move))) |>.flatten)).flatten
    |>.filter (fun m => !(moving p m))

/-- Live logged blocks of mapped volumes (R59). -/
def liveLogged (s : State) (pi : Nat) (p : Pool) : List Move :=
  mappedMoves s pi p (fun _ x => ((tget p.bands x.band).map (fun b => b.cls == 1)).getD false)

/-- The mapped blocks of a band (R71). -/
def bandLive (s : State) (pi : Nat) (p : Pool) (band : Nat) : List Move := mappedMoves s pi p (fun _ x => x.band == band)

/-- Blocks of rotating mapped volumes still under their previous key, where both keys are loaded (R42). -/
def oldKeyBlocks (s : State) (pi : Nat) (p : Pool) : List Move :=
  (mappedMoves s pi p (fun v x => v.rotating && x.keyGen == v.prevKeyGen)).filter (fun m => ((volAt s m.vol).map (keysLoaded s m.vol)).getD false)

/-- The bytes of blocks that are to move, from the Mitten or flash (R57, R63); a block that cannot be had is lost, and a block that failed its check on the
way is mended (R116, R133). -/
def gatherBlocks (s : State) (pi : Nat) (l : List Move) (bad : List (Nat × Nat)) : State × List (Move × Bytes) :=
  l.foldl (fun (acc : State × List (Move × Bytes)) m =>
    match poolAt acc.1 pi, bandAt acc.1 pi m.band with
    | some p, some b =>
      let (t, pos, row) := dataPlace b.k b.stripShift m.off
      (match mittenAt p m.vol m.block (b.cls == 1) with
       | some y => (acc.1, acc.2 ++ [(m, y.data)])
       | none =>
         match readMend acc.1 pi m.band t pos row m.vol m.block bad with
         | (s, some y) => (s, acc.2 ++ [(m, y)])
         | (s, none) =>
           if bandReach s p b then (poisonBlocks s pi m.vol m.block 1 false (if b.cls = 1 then 7 else if b.k = 1 ∨ b.parity then 1 else 3) m.band t pos, acc.2)
           else (s, acc.2))
    | _, _ => acc) (s, [])

/-- A block under a previous key is re-encrypted under the current one as reclaim moves it (R42, R71). -/
def rekey (s : State) (x : Move × Bytes) : Move × Bytes :=
  match volAt s x.1.vol with
  | some v =>
    if v.encrypted && v.rotating && x.1.keyGen == v.prevKeyGen then
      match rekeyBytes s v x.1.vol x.1.keyGen v.keyGen x.1.block x.2 with
      | some y => ({ x.1 with keyGen := v.keyGen }, y)
      | none => x
    else x
  | none => x

/-- Blocks of one stripe's size go to a fold stripe: a full-stripe unit, or a padded one; outside parity layouts to a fresh run (R57, R67). -/
def addMove (s : State) (pi : Nat) (p : Pool) (fold : Bool) (l : List (Move × Bytes)) : State :=
  if l.isEmpty then s
  else
    let S := p.k * stripBlocks p.stripShift
    let path : WPath := if layoutParity p.layout then (if l.length = S then .fullFresh else .padded) else if layoutMirror p.layout then .freshRun else .plainRun
    (addUnit s pi (moveUnit path fold l)).1

/-- Blocks move by the reclaim path, a fold stripe at a time. -/
def moveBlocks (s : State) (pi : Nat) (l : List Move) (bad : List (Nat × Nat)) : State :=
  match poolAt s pi with
  | none => s
  | some p =>
    forAll (chunks (p.k * stripBlocks p.stripShift) 0 l.length) (fun s c =>
      let (s, got) := gatherBlocks s pi ((l.drop c.1).take c.2) bad
      addMove s pi p true (got.map (rekey s))) s

/-! ## Folding -/

/-- The log reserve is at least 75 % occupied (R57). -/
def logFull (p : Pool) : Bool := decide (0 < p.logHeld ∧ 3 * p.logReserveSlots ≤ 4 * p.logHeld)

/-- Whether the pool folds now (R57), with the hysteresis of its Mitten condition; a ring whose free slots are below URGENT_FRAC makes it fold too
(R88, log entry 58). -/
def foldOn (s : State) (p : Pool) : Bool :=
  let share := mittenShare s p
  let used := p.mitten.length * 256
  let start := (decide (0 < share) && decide (p.watermark * share ≤ used)) || logFull p
  let stop := (decide (share = 0) || decide (used < (p.watermark - 16) * share)) && !(logFull p)
  start || (p.folding && !stop) || freeBelow (ringAt s p.ring) (fld s .hbxRingCfg 7 0)

/-- The newest pending entries of a direct volume's stripe that no unit folds yet, block by block (R60, R394). -/
def foldable (p : Pool) (vol : Nat) (v : Volume) (S g : Nat) : List PendingBlk :=
  let newest (x : PendingBlk) : Bool := (v.pending.filter (fun y => y.block == x.block)).getLast? == some x
  sortBy (fun (a b : PendingBlk) => decide (a.block ≤ b.block)) (v.pending.filter (fun x => x.block / S == g && newest x &&
    !(p.units.any (fun u => u.2.moves.any (fun m => m.vol == vol && m.block == x.block && m.wseq == x.wseq)))))

/-- The bytes of a pending entry under the volume's current key: zeros, the Mitten's copy or the log's (R42, R57, R63). Answers none for bytes that are lost;
with a key not loaded `keyOk` is false. -/
def pendingBytes (s : State) (pi vol : Nat) (v : Volume) (x : PendingBlk) (bad : List (Nat × Nat)) : State × Option EdgeBlk :=
  let edge (y : Bytes) (ok : Bool) : EdgeBlk := { blk := mkBlk y (volRef 4 vol x.block) 0, guardOk := true, keyOk := ok }
  if x.zeroes then (s, some (edgeBlock s vol v.keyGen x.block (zeros 4096) none))
  else
    match poolAt s pi, bandAt s pi x.band with
    | some p, some lb =>
      let (t, q, r) := dataPlace lb.k lb.stripShift x.off
      let (s, got) := match mittenAt p vol x.block true with
        | some y => (s, some y.data)
        | none => readMend s pi x.band t q r vol x.block bad
      (s, got.map (fun y =>
        match rekeyBytes s v vol x.keyGen v.keyGen x.block y with
        | some z => edge z true
        | none => edge [] false))
    | _, _ => (s, none)

/-- A logged block of which no copy can be read is lost: it leaves the index and is poisoned (R133, Table 4.7). -/
def losePending (s : State) (pi vol : Nat) (x : PendingBlk) : State :=
  let s := setVol (subLive s pi x.band 1) vol (fun v => { v with pending := v.pending.filter (fun y => y != x) })
  poisonBlocks s pi vol x.block 1 false 7 x.band 0 0

/-- Contiguous runs of blocks, with what belongs to each. -/
def blockRuns (l : List (PendingBlk × EdgeBlk)) : List (List (PendingBlk × EdgeBlk)) :=
  (l.foldl (fun (acc : List (List (PendingBlk × EdgeBlk))) x =>
    match acc with
    | (y :: t) :: r => if y.1.block + 1 = x.1.block then (x :: y :: t) :: r else [x] :: acc
    | _ => [x] :: acc) []).reverse.map List.reverse

/-- A run of pending blocks of a stripe becomes an in-place unit, and its lock is asked for: a full-stripe write where it covers the stripe, else a
read-modify-write (R60). One unit a run (log entry 59). -/
def addFold (s : State) (pi : Nat) (p : Pool) (vol : Nat) (v : Volume) (l : List (PendingBlk × EdgeBlk)) (bad : List (Nat × Nat)) : State :=
  match l.head? with
  | none => s
  | some (x, _) =>
    let (li, stripe, pos, row) := directPlace p.k p.stripShift x.block
    let u : Unit :=
      { vol := vol, cmd := none, start := x.block, count := l.length, path := if l.length = p.k * stripBlocks p.stripShift then .fullInPlace else .rmw
        stage := .waitLock, keyGen := v.keyGen, fold := true, band := (v.bandList[li]?).getD 0, stripe := stripe
        off := dataOff p.k p.stripShift stripe pos row, data := l.map (fun y => some y.2)
        moves := l.map (fun y => { vol := vol, block := y.1.block, band := y.1.band, off := y.1.off, keyGen := v.keyGen, wseq := y.1.wseq }) }
    let (s, w) := addUnit s pi u
    grantLock s pi w bad

/-- The pending blocks of one target stripe of a direct volume go into place (R60). None where no stripe has any that can be folded now. -/
def foldDirect (s : State) (pi : Nat) (bad : List (Nat × Nat)) : Option State :=
  match poolAt s pi with
  | none => none
  | some p =>
    let S := p.k * stripBlocks p.stripShift
    (s.volumes.filter (fun e => e.2.pool == pi && e.2.kind == .direct)).findSome? (fun e =>
      ((e.2.pending.map (fun x => x.block / S)).eraseDups).findSome? (fun g =>
        let (s, got) := (foldable p e.1 e.2 S g).foldl (fun (acc : State × List (PendingBlk × EdgeBlk)) x =>
          match pendingBytes acc.1 pi e.1 e.2 x bad with
          | (s, some y) => if y.keyOk then (s, acc.2 ++ [(x, y)]) else (s, acc.2)
          | (s, none) => if (((poolAt s pi).bind (fun p => (tget p.bands x.band).map (bandReach s p))).getD true) then (losePending s pi e.1 x, acc.2) else (s, acc.2))
          (s, [])
        if got.isEmpty then none
        else some (forAll (blockRuns got) (fun s l => addFold s pi p e.1 e.2 l bad) s)))

/-- One fold stripe of a pool: pending blocks of a direct volume's stripe in place, else reconstructed blocks that wait for a fold (R116), then
live logged blocks of mapped volumes. -/
def foldOne (s : State) (pi : Nat) (bad : List (Nat × Nat)) : State :=
  match foldDirect s pi bad with
  | some s => s
  | none =>
    match poolAt s pi with
    | none => s
    | some p =>
      let S := p.k * stripBlocks p.stripShift
      let rel := (p.relocs.take S).map relocMove
      let (s, logged) := gatherBlocks s pi ((liveLogged s pi p).take (S - rel.length)) bad
      addMove (setPool s pi (fun p => { p with relocs := p.relocs.drop S })) pi p true (rel ++ logged)

/-- FOLD_STRIPE. -/
def execFoldStripe (pool : Nat) (bad : List (Nat × Nat)) (s : State) : Res :=
  .next <|
    match poolAt s pool with
    | none => s
    | some p =>
      let on := foldOn s p && p.background
      let s := setPool s pool (fun p => { p with folding := on })
      if on then foldOne s pool bad else s

/-- FOLD_WATERMARK_ADJUST: the end of a pool's 100 ms window (R58). -/
def execFoldWatermarkAdjust (pool : Nat) (s : State) : Res :=
  .next <|
    match poolAt s pool with
    | none => s
    | some p => rollFold (reach s (p.foldStart + 100000000)) pool

/-! ## Reclaim (R71) -/

/-- Free slots beyond the spare reserve are below the reclaim threshold. -/
def reclaimOn (p : Pool) : Bool := decide (p.freeSlots * 100 < p.spareReserve * 100 + p.reclaimPct * p.slotTotal)

/-- Live nodes of a map band that no checkpoint is to write elsewhere yet: volume, and level and first key of the node (R160). -/
def staleNodes (s : State) (pi band : Nat) : List (Nat × Nat × Nat) :=
  ((s.volumes.filter (fun e => e.2.pool == pi)).map (fun e =>
    (e.2.leaves.filter (fun l => !l.dirty && (l.place.map (·.1)) == some band)).map (fun l => (e.1, 0, l.low)) ++
    (e.2.inner.filter (fun n => !n.dirty && (n.place.map (·.1)) == some band)).map (fun n => (e.1, n.level, n.low)))).flatten

/-- The live nodes of a map band count as changed, so that the next checkpoint writes them elsewhere (R160). -/
def markNodes (s : State) (pi band : Nat) : State :=
  let hit (pl : Option (Nat × Nat)) : Bool := (pl.map (·.1)) == some band
  let s := forAll ((staleNodes s pi band).map (·.1)).eraseDups (fun s vol =>
    setVol s vol (fun v =>
      { v with leaves := v.leaves.map (fun l => if hit l.place then { l with dirty := true, resident := true } else l)
               inner := v.inner.map (fun n => if hit n.place then { n with dirty := true } else n) })) s
  fitMap s pi 0 none

/-- The closed band of mapped data or map nodes with the lowest live fraction, of those that hold live blocks and some dead space. -/
def reclaimTarget (s : State) (pi : Nat) (p : Pool) : Option Nat :=
  let cand := p.bands.filter (fun e =>
    e.2.state == .closed && (e.2.cls == 0 || e.2.cls == 2 || (e.2.cls == 3 && !(staleNodes s pi e.1).isEmpty)) && (directOwner s pi e.1).isNone &&
      decide (0 < e.2.live ∧ e.2.live < bandBlocks e.2))
  ((sortBy (fun (a b : Nat × Band) => decide (a.2.live * bandBlocks b.2 ≤ b.2.live * bandBlocks a.2)) cand).head?).map (·.1)

/-- Something of a volume is still under a key generation: a mapped block, or a block that a unit or a relocation will put somewhere. -/
def genInUse (s : State) (pi vol gen : Nat) : Bool :=
  ((volAt s vol).map (fun v => v.leaves.any (fun l => l.extents.any (fun x => x.kind == .mapped && x.keyGen == gen)) ||
    v.overlay.any (fun r =>
      match r with
      | .mapDelta _ _ _ _ _ _ _ _ _ g _ _ _ _ _ _ => g == gen
      | .logEntry _ _ _ _ g _ _ _ _ _ _ => g == gen
      | _ => false))).getD false ||
  ((poolAt s pi).map (fun p => p.units.any (fun u => (u.2.vol == vol && u.2.keyGen == gen && !u.2.zero && !u.2.dealloc) ||
      u.2.moves.any (fun m => m.vol == vol && m.keyGen == gen)) || p.relocs.any (fun r => r.vol == vol && r.keyGen == gen))).getD false

/-- Rotations of mapped volumes with no block left under the previous key end. -/
def endMappedRotations (s : State) (pi : Nat) : State :=
  forAll (s.volumes.filter (fun e => e.2.pool == pi && e.2.kind == .mapped && e.2.rotating)) (fun s e =>
    if !e.2.rootLoaded || genInUse s pi e.1 e.2.prevKeyGen then s else endRotation s e.1) s

/-- The reclaim threshold adapts within its policies' bounds; how is left open, so it becomes a free value of them (R71, log entry 24). -/
def adaptReclaim (s : State) (pi : Nat) : State :=
  let (d, s) := drawNat s
  setPool s pi (fun p => { p with reclaimPct := polOf p 0x05 + d % (polOf p 0x06 + 1 - polOf p 0x05) })

/-- RECLAIM_BAND: the reconstructed blocks that wait for a fresh place, and the blocks under a previous key of a rotating volume, a stripe at a time; else,
below the threshold, the band with the lowest live fraction: of a map band its nodes are marked (R116, R134, R160). -/
def execReclaimBand (pool : Nat) (bad : List (Nat × Nat)) (s : State) : Res :=
  .next <|
    match poolAt s pool with
    | none => s
    | some p =>
      let old := oldKeyBlocks s pool p
      let S := p.k * stripBlocks p.stripShift
      if !p.background then s
      else if !p.relocs.isEmpty then addMove (setPool s pool (fun p => { p with relocs := p.relocs.drop S })) pool p true ((p.relocs.take S).map relocMove)
      else if !old.isEmpty then moveBlocks s pool (old.take S) bad
      else
        let s := endMappedRotations s pool
        adaptReclaim (if !(reclaimOn p) then s
          else
            match reclaimTarget s pool p with
            | some band =>
              if ((tget p.bands band).map (·.cls)).getD 0 = 3 then markNodes s pool band else moveBlocks s pool (bandLive s pool p band) bad
            | none => s) pool

/-! ## Freeing bands (R61, R111, R160) -/

/-- A read, a drive command or an unfinished record still needs a band. -/
def bandInUse (s : State) (pi : Nat) (p : Pool) (band : Nat) : Bool :=
  s.hq.cmds.any (fun e => e.2.pool == pi && e.2.reads.any (fun r => r.got.isNone && r.bad.isNone &&
      (match r.src with
       | .flash b _ _ => b == band
       | _ => false))) ||
    p.units.any (fun e => e.2.band == band && e.2.stage != .waitPlace && e.2.path != .mapOnly) ||
    p.streams.any (fun st => st.band == some band || st.recs.any (fun r => r.band == band && r.entries.any (fun w => thas p.units w.wseq)))

/-- Whether a band may be freed: closed, of log, mapped data or map class, without live blocks, the records of the moves on the drive copy. -/
def mayFree (s : State) (pi : Nat) (p : Pool) (band : Nat) (b : Band) : Bool :=
  b.state == .closed && decide (b.cls ≤ 3) && decide (b.live = 0) && decide (b.movesSeq ≤ p.copy.copied) &&
    p.rootsLoaded && (directOwner s pi band).isNone && !(bandInUse s pi p band)

/-- Dataset Management deallocate over a slot: the drive's blocks there are gone (R71). -/
def deallocSlot (s : State) (d slot : Nat) : State :=
  let s := emit (setDrive s d (fun x => { x with nextCid := x.nextCid + 1 }))
    (.nvme d (driveAt s d).nextCid .dealloc (slotLba slot) 0x40000 none (formOf (driveAt s d) 0))
  setDrive s d (fun x => wipeSlot x slot)

/-- BAND_FREE: the band's slots are released, then deallocated on every member. -/
def execBandFree (pool band : Nat) (s : State) : Res :=
  .next <|
    match poolAt s pool, bandAt s pool band with
    | some p, some b =>
      if mayFree s pool p band b then
        let s := freeBandOf s pool band
        forAll b.members (fun s m =>
          match (tget p.members m.1).bind (·.driveSlot) with
          | some d => if driveOk s d then deallocSlot s d m.2 else s
          | none => s) s
      else s
    | _, _ => s

/-! ## Key rotation of direct volumes (R42, R96) -/

/-- The next intent of the rotation of a direct volume, at most 16 MiB of data rows of one stripe at the rotation pointer: a unit that puts them under the
current key in place. The pointer moves on once its INTENT_DONE is valid. -/
def rotateStep (s : State) (vol : Nat) (bad : List (Nat × Nat)) : State :=
  match volAt s vol with
  | none => s
  | some v =>
    match v.rotation, poolAt s v.pool with
    | some r, some p =>
      match v.bandList[r.list]?, (v.bandList[r.list]?).bind (fun x => tget p.bands x) with
      | some band, some b =>
        let sb := stripBlocks b.stripShift
        let n := min (sb - r.row) (4096 / b.k)
        if !(keysLoaded s vol v) || !p.background || p.units.any (fun u => u.2.vol == vol && u.2.rotation) then s
        else
          let u : Unit :=
            { vol := vol, cmd := none, start := directBlock b r.list r.stripe 0 0, count := b.k * sb
              path := if b.mirror then .mirrorInPlace else if !b.parity then .plainInPlace else if n = sb then .fullInPlace else .rmw
              stage := .waitLock, keyGen := v.keyGen, rotation := true, rows := some (r.row, n), band := band, stripe := r.stripe
              off := dataOff b.k b.stripShift r.stripe 0 0 }
          let (s, w) := addUnit s v.pool u
          grantLock s v.pool w bad
      | _, _ => s
    | _, _ => s

/-- ROTATION_STEP. -/
def execRotationStep (vol : Nat) (bad : List (Nat × Nat)) (s : State) : Res := .next (rotateStep s vol bad)

end Sys2Proof.Machine
end

