-- ==== Sys2Proof/Machine/MapRows.lean ====
section
/-! DEFINITION. Checkpoints (R158, R159), leaf paging (R161) and rebuilt nodes (R164, R135). -/

namespace Sys2Proof.Machine

/-! ## Checkpoints -/

/-- Changed nodes of a volume: leaves and interior nodes (R159). -/
def dirtyNodes (v : Volume) : Nat := (v.leaves.filter (·.dirty)).length + (v.inner.filter (·.dirty)).length

/-- Checkpoints running in a pool. -/
def ckptRunning (s : State) (pi : Nat) : Nat := (s.volumes.filter (fun e => e.2.pool == pi && e.2.ckpt.isSome)).length

/-- A condition of R159 holds for a volume. -/
def ckptDue (s : State) (p : Pool) (v : Volume) : Bool :=
  decide (fld s .mapCkptCfg 31 0 < dirtyNodes v) ||
    (match v.dirtySince with
     | some t => decide (1000000 * fld s .mapCkptCfg 47 32 < nowOf s - t)
     | none => false) ||
    freeBelow (ringAt s p.ring) (fld s .hbxRingCfg 7 0) || p.areaStall

/-- Two neighbouring nodes of a level have one parent, or are of the top level. -/
def sameParent (inner : List Inner) (level a b : Nat) : Bool :=
  let ups := inner.filter (fun n => n.level == level + 1)
  ups.isEmpty || ups.any (fun n => decide (n.low ≤ a ∧ b ≤ n.high))

/-- Neighbouring leaves of one parent, of which one holds fewer than 63 entries, merge where the result fits a node (R154). -/
def mergeLeaves (inner : List Inner) (l : List Leaf) : List Leaf :=
  (l.foldl (fun (acc : List Leaf) x =>
    match acc with
    | h :: t =>
      if (h.extents.length < 63 ∨ x.extents.length < 63) ∧ h.extents.length + x.extents.length ≤ 252 ∧ sameParent inner 0 h.low x.high = true then
        { h with high := x.high, extents := extMerge (h.extents ++ x.extents), dirty := true, resident := true } :: t
      else x :: acc
    | [] => [x]) []).reverse

/-- Interior nodes of a level likewise. -/
def mergeLevel (leaves : List Leaf) (inner : List Inner) (level : Nat) : List Inner :=
  let n (x : Inner) : Nat := (childrenOf leaves inner x).length
  let here := sortBy (fun (a b : Inner) => decide (a.low ≤ b.low)) (inner.filter (fun x => x.level == level))
  inner.filter (fun x => x.level != level) ++
  (here.foldl (fun (acc : List Inner) x =>
    match acc with
    | h :: t =>
      if (n h < 63 ∨ n x < 63) ∧ n { h with high := x.high } ≤ 252 ∧ sameParent inner level h.low x.high = true then { h with high := x.high, dirty := true } :: t
      else x :: acc
    | [] => [x]) []).reverse

/-- The tree of a volume with small nodes merged, from the leaves up (R154). -/
def mergeTree (v : Volume) : List Leaf × List Inner :=
  let old := leavesOf v
  let leaves := mergeLeaves v.inner old
  (leaves, (List.range 7).foldl (fun inner l => mergeLevel leaves inner (l + 1)) (markParents old leaves v.inner))

/-- A checkpoint starts: small nodes merge, the cut is the next SEQ, and the image is frozen (R158 step 1). -/
def ckptStart (s : State) (vol : Nat) : State :=
  match volAt s vol with
  | none => s
  | some v =>
    match poolAt s v.pool with
    | none => s
    | some p =>
      let m := mergeTree v
      fitMap (setVol s vol (fun v =>
        { v with leaves := m.1, inner := m.2, dirtySince := none, ckpt := some { cut := (ringAt s p.ring).head, image := m.1, inner := m.2 } })) v.pool 0 none

/-- CHECKPOINT_START. -/
def execCheckpointStart (vol : Nat) (s : State) : Res :=
  .next <|
    match volAt s vol with
    | none => s
    | some v =>
      match poolAt s v.pool with
      | none => s
      | some p =>
        if v.kind == .mapped && flag s .mapCtrl 0 && v.rootLoaded && v.ckpt.isNone && ckptDue s p v
            && decide (ckptRunning s v.pool < fld s .mapCkptCfg 51 48) then ckptStart s vol
        else s

/-- Every record of the volume below the cut is applied or abandoned (R158 step 2). -/
def ckptSettled (s : State) (p : Pool) (vol cut : Nat) : Bool :=
  !(p.units.any (fun e => (e.2.vol == vol || e.2.moves.any (fun m => m.vol == vol)) && !e.2.applied && !(inPlace e.2.path) &&
    (ringAt s p.ring).slots.any (fun x => recWseq x.2.body == some e.1 && decide (x.2.seq < cut) && !((ringAt s p.ring).retired.contains x.2.seq))))

/-- An open map band that lacks no member and has room, or a new one. A band that lost a member takes no more (R124). -/
def mapBand (s : State) (pi : Nat) : Option (Nat × State) :=
  let gone (p : Pool) : List Nat := (p.bands.filter (fun e => e.2.cls == 3 && e.2.state == .opened && !(lacking p e.2).isEmpty)).map (·.1)
  let s := forAll (((poolAt s pi).map gone).getD []) (fun s n => closeBand s pi n) s
  match poolAt s pi with
  | none => none
  | some p =>
    match p.bands.find? (fun e => e.2.cls == 3 && e.2.state == .opened && decide (e.2.next < 262144)) with
    | some e => some (e.1, s)
    | none => (allocBand s pi 3 []).map (fun r => (r.1, writeTables r.2 pi))

/-- Fresh blocks of open map bands for n nodes: band and block index of each. `fuel` bounds the bands that it fills. -/
def mapPlaces (s : State) (pi : Nat) : Nat → Nat → Option (State × List (Nat × Nat))
  | 0, n => if n = 0 then some (s, []) else none
  | fuel + 1, n =>
    if n = 0 then some (s, [])
    else
      match mapBand s pi with
      | none => none
      | some (bn, s) =>
        let base := ((bandAt s pi bn).map (·.next)).getD 0
        let m := min n (262144 - base)
        let s := closeIfFull (setBand s pi bn (fun b => { b with next := base + m, live := b.live + m })) pi bn
        (mapPlaces s pi fuel (n - m)).map (fun r => (r.1, (List.range m).map (fun i => (bn, base + i)) ++ r.2))

/-- The interior nodes that a checkpoint writes, lowest level first: those changed, and those with a child that it writes (R158 step 3). -/
def innerWritten (leaves : List Leaf) (inner : List Inner) : List Inner :=
  (List.range 7).foldl (fun (acc : List Inner) l =>
    let moved (low : Nat) : Bool :=
      if l = 0 then leaves.any (fun x => x.low == low && (x.dirty || x.place.isNone)) else acc.any (fun m => m.level == l && m.low == low)
    acc ++ inner.filter (fun n => n.level == l + 1 && (n.dirty || n.place.isNone || (childrenOf leaves inner n).any (fun c => moved c.1)))) []

/-- The writes of a node to every member of its band. -/
def nodePuts (p : Pool) (n : MapNode) (place : Nat × Nat) : List (Nat × SysPut) :=
  (((tget p.bands place.1).map (fun b => bandDrives p b)).getD []).map (fun m =>
    (m.1, SysPut.block (slotLba m.2 + place.2) { body := .node n, ref := sysRef place.1 place.2 }))

/-- The nodes of the image that changed go to fresh blocks of map bands, leaves first, each level once the one below is on flash (R158 step 3). -/
def ckptWrite (s : State) (vol : Nat) : State :=
  match volAt s vol with
  | none => s
  | some v =>
    match v.ckpt, poolAt s v.pool with
    | some c, some p =>
      if c.job.isSome || c.rootSent || !(ckptSettled s p vol c.cut) then s
      else
        let ls := c.image.filter (fun l => l.dirty || l.place.isNone)
        let ns := innerWritten c.image c.inner
        let n := ls.length + ns.length
        match mapPlaces s v.pool (n / 262144 + 2) n with
        | none => s
        | some (s, places) =>
          let leafAt (low : Nat) : Option (Nat × Nat) := (ls.findIdx? (fun l => l.low == low)).bind (fun i => places[i]?)
          let innerAt (x : Inner) : Option (Nat × Nat) := (ns.findIdx? (fun y => y.level == x.level && y.low == x.low)).bind (fun i => places[ls.length + i]?)
          let image := c.image.map (fun l => { l with dirty := false, place := (leafAt l.low).or l.place })
          let inner := c.inner.map (fun x => { x with dirty := false, place := (innerAt x).or x.place })
          let gen := v.mapGen + 1
          let p := (poolAt s v.pool).getD p
          let leafPuts := (ls.map (fun l => ((leafAt l.low).map (nodePuts p (leafNode vol gen c.cut l))).getD [])).flatten
          let levelPuts := (List.range 7).map (fun i =>
            ((ns.filter (fun x => x.level == i + 1)).map (fun x => ((innerAt x).map (nodePuts p (innerNode vol gen c.cut image inner x))).getD [])).flatten)
          let id := p.nextJob
          let s := addJob s v.pool [] [] (leafPuts :: levelPuts)
          setVol s vol (fun v => { v with ckpt := some { c with image := image, inner := inner, job := some id } })
    | _, _ => s

/-- The place of the root of a tree. -/
def rootOf (leaves : List Leaf) (inner : List Inner) : Option (Nat × Nat) :=
  let top := inner.foldl (fun (m : Option Inner) n => if ((m.map (·.level)).getD 0) < n.level then some n else m) none
  match top with
  | some n => n.place
  | none => (leaves.head?).bind (·.place)

/-- With every node on flash on every member MAP_ROOT names the root (R155, R158 step 4). What the image holds of the tree is no longer changed. -/
def ckptRoot (s : State) (vol : Nat) : State :=
  match volAt s vol with
  | none => s
  | some v =>
    match v.ckpt, poolAt s v.pool with
    | some c, some p =>
      match c.job, rootOf c.image c.inner with
      | some id, some root =>
        if c.rootSent || !(jobDone p id) then s
        else
          let gen := v.mapGen + 1
          let places := c.image.filterMap (·.place) ++ c.inner.filterMap (·.place)
          let s := sendRec s v.pool (.mapRoot vol root.1 root.2 gen c.cut)
          let s := setVol s vol (fun v =>
            let leaves := v.leaves.map (fun l =>
              match c.image.find? (fun i => i.low == l.low) with
              | some i => { l with dirty := l.dirty && !(i.high == l.high && i.extents == l.extents), place := i.place }
              | none => { l with dirty := true, place := none })
            { v with mapGen := gen, cut := c.cut, rootPlace := some root, nodePlaces := places, leaves := leaves
                     ckpt := some { c with rootSent := true, oldPlaces := v.nodePlaces.filter (fun x => !(places.contains x)) }
                     inner := v.inner.map (fun n =>
                       match c.inner.find? (fun i => i.level == n.level && i.low == n.low) with
                       | some i => { n with dirty := n.dirty && !(i.high == n.high && childrenOf c.image c.inner i == childrenOf leaves v.inner n), place := i.place }
                       | none => { n with dirty := true, place := none }) })
          fitMap s v.pool 0 none
      | _, _ => s
    | _, _ => s

/-- CHECKPOINT_ROOT: the nodes are given to the drives once the image is settled; with them on flash the root is recorded. -/
def execCheckpointRoot (vol : Nat) (s : State) : Res := .next (ckptRoot (ckptWrite s vol) vol)

/-- CHECKPOINT_FREE: the superseded nodes are freed once the drive copy holds the MAP_ROOT (R158 step 5, R160). -/
def execCheckpointFree (vol : Nat) (s : State) : Res :=
  .next <|
    match volAt s vol with
    | none => s
    | some v =>
      match v.ckpt, poolAt s v.pool with
      | some c, some p =>
        let done := c.rootSent && (ringAt s p.ring).slots.any (fun x =>
          match x.2.body with
          | .mapRoot u _ _ _ k => u == vol && k == c.cut && decide (x.2.seq < p.copy.copied)
          | _ => false)
        if done then
          let s := forAll c.oldPlaces (fun s o => subLive s v.pool o.1 1) s
          count (setVol s vol (fun v => { v with ckpt := none })) 0x581
        else s
      | _, _ => s

/-! ## Paging and rebuilt nodes -/

/-- Whether a node that a block of a map band holds is the one expected there (R113, R154): its tag, format, KIND, volume, level, bounds and keys, and a
MAP_GEN not above the root's. -/
def nodeOk (x : SysBlk) (place : Nat × Nat) (vol level low high mapGen : Nat) : Option MapNode :=
  match x.body with
  | .node n =>
    let keys := if n.level = 0 then n.extents.map (fun e => (e.start, extEnd e)) else n.children.map (fun c => (c.1, c.1 + 1))
    if sysOk x place.1 place.2 && n.fmt == 4 && !n.reservedKind && n.vol == vol && n.level == level && n.low == low && n.high == high &&
        decide (n.mapGen ≤ mapGen) && keys.all (fun k => decide (low ≤ k.1 ∧ k.2 ≤ high)) then some n else none
  | _ => none

/-- The drives that hold a map node in the order that its copies are tried: the one with the lowest predicted latency, then the others by position (R154). -/
def nodeDrives (s : State) (p : Pool) (b : Band) : List (Nat × Nat) :=
  let ds := (bandDrives p b).filter (fun m => driveOk s m.1)
  let best := ds.foldl (fun (m : Option (Nat × Nat)) x =>
    match m with
    | some y => if predict s x.1 false 4096 < predict s y.1 false 4096 then some x else some y
    | none => some x) none
  match best with
  | some y => y :: ds.filter (· != y)
  | none => []

/-- A map node is read from its copies until one is valid; those that failed are written again from it (R154). -/
def readNode (s : State) (pi vol level low high mapGen : Nat) (place : Nat × Nat) : State × Option MapNode :=
  match poolAt s pi, bandAt s pi place.1 with
  | some p, some b =>
    let ds := nodeDrives s p b
    let at_ (m : Nat × Nat) : Option MapNode := (tget (driveAt s m.1).sys (slotLba m.2 + place.2)).bind (fun x => nodeOk x place vol level low high mapGen)
    match ds.find? (fun m => (at_ m).isSome) with
    | none => (s, none)
    | some m =>
      match at_ m with
      | none => (s, none)
      | some n =>
        let failed := (ds.takeWhile (fun x => x != m)).map (fun x => (x.1, SysPut.block (slotLba x.2 + place.2) { body := .node n, ref := sysRef place.1 place.2 }))
        (addJobs s pi true [] [] [failed], some n)
  | _, _ => (s, none)

/-- A leaf of which no copy is valid and that DRAM does not hold is lost: every block of its key range is poisoned (R135). -/
def loseLeaf (s : State) (pi vol : Nat) (v : Volume) (l : Leaf) : State :=
  let top := min l.high v.capacity
  let s := setVol s vol (fun v => { v with leaves := v.leaves.map (fun x => if x.low = l.low then { x with extents := [], resident := true, dirty := true } else x) })
  let s := count (setBit s .mapEvent 2) 0x585
  if top ≤ l.low then s else poisonBlocks s pi vol l.low (top - l.low) false 5 0xFFFFFFFF 0 0

/-- LEAF_PAGE_IN: the leaf is read from its map band into a frame, and the lookups that waited for it proceed (R154, R161). With no frame to be had it waits
(R162). -/
def execLeafPageIn (vol low : Nat) (s : State) : Res :=
  .next <|
    match volAt s vol with
    | none => s
    | some v =>
      match v.leaves.find? (fun l => l.low == low && !l.resident), poolAt s v.pool with
      | some l, some p =>
        let s := fitMap s v.pool 1 none
        if ((poolAt s v.pool).map (·.areaStall)).getD false then s
        else
          let here (s : State) (es : List Extent) : State :=
            pageServe (setVol (count s 0x582) vol (fun v =>
              { v with leaves := v.leaves.map (fun x => if x.low = low then { x with extents := es, resident := true, lastUse := nowOf s } else x) })) v.pool vol low
          match l.place with
          | none => here s l.extents
          | some place =>
            match readNode s v.pool vol 0 l.low l.high v.mapGen place with
            | (s, some n) => here s n.extents
            | (s, none) => if ((tget p.bands place.1).map (bandReach s p)).getD true then pageServe (loseLeaf s v.pool vol v l) v.pool vol low else s
      | _, _ => s

/-- A later ABANDON cancels a record: same WRITE_SEQ and location, lower SEQ (R83, R98). -/
def cancelled (bands : Tab Band) (all : List Rec) (x : Rec) : Bool :=
  all.any (fun a =>
    match a.body with
    | .abandon true w band _ hdr =>
      decide (x.seq < a.seq) &&
        (match x.body with
         | .logEntry _ _ y _ _ _ _ b h _ _ => y == w && b == band && h == hdr
         | _ => false)
    | .abandon false w band st _ =>
      decide (x.seq < a.seq) &&
        (match x.body with
         | .mapDelta _ _ _ _ _ _ _ y _ _ _ _ b no _ _ => y == w && b == band &&
            ((tget bands b).map (fun d => no / (d.k * stripBlocks d.stripShift) == st)).getD true
         | _ => false)
    | _ => false)

/-- A node rebuilt from its checkpointed copy and the unretired records at or above the cut, in WRITE_SEQ order (R164). -/
def rebuildLeaf (s : State) (p : Pool) (vol : Nat) (v : Volume) (l : Leaf) (base : List Extent) : Leaf :=
  let r := ringAt s p.ring
  let recs := ((r.slots.map (·.2)).filter (fun x =>
    decide (v.cut ≤ x.seq ∧ r.tail ≤ x.seq) && x.crcOk && !(isRetired s p r x) && !(cancelled p.bands (r.slots.map (·.2)) x) &&
      (match x.body with
       | .mapDelta _ _ _ _ _ _ _ w u _ _ _ _ _ _ _ => u == vol && !(thas p.units w)
       | .logEntry false _ w u _ _ _ _ _ _ _ => u == vol && !(thas p.units w)
       | _ => false)))
  let recs := sortBy (fun a b => decide ((recWseq a.body).getD 0 ≤ (recWseq b.body).getD 0)) recs
  recs.foldl (fun l x => leafApply l x.body bodyExtent) { l with extents := base }

/-- The entries that the tree of the last checkpoint holds on flash for a key range; none where one of its leaves has no valid copy. A leaf that split since
lies in the node that it came from. -/
def flashExtents (s : State) (pi vol : Nat) (v : Volume) (low high : Nat) : Option (List Extent) :=
  let leafAt (place : Nat × Nat) : Option MapNode :=
    match poolAt s pi, bandAt s pi place.1 with
    | some p, some b => (nodeDrives s p b).findSome? (fun m =>
        (tget (driveAt s m.1).sys (slotLba m.2 + place.2)).bind (fun x =>
          match x.body with
          | .node n => nodeOk x place vol 0 n.low n.high v.mapGen
          | _ => none))
    | _, _ => none
  let ns := (v.nodePlaces.filterMap leafAt).filter (fun n => decide (n.low < high ∧ low < n.high))
  let held := (ns.map (fun n => min n.high high - max n.low low)).sum
  if v.nodePlaces.isEmpty then some []
  else if held = high - low then some ((ns.map (·.extents)).flatten.filterMap (fun e => extWithin e low high))
  else none

/-- NODE_REBUILD: a leaf whose frame returned an uncorrectable error is rebuilt from its checkpointed copy, which `flashOk` says the drives return; without a
valid one every block of its key range is poisoned (R135, R164). -/
def execNodeRebuild (vol low : Nat) (flashOk : Bool) (s : State) : Res :=
  .next <|
    match volAt s vol with
    | none => s
    | some v =>
      match poolAt s v.pool, v.leaves.find? (fun l => l.low == low) with
      | some p, some l =>
        let (d, s) := drawNat s
        let s := dramError s d 2
        match (if flashOk then flashExtents s v.pool vol v l.low l.high else none) with
        | some base =>
          let l' := rebuildLeaf s p vol v l base
          count (setBit (setVol s vol (fun v => { v with leaves := v.leaves.map (fun x => if x.low = low then { l' with low := l.low, high := l.high } else x) })) .mapEvent 1) 0x584
        | none => loseLeaf s v.pool vol v l
      | _, _ => s

end Sys2Proof.Machine
end

