-- ==== Sys2Proof/Machine/Mount.lean ====
section
/-! DEFINITION. Import of a pool: choosing its ledger (R142, R149), reading its tables, journal and header ring from the drives (R90, R143 to R146, R148), what
is refused (R84, R147), and mounting it. -/

namespace Sys2Proof.Machine

/-! ## Choosing a ledger (R142, R149) -/

/-- Whether one ledger copy is chosen over another: format 4 wins over format 3, then the higher LEDGER_GEN. -/
def ledgerBefore (a b : Ledger) : Bool := decide (b.fmt < a.fmt) || (a.fmt == b.fmt && decide (b.gen < a.gen))

/-- The valid copies of a pool's ledger on enumerated drives. -/
def ledgersOf (s : State) (id : Word) : List Ledger :=
  ((s.drives.filter (fun e => e.2.linkUp && e.2.ident.isSome)).map (fun e =>
    (e.2.ledger1.toList ++ e.2.ledger0.toList).filter (fun l => l.valid && l.poolId == id))).flatten

/-- The copy that import uses. -/
def bestLedger (s : State) (id : Word) : Option Ledger :=
  (ledgersOf s id).foldl (fun m l =>
    match m with
    | some x => if ledgerBefore l x then some l else some x
    | none => some l) none

/-- The enumerated drive of a member. -/
def driveOfUid (s : State) (uid : BitVec 64) : Option Nat :=
  (s.drives.find? (fun e => e.2.linkUp && (e.2.ident.map (·.uniqueId)) == some uid)).map (·.1)

/-- An entry of a member in use (Table 4.12). -/
def memberLive (m : Member) : Bool := m.state == .active || m.state == .evacuating

/-- Active or evacuating members whose drive is not there. -/
def membersMissing (s : State) (l : Ledger) : Nat := (l.members.filter (fun e => memberLive e.2 && (driveOfUid s e.2.uid).isNone)).length

/-- The drives of a ledger's members that are there, by member index. -/
def ledgerDrives (s : State) (l : Ledger) : Tab Nat :=
  l.members.filterMap (fun e => if memberLive e.2 then (driveOfUid s e.2.uid).map (fun d => (e.1, d)) else none)

/-! ## Reading system structures -/

/-- The system blocks that the drives of a band hold and that pass their tag check: block index in the slot, and block. -/
def bandSys (s : State) (l : Ledger) (n : Nat) (b : Band) : List (Nat × SysBlk) :=
  (b.members.map (fun m =>
    match tget (ledgerDrives s l) m.1 with
    | some d => (driveAt s d).sys.filterMap (fun e =>
        if slotLba m.2 ≤ e.1 ∧ e.1 < slotLba (m.2 + 1) ∧ sysOk e.2 n (e.1 - slotLba m.2) = true then some (e.1 - slotLba m.2, e.2) else none)
    | none => [])).flatten

/-- Of the pages at one place the one with the highest PAGE_SEQ (R145), by place. -/
def newestPages (α : Type) (l : List (Nat × PageHdr × α)) : Tab (PageHdr × α) :=
  l.foldl (fun t x =>
    match tget t x.1 with
    | some y => if y.1.seq < x.2.1.seq then tput t x.1 x.2 else t
    | none => tput t x.1 x.2) []

/-- A page of the pool in format 4. -/
def pageOk (l : Ledger) (h : PageHdr) : Bool := h.fmt == 4 && h.poolId == l.poolId

/-- The Band Table pages that the bands of the directory hold, by page number (R144). -/
def tablePages (s : State) (l : Ledger) : Tab (PageHdr × Tab Band) :=
  newestPages (Tab Band) ((l.dir.zipIdx.map (fun d => (bandSys s l d.1.1 d.1.2).filterMap (fun x =>
    match x.2.body with
    | .bandPage h es => if pageOk l h && h.index == d.2 * 262144 + x.1 then some (h.index, h, es) else none
    | _ => none))).flatten)

/-- A band of which no copy of its Band Table page can be read, from the members' slot directories (R135, R144). Its shape is that of its class; what the words
do not hold is as after a close with nothing written since (log entry 61). -/
def bandOfWords (l : Ledger) (n : Nat) (ws : List (Nat × Nat × SlotWord)) : Band :=
  let cls := ((ws.head?).map (·.2.2.cls)).getD 0
  let gen := ((ws.head?).map (·.2.2.gen)).getD 0
  let w := if cls = 0 ∨ cls = 2 then layoutW l.layout l.k else if cls = 1 then 3 else ws.foldl (fun m x => max m (x.2.2.pos + 1)) 2
  { gen := gen, state := .closed, cls := cls, k := if cls = 0 ∨ cls = 2 then l.k else 1, w := w, stripShift := l.stripShift, allocCount := gen, allocTime := 0
    scrubTime := 0
    members := (List.range w).map (fun j => ((ws.find? (fun x => x.2.2.band == n && x.2.2.pos == j)).map (fun x => (x.1, x.2.1))).getD (64, 0)) }

/-- The words of the slot directories on the members' own drives: member, slot, word. -/
def slotWords (s : State) (l : Ledger) : List (Nat × Nat × SlotWord) :=
  ((ledgerDrives s l).map (fun m =>
    let d := driveAt s m.2
    let own := (d.ledger1.toList ++ d.ledger0.toList).filter (fun x => x.valid && x.poolId == l.poolId)
    (((own.head?).map (·.slots)).getD []).map (fun w => (m.1, w.1, w.2)))).flatten

/-- The Band Table: pages, and for a page with no copy the directory's entries and the slot directories. -/
def readBands (s : State) (l : Ledger) : Tab Band × Tab Nat :=
  let pages := tablePages s l
  let paged := (pages.map (fun e => e.2.2)).flatten
  let words := (slotWords s l).filter (fun x => !(thas pages (x.2.2.band / 21)) && !(l.dir.any (fun d => d.1 == x.2.2.band)))
  let lost := (words.map (·.2.2.band)).eraseDups
  let all := paged ++ l.dir.filter (fun d => !(paged.any (fun e => e.1 == d.1))) ++
    lost.map (fun n => (n, bandOfWords l n (words.filter (fun x => x.2.2.band == n))))
  (all.foldl (fun t e => tput t e.1 e.2) [], pages.map (fun e => (e.1, e.2.1.seq)))

/-- The Bad Block Table and the PAGE_SEQ of its pages (R146). -/
def readBad (s : State) (l : Ledger) (bands : Tab Band) : List BadBlock × Nat :=
  match tget bands l.bbtBand with
  | none => ([], 0)
  | some b =>
    let pages := newestPages (List BadBlock) ((bandSys s l l.bbtBand b).filterMap (fun x =>
      match x.2.body with
      | .badPage h es => if pageOk l h && h.index == x.1 && decide (x.1 < l.bbtPages) then some (x.1, h, es) else none
      | _ => none))
    ((pages.map (fun e => e.2.2)).flatten, pages.foldl (fun m e => max m e.2.1.seq) 0)

/-- The band list of a direct volume, and the PAGE_SEQ of its pages (R146). -/
def readList (s : State) (l : Ledger) (bands : Tab Band) (v : VolEntry) : List Nat × Nat :=
  match tget bands v.listBand with
  | none => ([], 0)
  | some b =>
    let pages := newestPages (List Nat) ((bandSys s l v.listBand b).filterMap (fun x =>
      match x.2.body with
      | .listPage h bs => if pageOk l h && h.vol == v.vol && x.1 == v.listOff + h.index && decide (h.index < v.listPages) then some (h.index, h, bs) else none
      | _ => none))
    ((pages.map (fun e => e.2.2)).flatten, pages.foldl (fun m e => max m e.2.1.seq) 0)

/-- A record of a journal page is valid in its content (R82, R90). -/
def recOk (maxEpoch : Nat) (x : Rec) : Bool :=
  x.crcOk && x.format == 4 && decide (x.epoch ≤ maxEpoch) &&
    (match x.body with
     | .unknown _ => false
     | _ => true)

/-- The records of the valid journal pages of a band whose SEQs lie in their page's range, those of unknown TYPE or FORMAT among them (R84, R90). -/
def pagedRecs (s : State) (l : Ledger) (n : Nat) (b : Band) : List Rec :=
  ((bandSys s l n b).filterMap (fun x =>
    match x.2.body with
    | .journalPage h recs =>
      if h.band = n ∧ h.gen = b.gen ∧ h.index = x.1 ∧ 16385 ≤ x.1 then some (recs.filter (fun r => decide (h.first ≤ r.seq ∧ r.seq ≤ h.last))) else none
    | _ => none)).flatten.foldl (fun acc r => if acc.any (fun y => y.seq == r.seq) then acc else acc ++ [r]) []

/-- Open INTENTs of a format-3 journal: those without an INTENT_DONE of the same SEQ, BAND and STRIPE, by SEQ (R148, R149 step 2). -/
def openG2 (s : State) (l : Ledger) (bands : Tab Band) : List Rec3 :=
  match tget bands l.hbxBand with
  | none => []
  | some b =>
    let recs := ((bandSys s l l.hbxBand b).map (fun x =>
      match x.2.body with
      | .journal3 rs => rs.filter (·.crcOk)
      | _ => [])).flatten.eraseDups
    sortBy (fun x y => decide (x.seq ≤ y.seq)) (recs.filter (fun x => !x.done && !(recs.any (fun y => y.done && y.seq == x.seq && y.band == x.band && y.stripe == x.stripe))))

/-- Hatbox bands of a pool: the one that the ledger names first. -/
def hbxBands (l : Ledger) (bands : Tab Band) : List (Nat × Band) :=
  bands.filter (fun e => e.1 == l.hbxBand) ++ bands.filter (fun e => e.1 != l.hbxBand && e.2.cls == 4 && e.2.state != .free)

/-- The stripe write headers of the pool's header rings (R51); for a takeover only those of the band that the ledger names (R101). -/
def ringHeaders (s : State) (l : Ledger) (bands : Tab Band) (own : Bool) : List StripeHdr :=
  (((hbxBands l bands).take (if own then bands.length else 1)).map (fun e => (bandSys s l e.1 e.2).map (fun x =>
    match x.2.body with
    | .ringBlock hs => if 1 ≤ x.1 ∧ x.1 ≤ 16384 then hs else []
    | _ => []))).flatten.flatten.eraseDups

/-- What the journal area of the band in use holds, by place in the area: nothing of it is overwritten before the next epoch has begun. -/
def areaHeld (s : State) (l : Ledger) (n : Nat) (b : Band) : List AreaBlk :=
  let pages := (bandSys s l n b).filterMap (fun x =>
    match x.2.body with
    | .journalPage h _ => some (x.1, h.first, h.last)
    | _ => none)
  let data := (b.members.map (fun m =>
    match tget (ledgerDrives s l) m.1 with
    | some d => (driveAt s d).flash.filterMap (fun e => if slotLba m.2 + 16385 ≤ e.1 ∧ e.1 < slotLba (m.2 + 1) then some (e.1 - slotLba m.2, 0, 0) else none)
    | none => [])).flatten
  ((pages ++ data).foldl (fun (t : Tab (Nat × Nat)) x => tput t x.1 x.2) []).map (fun x =>
    { band := n, idx := x.1 - 16385, first := x.2.1, last := x.2.2, ckpt := true })

/-- The ring blocks of the band in use, by place in the ring, the last first. -/
def ringHeld (s : State) (l : Ledger) (n : Nat) (b : Band) : List (Nat × List StripeHdr) :=
  (((bandSys s l n b).foldl (fun (t : Tab (List StripeHdr)) x =>
    match x.2.body with
    | .ringBlock hs => if 1 ≤ x.1 ∧ x.1 ≤ 16384 then tput t (x.1 - 1) hs else t
    | _ => t) []).map (fun e => (e.1, e.2))).reverse

/-- A structure of a format other than 3 and 4 or of unknown MAGIC where a reader meets it: drive slot and LBA (R147). -/
def badStructure (s : State) (l : Ledger) (bands : Tab Band) : Option (Nat × Nat) :=
  let odd (x : SysBlk) : Bool :=
    match x.body with
    | .bandPage h _ => h.fmt != 4
    | .badPage h _ => h.fmt != 4
    | .listPage h _ => h.fmt != 4
    | .node n => n.fmt != 4 || n.reservedKind
    | .unknown _ => true
    | _ => false
  (bands.filter (fun e => e.2.state != .free && decide (3 ≤ e.2.cls))).findSome? (fun e =>
    e.2.members.findSome? (fun m =>
      (tget (ledgerDrives s l) m.1).bind (fun d =>
        ((driveAt s d).sys.find? (fun x => decide (slotLba m.2 ≤ x.1 ∧ x.1 < slotLba (m.2 + 1)) && sysOk x.2 e.1 (x.1 - slotLba m.2) && odd x.2)).map (fun x => (d, x.1)))))

/-- The drive and LBA of a ledger header or of a Band Table page that a format rules out. -/
def badFormat (s : State) (l : Ledger) (bands : Tab Band) : Option (Nat × Nat) :=
  if l.fmt ≠ 3 ∧ l.fmt ≠ 4 then ((ledgerDrives s l).head?).map (fun d => (d.2, ledgerLba (((driveAt s d.2).ident.map (·.capacity)).getD 0) l.copy))
  else
    (bands.find? (fun e => e.2.fmt != 3 && e.2.fmt != 4)).bind (fun e =>
      (((l.dir[e.1 / 21 / 262144]?).bind (fun d => d.2.members.head?)).bind (fun m =>
        (tget (ledgerDrives s l) m.1).map (fun d => (d, slotLba m.2 + e.1 / 21 % 262144)))))

/-- The pool as its drives hold it. `own` is false for a takeover; `maxEpoch` is the epoch that R82 allows. -/
def readImage (s : State) (l : Ledger) (own : Bool) (maxEpoch : Nat) : PoolImage :=
  if l.fmt = 3 then { bands := l.bands3, vols := l.vols, lists := l.lists3, g2open := openG2 s l l.bands3, badPlace := badFormat s l l.bands3 }
  else
    let (bands, seqs) := readBands s l
    let (bbt, bbtSeq) := readBad s l bands
    let lists := (l.vols.filter (fun v => v.kind == .direct)).map (fun v => (v.vol, readList s l bands v))
    let recs := ((tget bands l.hbxBand).map (pagedRecs s l l.hbxBand)).getD []
    { bands := bands, pageSeqs := seqs, bbt := bbt, bbtSeq := bbtSeq, vols := l.vols, lists := lists.map (fun e => (e.1, e.2.1))
      listSeqs := lists.map (fun e => (e.1, e.2.2)), losses := l.losses
      journal := sortBy (fun x y => decide (x.seq ≤ y.seq)) (recs.filter (recOk maxEpoch)), headers := ringHeaders s l bands own
      area := ((tget bands l.hbxBand).map (areaHeld s l l.hbxBand)).getD [], ring := ((tget bands l.hbxBand).map (ringHeld s l l.hbxBand)).getD []
      badPlace := (badFormat s l bands).or (badStructure s l bands) }

/-! ## What is refused (R84, R147) -/

/-- A record of the MRAM ring is valid but for its TYPE and FORMAT (R82). -/
def ringRecOk (r : Ring) (slot : Nat) (x : Rec) : Bool :=
  x.crcOk && slot == x.seq % ringN && decide (r.dir.floorSeq ≤ x.seq) && decide (x.epoch ≤ r.dir.epoch)

/-- A record of the MRAM ring is valid (R82). -/
def mramValid (r : Ring) (slot : Nat) (x : Rec) : Bool := ringRecOk r slot x && recOk r.dir.epoch x

/-- Valid records of a ring in order of SEQ. -/
def ringRecs (r : Ring) : List Rec :=
  sortBy (fun a b => decide (a.seq ≤ b.seq)) (r.slots.filterMap (fun e => if mramValid r e.1 e.2 then some e.2 else none))

/-- Records that an import would meet, valid but for their TYPE and FORMAT: of the ring, or of the drive copy. -/
def metRecs (s : State) (l : Ledger) (ring : Option Nat) : List Rec :=
  match ring with
  | some r => (ringAt s r).slots.filterMap (fun e => if ringRecOk (ringAt s r) e.1 e.2 then some e.2 else none)
  | none => (((tget (readBands s l).1 l.hbxBand).map (pagedRecs s l l.hbxBand)).getD []).filter (·.crcOk)

/-- What refuses an import, and what is reported of it: the SEQ of a record of unknown TYPE or FORMAT (R84), or the drive slot and LBA of a structure (R147).
A record has the drive slot 0xFF. -/
def formatUnknown (s : State) (l : Ledger) (ring : Option Nat) : Option (Nat × Nat) :=
  let odd (x : Rec) : Bool := x.format != 4 || (match x.body with
    | .unknown _ => true
    | _ => false)
  (readImage s l true l.epoch).badPlace.or (if l.fmt = 3 then none else ((metRecs s l ring).find? odd).map (fun x => (0xFF, x.seq)))

/-! ## Mounting -/

/-- Rows of a band's slots that hold something, counted from the top row on any drive. -/
def rowsHeld (s : State) (p : Pool) (b : Band) : Nat :=
  ((List.range b.w).map (fun j =>
    match posDrive p b j with
    | some (d, sl) =>
      let x := driveAt s d
      let up (m : Nat) (lba : Nat) : Nat := if slotLba sl ≤ lba ∧ lba < slotLba (sl + 1) then max m (lba - slotLba sl + 1) else m
      if thas x.fills sl then 262144 else x.sys.foldl (fun m e => up m e.1) (x.flash.foldl (fun m e => up m e.1) 0)
    | none => 0)).foldl max 0

/-- A band as it comes back from flash: the place from which nothing is allocated is what flash holds of it; a direct volume's band is written throughout. -/
def mountBand (s : State) (p : Pool) (fmt : Nat) (full : Bool) (b : Band) : Band :=
  let sb := stripBlocks b.stripShift
  let top := if full then 262144 else rowsHeld s p b
  let next := if runBand b then (if b.k = 1 then top else (top + sb - 1) / sb * (b.k * sb)) else (top + sb - 1) / sb
  { b with next := next, live := 0, scrubNext := 0, abandoned := [], rebuilt := [], unknownRebuild := b.repairMask, movesSeq := 0
           fmt := if fmt = 3 then 3 else b.fmt, g2gen := if fmt = 3 then b.gen % 256 else b.g2gen }

/-- Bands of a format-3 pool gain a GENERATION by R40, in ascending number (R149 step 3). -/
def gainGens (p : Pool) : Pool :=
  let r := p.bands.foldl (fun (acc : Tab Band × Nat) e =>
    (acc.1 ++ [(e.1, { e.2 with gen := (acc.2 + 1) % 65535, allocCount := acc.2 + 1 })], acc.2 + 1)) ([], p.allocCount)
  { p with bands := r.1, allocCount := r.2 }

/-- A volume from its entry, before replay: its access list is shelf firmware's to set again. A rotation that the entry shows starts at the volume's first row
where no KEY_ROTATE record says more. -/
def mountVolume (pi : Nat) (im : PoolImage) (e : VolEntry) : Volume :=
  let list := (tget im.lists e.vol).getD []
  { pool := pi, kind := e.kind, encrypted := e.encrypted, passThrough := e.passThrough, keyGen := e.keyGen, prevKeyGen := e.prevKeyGen, capacity := e.capacity
    bandList := list, listBand := e.listBand, listOff := e.listOff, listPages := e.listPages, listSeq := (tget im.listSeqs e.vol).getD 0
    gens := e.gens, keyCheck := e.keyCheck, nguid := e.nguid, created := e.created, rootLoaded := e.kind == .direct
    rotating := e.prevKeyGen != 0, rotation := if e.prevKeyGen ≠ 0 ∧ e.kind = .direct then some {} else none }

/-- Slots of a member that the bands hold, an evacuation's substitute among them. -/
def slotsHeld (bands : Tab Band) (i : Nat) : List Nat :=
  ((bands.filter (fun e => e.2.state != .free)).map (fun e =>
    (e.2.members.filter (fun m => m.1 == i)).map (·.2) ++ (match e.2.evac with
      | some (_, m, sl) => if m = i then [sl] else []
      | none => []))).flatten

/-- The pool of a ledger and an image. The repair share starts at its ceiling and the watermark and the read-around factor at their policies' values: DESIGN
CHOICE, R128 gives no start of s (log entry 64). LOG_RESERVE of an imported format-3 pool is the zero that its ledger holds: DESIGN CHOICE, R149 gives no value
(log entry 65). -/
def poolOf (s : State) (ring : Nat) (l : Ledger) (im : PoolImage) : Pool :=
  let drive (m : Member) : Option Nat := if memberLive m then driveOfUid s m.uid else none
  let mem := tmap l.members (fun i m =>
    { m with driveSlot := drive m, state := if memberLive m && (drive m).isNone then .failed else m.state, used := slotsHeld im.bands i })
  let lists := (im.lists.map (·.2)).flatten
  let p : Pool :=
    { id := l.poolId, ring := ring, layout := l.layout, k := l.k, stripShift := l.stripShift, spare := l.spare, balance := l.balance
      logReserve := l.logReserve, seed := l.seed, gen := l.gen, formatOldest := if l.fmt = 3 then 3 else l.formatOldest, created := l.created, state := l.state
      tableBands := l.dir.map (·.1), tabled := im.bands.filter (fun e => thas im.pageSeqs (e.1 / 21)), pageSeqs := im.pageSeqs, dirSeq := l.dirSeq
      bbtBand := if l.fmt = 3 ∨ l.bbtBand = 0xFFFFFFFF then none else some l.bbtBand, bbtTabled := bbtPages im.bbt, bbtSeq := im.bbtSeq, volsTabled := l.vols
      listTable := (im.bands.find? (fun e => e.2.cls == 6 && e.2.state == .opened && e.1 != l.bbtBand)).map (·.1)
      members := mem, bands := im.bands, allocCount := im.bands.foldl (fun m e => max m e.2.allocCount) 0
      losses := im.losses, lossHead := l.lossHead, lossAcked := l.lossAcked, bbt := im.bbt, epoch := if l.fmt = 3 then 0 else l.epoch
      copy := if l.fmt = 3 then {} else
        { band := l.hbxBand, area := im.area, nextPage := im.area.foldl (fun m a => max m (a.idx + 1)) 0 % 245759, hdrPlaced := im.ring
          nextHdr := im.ring.foldl (fun m e => max m (e.1 + 1)) 0, members := (((tget im.bands l.hbxBand).map (fun b => b.members.map (·.1))).getD []).filter (fun i => ((tget mem i).map memberLive).getD false) }
      replayed := false, rootsLoaded := false
      g2Copy0 := l.fmt == 3 || (ledgersOf s l.poolId).any (fun x => x.fmt == 3 && x.copy == 0), foldStart := nowOf s / 100000000 * 100000000, paceStart := nowOf s, scrubTables := nowOf s
      policies := ((s.ctl.configPol.find? (fun e => e.1 == l.poolId)).map (·.2)).getD [] }
  let p := { p with bands := tmap p.bands (fun n b => mountBand s p l.fmt (l.fmt == 3 && lists.contains n) b) }
  let p := { p with watermark := polOf p 0x03, share := (polOf p 0x20 : Nat), f4 := polOf p 0x12 }
  if l.fmt = 3 then gainGens p else p

/-- The pool is put together from its ledger and its tables on flash; drives that carry its identifier without being active or evacuating members
are STALE (R142). -/
def mountPool (s : State) (pi ring : Nat) (l : Ledger) (im : PoolImage) : State :=
  let s := { s with pools := tput s.pools pi (poolOf s ring l im) }
  let s := forAll (((poolAt s pi).map (·.members)).getD []) (fun s e =>
    match e.2.driveSlot with
    | some d =>
      setDrive (setDrvState s d (if e.2.state = .evacuating then .evacuating else .member)) d (fun x =>
        { x with pool := some pi, member := some e.1, flushed := e.2.flushed, plp := e.2.plp, metaFmt := if e.2.meta64 then 64 else 16 })
    | none => s) s
  let s := forAll s.drives (fun s e =>
    let carries := (e.2.ledger0.toList ++ e.2.ledger1.toList).any (fun x => x.valid && x.poolId == l.poolId)
    if carries && e.2.linkUp && e.2.pool != some pi && (e.2.state == .present || e.2.state == .stale) then setDrvState s e.1 .stale else s) s
  let hosts (vol : Nat) : List (BitVec 128) := match volAt s vol with
    | some v => if v.pool = pi then v.hosts else []
    | none => []
  { s with volumes := im.vols.foldl (fun t e => tput t e.vol { mountVolume pi im e with hosts := hosts e.vol }) (s.volumes.filter (fun e => e.2.pool != pi)) }

end Sys2Proof.Machine
end

