-- ==== Sys2Proof/Machine/Replay.lean ====
section
/-! DEFINITION. Replay of a pool's journal (R82, R97 to R102, R149, R393) and the load of map roots (R163). -/

namespace Sys2Proof.Machine

/-! ## The records to replay (R98) -/

/-- The epoch that R82 allows for a pool of this device: its directory entry's. -/
def dirEpoch (s : State) (p : Pool) : Nat := (ringAt s p.ring).dir.epoch

/-- What the drives of a mounted pool hold. -/
def imageOf (s : State) (p : Pool) (own : Bool) : PoolImage :=
  match bestLedger s p.id with
  | some l => readImage s l own (if own then dirEpoch s p else l.epoch)
  | none => {}

/-- The newest WATERMARK among records: ACKED_BELOW, TAIL_SEQ, NEXT_WRITE_SEQ. -/
def newestMark (l : List Rec) : Option (Nat × Nat × Nat) :=
  l.foldl (fun m x =>
    match x.body with
    | .watermark a t n _ => some (a, t, n)
    | _ => m) none

/-! ## Validation (R54, R99) -/

/-- The run of data-order offsets [off, off + count) of a band holds blocks [block, ...) of a volume, each directly or by reconstruction. -/
def runValid (s : State) (pi band vol block off count : Nat) (bad : List (Nat × Nat)) : Bool :=
  match poolAt s pi, bandAt s pi band with
  | some p, some b =>
    (List.range count).all (fun j =>
      let (t, pos, row) := dataPlace b.k b.stripShift (off + j)
      (fetchData s pi p band b t pos row vol (block + j) bad false).isSome)
  | _, _ => false

/-- Parity of the rows that a run touches is rewritten where it disagrees; in a mirror band bad or missing copies are (R99). -/
def restoreRun (s : State) (pi band vol block off count : Nat) (bad : List (Nat × Nat)) : State :=
  forAll (List.range count) (fun s j =>
    match poolAt s pi, bandAt s pi band with
    | some p, some b =>
      let (t, pos, row) := dataPlace b.k b.stripShift (off + j)
      (match fetchData s pi p band b t pos row vol (block + j) bad false with
       | none => s
       | some y =>
         let good := mkBlk y.1 (volRef 4 vol (block + j)) b.gen
         if b.mirror then
           forAll (List.range b.w) (fun s i =>
             if ((readPos s pi p band b t i row bad).map (volOk b vol (block + j))).getD false then s else writePos s pi band t i row good) s
         else if b.parity then
           let ds : List (Option (Nat × Bytes)) := (List.range b.k).map (fun i => (fetchRow s pi p band b t i row bad).map (fun y => (i, y)))
           if ds.any (·.isNone) then s
           else
             forAll (parityBlks band b t row (ds.filterMap id)) (fun s x =>
               if ((readPos s pi p band b t x.1 row bad).map (fun y => y.data == x.2.data)).getD false then s else writePos s pi band t x.1 row x.2) s
         else s)
    | _, _ => s) s

/-- The header block of a log record on a copy is valid: magic, CRC, band, generation and position (R54). -/
def logHdrOk (band : Nat) (b : Band) (hdr : Nat) (x : Blk) : Bool :=
  tagOk x (sysRef band hdr) 0xFFFF 4 && fieldAt x.data 0 4 == 0x4C524543 && (crc32c (x.data.take 60)).toNat == fieldAt x.data 60 4 &&
    fieldAt x.data 8 4 == band && fieldAt x.data 12 2 == b.gen && fieldAt x.data 16 4 == hdr

/-- The entry header e of a record on a copy is valid. -/
def logEntOk (x : Blk) (e : Nat) : Bool :=
  let h := sub x.data (64 + 64 * e) 64
  fieldAt h 0 4 == 0x4D4C4F47 && (crc32c (h.take 60)).toNat == fieldAt h 60 4

/-- A block of a log band at a slot block index on a copy. -/
def logRead (s : State) (pi : Nat) (p : Pool) (band : Nat) (b : Band) (j idx : Nat) (bad : List (Nat × Nat)) : Option Blk :=
  let (t, _, row) := dataPlace 1 b.stripShift idx
  readPos s pi p band b t j row bad

/-- A log entry is valid on a copy (R54). -/
def entryOn (s : State) (pi : Nat) (p : Pool) (band : Nat) (b : Band) (j hdr e vol block dataOff count : Nat) (zero : Bool) (bad : List (Nat × Nat)) : Bool :=
  match logRead s pi p band b j hdr bad with
  | none => false
  | some x =>
    logHdrOk band b hdr x && logEntOk x e &&
      (zero || (List.range count).all (fun i =>
        ((logRead s pi p band b j (hdr + dataOff + i) bad).map (volOk b vol (block + i))).getD false))

/-- The three copies of a valid entry are restored from the copy that holds it. -/
def restoreEntry (s : State) (pi band : Nat) (hdr vol block dataOff count : Nat) (zero : Bool) (from_ : Nat) (bad : List (Nat × Nat)) : State :=
  match poolAt s pi, bandAt s pi band with
  | some p, some b =>
    let idxs := hdr :: (if zero then [] else (List.range count).map (fun i => hdr + dataOff + i))
    let _ := (vol, block)
    forAll idxs (fun s i =>
      match logRead s pi p band b from_ i bad with
      | some x =>
        let (t, _, row) := dataPlace 1 b.stripShift i
        forAll ((List.range b.w).filter (fun j => j != from_ && (logRead s pi p band b j i bad) != some x)) (fun s j => writePos s pi band t j row x) s
      | none => s) s
  | _, _ => s

/-- Validate a record at replay and restore what it names (Table 3.9). None: it is ignored, its location abandoned. -/
def validateRec (s : State) (pi : Nat) (x : RecBody) (bad : List (Nat × Nat)) : Option State :=
  match x with
  | .mapDelta zeroes dealloc _ _ _ poison _ _ vol _ count block nb no _ _ =>
    if zeroes || dealloc || poison then some s
    else if runValid s pi nb vol block no count bad then some (restoreRun s pi nb vol block no count bad) else none
  | .logEntry _ zeroes _ vol _ count block band hdr off e =>
    match poolAt s pi, bandAt s pi band with
    | some p, some b =>
      ((List.range b.w).find? (fun j => entryOn s pi p band b j hdr e vol block off count zeroes bad)).map (fun j =>
        restoreEntry s pi band hdr vol block off count zeroes j bad)
    | _, _ => none
  | _ => some s

/-- A location that replay ignores: a stripe slot never counts as written. The place of a log record is given up with its band, which closes when replay ends
(R393). -/
def ignorePlace (s : State) (pi : Nat) (x : RecBody) : State :=
  match x with
  | .mapDelta _ _ _ full _ _ _ _ _ _ _ _ nb no _ _ =>
    if full then
      setBand s pi nb (fun b =>
        let t := no / (b.k * stripBlocks b.stripShift)
        if b.abandoned.contains t then b else { b with abandoned := t :: b.abandoned })
    else s
  | _ => s

/-! ## Intents (R97) -/

/-- Torn block of a direct volume at replay. -/
def tearBlock (s : State) (pi vol block band stripe pos : Nat) : State := poisonBlocks s pi vol block 1 true 4 band stripe pos

/-- A data block of a band under the tag format that the band is written with. -/
def bandBlk (b : Band) (vol block : Nat) (data : Bytes) : Blk :=
  if writesFmt3 b then { data := data, tag := { crc := crc64 data, ref := volRef 3 vol block, gen := BitVec.ofNat 16 b.g2gen, fmt := 3 } }
  else mkBlk data (volRef 4 vol block) b.gen

/-- P and Q of a row under that format, whose REF is zero in format 3 (Table 4.16). -/
def bandParity (band : Nat) (b : Band) (stripe row : Nat) (data : List (Nat × Bytes)) : List (Nat × Blk) :=
  (parityBlks band b stripe row data).map (fun x =>
    if writesFmt3 b then (x.1, { x.2 with tag := { x.2.tag with ref := 0, gen := BitVec.ofNat 16 b.g2gen, fmt := 3 } }) else x)

/-- A block of a row at replay: its bytes, and whether they are to be written back, or whether the block is torn. -/
inductive Settled where
  | held (data : Bytes)
  | mended (data : Bytes)
  | tornAs (data : Bytes)
deriving DecidableEq, Repr

def Settled.bytes : Settled → Bytes
  | .held y => y
  | .mended y => y
  | .tornAs y => y

/-- A data block of a row of a direct stripe as it stands on flash (R97 steps 3 and 4): read; else solved from the row. The row's own parity is in question, so
with the stripe degraded, or the block unreadable, two plans must agree; a block that fails its tag in a whole stripe takes the first result that passes it.
`jdata` are the row's journaled blocks: where the row as it stands gives nothing, the row with them in place is tried. -/
def settleCell (s : State) (pi : Nat) (p : Pool) (vol band : Nat) (b : Band) (listIdx stripe row pos : Nat) (jdata : Tab Blk) (bad : List (Nat × Nat)) : Settled :=
  let n := directBlock b listIdx stripe pos row
  let degraded := !(stripeLacks p b stripe).isEmpty
  let st := readPos s pi p band b stripe pos row bad
  let ins := rowInputs s pi p band b stripe row bad
  let over_ := ins.filter (fun e => !(thas jdata e.1)) ++ jdata.map (fun e => (e.1, e.2.data))
  let agree (l : List (Nat × Bytes)) : Option Bytes := acceptPlan b (fun f => volRef f vol n) none (parityPlans b.k l pos) true
  match st with
  | some x =>
    if volOk b vol n x then .held x.data
    else
      match (parityPlans b.k ins pos).find? (fun r => volOk b vol n { x with data := r }), (if degraded then agree ins else none) with
      | some r, _ => .mended r
      | none, some r => .mended r
      | none, none => .tornAs x.data
  | none =>
    match (agree ins).or (agree over_) with
    | some r => .mended r
    | none => .tornAs (zeros 4096)

/-- One row of a direct stripe is made consistent: journaled blocks go to every present target, what the row gives of the others is written back, the rest is
torn, and P and Q are computed anew (R97). `lost` marks a block as lost instead of torn, as a takeover does (R101); positions in `skip` take no write (R395). -/
def settleRow (s : State) (pi vol band listIdx stripe row : Nat) (jdata : Tab Blk) (skip : List Nat) (bad : List (Nat × Nat)) (lost : Bool) : State :=
  match poolAt s pi, bandAt s pi band with
  | some p, some b =>
    let cells := (List.range b.k).map (fun pos => (pos,
      match tget jdata pos with
      | some y => Settled.mended y.data
      | none => settleCell s pi p vol band b listIdx stripe row pos jdata bad))
    let s := forAll cells (fun s c =>
      let n := directBlock b listIdx stripe c.1 row
      match c.2 with
      | .held _ => s
      | .mended y => if skip.contains c.1 then s else writePos s pi band stripe c.1 row (bandBlk b vol n y)
      | .tornAs _ =>
        if ((poolAt s pi).bind (fun p => bbtAt p vol n)).isSome then s
        else if lost then poisonBlocks s pi vol n 1 false 6 band stripe c.1 else tearBlock s pi vol n band stripe c.1) s
    if b.parity then
      forAll ((bandParity band b stripe row (cells.map (fun c => (c.1, c.2.bytes)))).filter (fun x => !(skip.contains x.1))) (fun s x =>
        writePos s pi band stripe x.1 row x.2) s
    else s
  | _, _ => s

/-- The rows of a direct stripe that an intent names, cell by cell: position, row and volume block. -/
def intentCells (b : Band) (listIdx stripe r0 rn : Nat) : List (Nat × Nat × Nat) :=
  ((List.range (if b.mirror then 1 else b.k)).map (fun pos => (List.range rn).map (fun i => (pos, r0 + i, directBlock b listIdx stripe pos (r0 + i))))).flatten

/-- The journaled blocks of an intent with the cells that they are for: each is read from a copy on which it passes its tag check as a block of the intent's
rows. None where one has no such copy (R97). -/
def journaled (s : State) (pi vol band listIdx stripe r0 rn page n : Nat) (bands : List Nat) : Option (List (Nat × Nat × Blk)) :=
  match poolAt s pi, bandAt s pi band with
  | some p, some b =>
    let cells := intentCells b listIdx stripe r0 rn
    let copies (i : Nat) : List Blk := (bands.map (fun h => (((tget p.bands h).map (fun x => bandDrives p x)).getD []).filterMap (fun m =>
      lbaBlk (driveAt s m.1) (slotLba m.2 + page + i)))).flatten
    let got := (List.range n).map (fun i => (copies i).findSome? (fun y => (cells.find? (fun c => volOk b vol c.2.2 y)).map (fun c => (c.1, c.2.1, y))))
    if got.all (·.isSome) then some (got.filterMap id) else none
  | _, _ => none

/-- A target of a journaled intent that is there and takes no write: its drive cannot be reached, or returns a media status for a block of the intent
(R395). -/
def stuckTargets (s : State) (p : Pool) (b : Band) (stripe r0 rn : Nat) (bad : List (Nat × Nat)) : List (Nat × Nat × Nat) :=
  (List.range b.w).filterMap (fun j =>
    match posDrive p b j with
    | none => none
    | some (d, sl) =>
      if !(posPresent p b j) then none
      else
        let hit := (List.range rn).find? (fun i => bad.contains (d, rowLba b.stripShift sl stripe (r0 + i)))
        if driveOk s d && hit.isNone then none else some (j, d, rowLba b.stripShift sl stripe (r0 + hit.getD 0)))

/-- An intent whose journaled data one member does not take stays open past replay, as a unit that waits for the position to move (R395). -/
def keepIntent (s : State) (pi : Nat) (w vol keyGen band stripe : Nat) (mirror : Bool) (stuck : List (Nat × Nat × Nat)) : State :=
  let s := forAll stuck (fun s x => mediaEvent s x.2.1 x.2.2 4) s
  let u : Unit :=
    { vol := vol, cmd := none, start := 0, count := 0, path := if mirror then .mirrorInPlace else .rmw, stage := .acked, keyGen := keyGen, band := band
      stripe := stripe, journaled := true, jPlaced := true, applied := true, intentOpen := true, recSent := true, recValid := true, toMove := stuck.map (·.1) }
  setPool s pi (fun p => { p with units := tput p.units w u })

/-- The touched blocks of a mirror row: the lowest copy whose tag passes goes to the others; with none the block is torn (R97 step 2). -/
def settleMirror (s : State) (pi vol band listIdx stripe row : Nat) (bad : List (Nat × Nat)) : State :=
  match poolAt s pi, bandAt s pi band with
  | some p, some b =>
    let n := directBlock b listIdx stripe 0 row
    match (List.range b.w).findSome? (fun j => (readPos s pi p band b stripe j row bad).bind (fun y => if volOk b vol n y then some (j, y) else none)) with
    | some c => forAll ((List.range b.w).filter (· != c.1)) (fun s j => writePos s pi band stripe j row (bandBlk b vol n c.2.data)) s
    | none => tearBlock s pi vol n band stripe 0
  | _, _ => s

/-- An open intent's rows are made consistent (R97, R395); `hbx` are the bands in which its journaled data may lie. -/
def resolveIntent (s : State) (pi : Nat) (x : RecBody) (hbx : List Nat) (bad : List (Nat × Nat)) : State :=
  match x with
  | .intent isJ _ _ _ w vol kg band stripe _ r0 rn _ page nb =>
    match poolAt s pi, bandAt s pi band, volAt s vol with
    | some p, some b, some v =>
      let li := (v.bandList.findIdx? (· == band)).getD 0
      let rows := (List.range rn).map (· + r0)
      if isJ then
        match journaled s pi vol band li stripe r0 rn page nb hbx with
        | none => s
        | some got =>
          let stuck := stuckTargets s p b stripe r0 rn bad
          let skip := stuck.map (·.1)
          let s := forAll rows (fun s row =>
            let mine := (got.filter (fun c => c.2.1 == row)).map (fun c => (c.1, c.2.2))
            if b.mirror then
              forAll mine (fun s y => forAll ((List.range b.w).filter (fun j => !(skip.contains j))) (fun s j => writePos s pi band stripe j row y.2) s) s
            else settleRow s pi vol band li stripe row mine skip bad false) s
          if stuck.isEmpty then s else keepIntent s pi w vol kg band stripe b.mirror stuck
      else if b.mirror then forAll rows (fun s row => settleMirror s pi vol band li stripe row bad) s
      else if b.parity then forAll rows (fun s row => settleRow s pi vol band li stripe row [] [] bad false) s
      else s
    | _, _, _ => s
  | _ => s

/-- An INTENT of a format-3 journal as a record. Table 4.17 gives no count of journaled blocks: they are taken to cover the touched rows (log entry 66). -/
def intentOf3 (p : Pool) (x : Rec3) : RecBody :=
  let mirror := x.mirror || ((tget p.bands x.band).map (·.mirror)).getD false
  .intent x.journaled mirror false false x.seq x.vol 0 x.band x.stripe 0 x.firstRow x.rowCount 0 x.dataPage (x.rowCount * (if mirror then 1 else p.k))

/-- The open INTENTs of an MBP-G2 pool are resolved at its import, in order of SEQ, under format-3 tags (R149 step 2). One that would stay open is given up: no
record can keep it. -/
def resolveG2 (s : State) (pi : Nat) (l : Ledger) (im : PoolImage) (bad : List (Nat × Nat)) : State :=
  let s := forAll im.g2open (fun s x =>
    match poolAt s pi with
    | some p => resolveIntent s pi (intentOf3 p x) [l.hbxBand] bad
    | none => s) s
  setPool s pi (fun p => { p with units := [] })

/-- Steps 3 and 4 of R149: Band Table bands and a format-4 Band Table, the band lists as pages, and the ledger on copy 1. -/
def tablesOfG2 (s : State) (pi : Nat) : State :=
  let s := writeTables s pi
  let s := forAll ((s.volumes.filter (fun e => e.2.pool == pi)).map (·.1)) (fun s v => writeList s pi v) s
  writeLedger s pi

/-- Whether a header on flash says that a unit wrote a block of a volume in place (R394): without its header on flash no in-place write was
issued (R96). -/
def intentWrote (hdrs : List StripeHdr) (w vol block : Nat) : Bool :=
  hdrs.any (fun h => h.wseq == w && h.direct && h.vol == vol && decide (h.volBlock ≤ block ∧ block < h.volBlock + h.blockCount))

/-! ## What else records restore (R98, R393) -/

/-- BAND records are applied by generation (R98). -/
def applyBand (s : State) (pi : Nat) (x : RecBody) : State :=
  match x with
  | .band band gen ev pos m sl =>
    match bandAt s pi band with
    | none => s
    | some b =>
      if b.gen != gen || b.state == .free then s
      else
        match ev with
        | 1 => setPool s pi (fun p => { p with members := releaseSlots p.members b.members, bands := tmod p.bands band (fun b => { b with state := .free }) })
        | 2 =>
          if b.members[pos]? = some (m, sl) then s
          else
            setPool s pi (fun p =>
              { p with members := useSlots (releaseSlots p.members (b.members[pos]?).toList) [(m, sl)]
                       bands := tmod p.bands band (fun b =>
                         { b with members := b.members.set pos (m, sl), repairMask := if b.repairMask.contains pos then b.repairMask else pos :: b.repairMask
                                  unknownRebuild := if b.unknownRebuild.contains pos then b.unknownRebuild else pos :: b.unknownRebuild }) })
        | 3 => if b.state = .opened then setBand s pi band (fun b => { b with state := .closed }) else s
        | _ => s
  | _ => s

/-- Rotation pointers come back from the newest KEY_ROTATE of each direct volume. -/
def applyRotate (s : State) (x : RecBody) : State :=
  match x with
  | .keyRotate done vol _ li t row =>
    setVol s vol (fun v =>
      if v.kind != .direct then v
      else if done then { v with rotation := none, rotating := false, prevKeyGen := 0, gens := [] }
      else { v with rotation := some { list := li, stripe := t, row := row }, rotating := true })
  | _ => s

/-- The newest MAP_ROOT of each mapped volume gives its root, MAP_GEN and cut (R155, R98). -/
def applyRoot (s : State) (x : RecBody) : State :=
  match x with
  | .mapRoot vol band off gen cut =>
    setVol s vol (fun v => if v.kind != .mapped then v else { v with rootPlace := if band = 0xFFFFFFFF then none else some (band, off), mapGen := gen, cut := cut })
  | _ => s

/-- Every data, fold, reclaim and log band open at the loss is closed (R393). -/
def closeAtStart (s : State) (pi : Nat) : State :=
  match poolAt s pi with
  | none => s
  | some p =>
    forAll (p.bands.filter (fun e => e.2.state == .opened && decide (e.2.cls ≤ 2))) (fun s e => closeBand s pi e.1) s

/-! ## The checkpointed tree on flash (R154, R155) -/

/-- The block of a map band that holds a valid node, on the copy that is tried first. -/
def peekNode (s : State) (pi vol level low high mapGen : Nat) (place : Nat × Nat) : Option MapNode :=
  match poolAt s pi, bandAt s pi place.1 with
  | some p, some b => (nodeDrives s p b).findSome? (fun m =>
      (tget (driveAt s m.1).sys (slotLba m.2 + place.2)).bind (fun x => nodeOk x place vol level low high mapGen))
  | _, _ => none

/-- The children of an interior node with the keys at which they begin and end. -/
def childRanges (n : MapNode) : List (Nat × Nat × (Nat × Nat)) :=
  n.children.zipIdx.map (fun c => (c.1.1, ((n.children[c.2 + 1]?).map (·.1)).getD n.high, (c.1.2.1, c.1.2.2)))

/-- The extent of a block in the tree below a node; `fuel` bounds the levels. -/
def peekBlock (s : State) (pi vol mapGen block : Nat) : Nat → Nat → Nat → Nat → (Nat × Nat) → Option Extent
  | 0, _, _, _, _ => none
  | fuel + 1, level, low, high, place =>
    (peekNode s pi vol level low high mapGen place).bind (fun n =>
      if level = 0 then n.extents.find? (fun e => decide (e.start ≤ block ∧ block < extEnd e))
      else ((childRanges n).find? (fun c => decide (c.1 ≤ block ∧ block < c.2.1))).bind (fun c => peekBlock s pi vol mapGen block fuel (level - 1) c.1 c.2.1 c.2.2))

/-- The level of the node at the root of a volume's tree. -/
def rootLevel (s : State) (pi vol : Nat) (v : Volume) : Option Nat :=
  v.rootPlace.bind (fun pl => (List.range 8).find? (fun lv => (peekNode s pi vol lv 0 keyTop v.mapGen pl).isSome))

/-- The volume of a locating record. -/
def bodyVol : RecBody → Option Nat
  | .mapDelta _ _ _ _ _ _ _ _ v _ _ _ _ _ _ _ => some v
  | .logEntry _ _ _ v _ _ _ _ _ _ _ => some v
  | _ => none

/-- Where a block of a volume stands once a record is applied: band, offset and key generation; none where no flash block holds it (Table 5.4). -/
def placeAfter (vol block : Nat) (cur : Option (Nat × Nat × Nat)) (body : RecBody) : Option (Nat × Nat × Nat) :=
  if bodyVol body ≠ some vol then cur
  else
    match body with
    | .mapDelta _ _ true _ _ _ _ _ _ g n b nb no ob oo =>
      if b ≤ block ∧ block < b + n ∧ cur.map (fun c => (c.1, c.2.1)) = some (ob, oo + (block - b)) then some (nb, no + (block - b), g) else cur
    | _ =>
      match bodyExtent body with
      | some (b, n, e) =>
        if b ≤ block ∧ block < b + n then
          e.bind (fun e => if e.kind = .mapped then some (e.band, e.off + (block - b), e.keyGen) else none)
        else cur
      | none => cur

/-- Where the checkpointed tree and the records applied so far place a block of a mapped volume. -/
def placeOf (s : State) (pi : Nat) (before : List RecBody) (vol block : Nat) : Option (Nat × Nat × Nat) :=
  match volAt s vol with
  | none => none
  | some v =>
    let base := (rootLevel s pi vol v).bind (fun lv => v.rootPlace.bind (fun pl => peekBlock s pi vol v.mapGen block 8 lv 0 keyTop pl))
    before.foldl (placeAfter vol block) (base.bind (fun e => if e.kind = .mapped then some (e.band, e.off + (block - e.start), e.keyGen) else none))

/-! ## Replay (R98) -/

/-- A conditional record whose old place no block of its run holds says nothing of the map (R59, Table 3.9). -/
def oldHeld (s : State) (pi : Nat) (x : RecBody) : Bool :=
  match x with
  | .mapDelta _ _ true _ _ _ _ _ vol _ n b _ _ ob oo =>
    let before := ((volAt s vol).map (·.overlay)).getD []
    (List.range n).any (fun j => (placeOf s pi before vol (b + j)).map (fun c => (c.1, c.2.1)) == some (ob, oo + j))
  | _ => true

/-- The blocks of a direct volume that a record enters in its index leave it where a replayed INTENT of a higher WRITE_SEQ wrote them in place (R394). -/
def dropOlder (s : State) (vol w : Nat) (intents : List (Nat × Nat)) (hdrs : List StripeHdr) : State :=
  setVol s vol (fun v => { v with pending := v.pending.filter (fun b =>
    !(b.wseq == w && intents.any (fun i => i.2 == vol && decide (w < i.1) && intentWrote hdrs i.1 vol b.block))) })

/-- Locating records of a replay by unit, in ascending WRITE_SEQ: those that the checkpointed map holds already are passed over, and a unit's others are applied
all or none (R98, R99). -/
def replayUnits (s : State) (pi : Nat) (recs : List Rec) (acked : Nat) (hdrs : List StripeHdr) (bad : List (Nat × Nat)) : State :=
  let bands := ((poolAt s pi).map (·.bands)).getD []
  let locs := recs.filter (fun x => (bodyVol x.body).isSome && !(cancelled bands recs x))
  let seqs := sortBy (fun a b => decide (a ≤ b)) ((locs.filterMap (fun x => recWseq x.body)).eraseDups)
  let intents := recs.filterMap (fun x =>
    match x.body with
    | .intent _ _ _ false w vol _ _ _ _ _ _ _ _ _ => some (w, vol)
    | _ => none)
  forAll seqs (fun s w =>
    let mine := locs.filter (fun x => recWseq x.body == some w && (match (bodyVol x.body).bind (volAt s) with
      | some v => v.kind == .direct || decide (v.cut ≤ x.seq)
      | none => false))
    let mine := if w < acked then mine else mine.filter (fun x => oldHeld s pi x.body)
    if acked ≤ w ∧ mine.any (fun x => (validateRec s pi x.body bad).isNone) = true then forAll mine (fun s x => ignorePlace s pi x.body) s
    else
      forAll mine (fun s x =>
        let s := if w < acked then s else (validateRec s pi x.body bad).getD s
        let s := applyBody s pi x.body
        match x.body with
        | .logEntry true _ _ vol _ _ _ _ _ _ _ => dropOlder s vol w intents hdrs
        | _ => s) s) s

/-- INTENTs without a valid INTENT_DONE. -/
def openIntents (recs : List Rec) : List RecBody :=
  (recs.filter (fun x =>
    match x.body with
    | .intent _ _ _ _ w _ _ _ _ _ _ _ _ _ _ => !(recs.any (fun y =>
        match y.body with
        | .intentDone z _ _ _ => z == w
        | _ => false))
    | _ => false)).map (·.body)

/-- The journaled data of an intent is there, so that replay writes it. -/
def dataThere (s : State) (pi : Nat) (x : RecBody) (hbx : List Nat) : Bool :=
  match x, volAt s ((match x with
    | .intent _ _ _ _ _ v _ _ _ _ _ _ _ _ _ => v
    | _ => 0)) with
  | .intent true _ _ _ _ vol _ band stripe _ r0 rn _ page nb, some v =>
    (journaled s pi vol band ((v.bandList.findIdx? (· == band)).getD 0) stripe r0 rn page nb hbx).isSome
  | _, _ => false

/-- A rotation whose intent was carried out without the KEY_ROTATE record that follows it moves on (R96). -/
def rotationDone (s : State) (pi : Nat) (x : RecBody) : State :=
  match x with
  | .intent _ _ true _ _ vol kg band stripe _ r0 rn _ _ _ =>
    rotationOn s pi { vol := vol, cmd := none, start := 0, count := 0, path := .rmw, stage := .acked, keyGen := kg, band := band, stripe := stripe, rows := some (r0, rn) }
  | _ => s

/-- The blocks that an in-place unit wrote under the current key, by its headers (R42, log entry 48). -/
def intentGens (s : State) (hdrs : List StripeHdr) (x : RecBody) : State :=
  match x with
  | .intent _ _ false _ w vol kg _ _ _ _ _ _ _ _ =>
    if ((volAt s vol).map (·.keyGen)) = some kg then
      forAll (hdrs.filter (fun h => h.wseq == w && h.direct && h.vol == vol)) (fun s h => noteGen s vol h.volBlock h.blockCount kg) s
    else s
  | _ => s

/-- The INTENTs of a replay: open ones are resolved; then rotation pointers and key generations of the blocks written (R96 to R98, R42). -/
def replayIntents (s : State) (pi : Nat) (recs : List Rec) (acked : Nat) (hbx : List Nat) (hdrs : List StripeHdr) (bad : List (Nat × Nat)) : State :=
  let opens := openIntents recs
  let out (x : RecBody) : Bool := !(opens.contains x) || dataThere s pi x hbx || decide ((recWseq x).getD 0 < acked)
  let carried := (recs.map (·.body)).filter (fun b => (match b with
    | .intent _ _ _ _ _ _ _ _ _ _ _ _ _ _ _ => true
    | _ => false) && out b)
  let s := forAll opens (fun s x => resolveIntent s pi x hbx bad) s
  let s := forAll recs (fun s x => applyRotate s x.body) s
  let s := forAll carried (fun s x => rotationDone s pi x) s
  forAll carried (fun s x => intentGens s hdrs x) s

/-- Records that a takeover writes anew, in order of SEQ: all but those that the next epoch retires and the WATERMARKs (R87, R101, log entry 62). -/
def takenRecs (recs : List Rec) : List Rec :=
  recs.filter (fun x =>
    match x.body with
    | .watermark _ _ _ _ => false
    | .epochOpen _ _ _ _ _ _ _ => false
    | .checkpointEnd _ _ _ _ _ => false
    | .mode _ _ => false
    | .clean _ _ _ => false
    | .unknown _ => false
    | _ => true)

/-- The ring after a replay. From MRAM it stays as it is; from the drive copy its records are written to their slots again, exactly as they stand, so that the
next checkpoint set carries them (R98, R105); after a takeover it starts empty at its new FLOOR_SEQ (R102). -/
def refillRing (s : State) (p : Pool) (recs : List Rec) (copy jump : Bool) (head tail : Nat) : State :=
  let s := setRing s p.ring (fun r =>
    { r with head := head, tail := if jump then head else tail, inflight := [], validAt := [], retired := [], stalled := false, lagStalled := false
             remapBusy := [], epoch := p.epoch })
  if jump then setDir s p.ring (fun d => { d with floorSeq := head })
  else if !copy then s
  else
    forAll recs (fun s x =>
      setRing (if s.hbx.driveJournal then s else countSlot s p.ring x.seq) p.ring (fun r => { r with slots := tput r.slots (x.seq % ringN) x })) s

/-- Hatbox bands that the ledger does not name are freed (R95); the journal band of an imported format-3 pool stays while an MBP-G2 can still import the pool
(R149). -/
def freeStray (s : State) (pi : Nat) : State :=
  match poolAt s pi with
  | none => s
  | some p =>
    if p.g2Copy0 then s
    else
    forAll ((p.bands.filter (fun e => e.2.cls == 4 && e.2.state != .free && e.1 != p.copy.band)).map (·.1)) (fun s n => freeBandOf s pi n) s

/-- Replay of a mounted pool from records `all` in order of SEQ: BAND records, map roots, locating records with those that a takeover's scans found, open
intents, rotation pointers; then the ring goes on above every SEQ seen, open bands are closed, Hatbox bands that nothing names are freed, a WATERMARK is written
and a new epoch is opened (R95, R98, R393). `top` is one above the highest SEQ; at a takeover the next SEQ is the highest plus 2^32 (R102). -/
def replayRecs (s : State) (pi : Nat) (im : PoolImage) (all : List Rec) (found : List RecBody) (top reason : Nat) (copy jump : Bool) (bad : List (Nat × Nat)) : State :=
  match poolAt s pi with
  | none => s
  | some p =>
    let (acked, tail, nextW) := (newestMark all).getD (0, 0, 0)
    let recs := all.filter (fun x => decide (tail ≤ x.seq))
    let s := forAll recs (fun s x => applyBand s pi x.body) s
    let s := forAll all (fun s x => applyRoot s x.body) s
    let hi := recs.foldl (fun m x => max m (((recWseq x.body).map (· + 1)).getD 0)) nextW
    let hi := im.headers.foldl (fun m h => max m (h.wseq + 1)) hi
    let s := setPool s pi (fun p => { p with wseq := hi })
    let s := replayUnits s pi (recs ++ found.map (fun b => { epoch := p.epoch, seq := top, body := b })) acked im.headers bad
    let hbx := p.copy.band :: (((poolAt s pi).map (fun p => (p.bands.filter (fun e => e.2.cls == 4 && e.2.state != .free && e.1 != p.copy.band)).map (·.1))).getD [])
    let s := replayIntents s pi recs acked hbx im.headers bad
    let head := if jump then top - 1 + 2 ^ 32 else max top tail
    let s := refillRing s p recs copy jump head tail
    let onDrives (q : Nat) : Bool := im.journal.any (fun y => y.seq == q)
    let gap := if copy || jump then none else (recs.find? (fun x => !(onDrives x.seq))).map (·.seq)
    let s := setPool s pi (fun p => { p with copy := { p.copy with copied := gap.getD head, pagedTo := head, gapAt := gap }, replayed := true })
    let s := if jump then forAll (takenRecs recs) (fun s x => sendNow s pi (carryReq x)) s else s
    let s := forAll found (fun s b => sendNow s pi { body := b }) s
    let s := forAll (openIntents recs) (fun s x =>
      match x with
      | .intent _ _ _ _ w vol _ band stripe _ _ _ _ _ _ =>
        if ((poolAt s pi).map (fun p => thas p.units w)).getD false then s else sendValid s pi (.intentDone w vol band stripe)
      | _ => s) s
    let s := freeStray (closeAtStart s pi) pi
    let s := writeTables (writeLedger (sendWatermark s pi) pi) pi
    refreshPool (openEpoch s pi reason) pi

/-- Members whose drive has gone since the ledgers were read are failed members (R98). -/
def failGone (s : State) (pi : Nat) : State :=
  match poolAt s pi with
  | none => s
  | some p => forAll (p.present.filterMap (fun e => e.2.driveSlot)) (fun s d => if (driveAt s d).linkUp then s else failMember s d) s

/-- Replay of a pool of this device (R98): from its MRAM ring, or from the drive copy where the directory entry says drive-journal or the MRAM cannot be used. A
pool whose directory says drive-journal on a device that has left that mode at this start leaves it with its new epoch (R105); on a device that has entered it at
this start the pool enters it (R104). -/
def replayPool (s : State) (pi : Nat) (bad : List (Nat × Nat)) : State :=
  let s := failGone s pi
  match poolAt s pi with
  | none => s
  | some p =>
    let r := ringAt s p.ring
    let im := imageOf s p true
    let copy := r.dir.driveJournal || !s.hbx.mramOk || s.hbx.dead
    let all := if copy then im.journal else ringRecs r
    let top := if copy then all.foldl (fun m x => max m (x.seq + 1)) 0 else r.slots.foldl (fun m e => max m (e.2.seq + 1)) r.head
    if r.dir.driveJournal && !s.hbx.driveJournal then
      let s := zeroRing (setDir s p.ring (fun d => { d with driveJournal := false })) p.ring
      sendRec (replayRecs s pi im all [] top 4 copy false bad) pi (.mode 0 5)
    else if s.hbx.driveJournal && !r.dir.driveJournal then
      let s := setDir s p.ring (fun d => { d with driveJournal := true })
      sendRec (replayRecs s pi im all [] top 4 copy false bad) pi (.mode 1 s.hbx.djCause)
    else replayRecs s pi im all [] top 1 copy false bad

/-- REPLAY. -/
def execReplay (pool : Nat) (bad : List (Nat × Nat)) (s : State) : Res :=
  .next <|
    match poolAt s pool with
    | some p => if p.replayed || !p.online then s else replayPool s pool bad
    | none => s

/-- The highest valid SEQ of a pool's ring is a CLEAN record whose NEXT_WRITE_SEQ is the pool's (R100). -/
def ringClean (s : State) (p : Pool) : Bool :=
  match (ringRecs (ringAt s p.ring)).getLast? with
  | some x =>
    match x.body with
    | .clean _ n _ => n == p.wseq
    | _ => false
  | none => false

/-! ## Takeover (R101, R102) -/

/-- The tag CRC of the block at a place, on the first copy that can be read. -/
def tagCrcAt (s : State) (pi : Nat) (p : Pool) (band off : Nat) (bad : List (Nat × Nat)) : Option (BitVec 64) :=
  match bandAt s pi band with
  | none => none
  | some b =>
    let (t, pos, row) := dataPlace b.k b.stripShift off
    ((if b.k = 1 then List.range b.w else [pos]).findSome? (fun j => readPos s pi p band b t j row bad)).map (·.tag.crc)

/-- The redirects of a MIXED stripe (R101 step 2): each block's volume and number come from its tag REF, and it moves only where the map's current
location holds a block with an equal tag CRC. A REF holds the low 36 bits of a block number: the numbers that it can mean are tried in rising order. -/
def mixedBodies (s : State) (pi : Nat) (p : Pool) (b : Band) (before : List RecBody) (h : StripeHdr) (bad : List (Nat × Nat)) : List RecBody :=
  let per := b.k * stripBlocks b.stripShift
  let whole := (List.range per).all (fun j =>
    let (t, pos, row) := dataPlace b.k b.stripShift (h.stripe * per + j)
    (fetchRow s pi p h.band b t pos row bad).isSome)
  if !whole then []
  else
    (List.range per).filterMap (fun j =>
      let off := h.stripe * per + j
      let (t, pos, row) := dataPlace b.k b.stripShift off
      match readPos s pi p h.band b t pos row bad with
      | none => none
      | some x =>
        let vol := x.tag.ref.toNat / 2 ^ 36
        let low := x.tag.ref.toNat % 2 ^ 36
        if x.tag.fmt ≠ 4 ∨ x.tag.gen ≠ BitVec.ofNat 16 b.gen ∨ x.tag.crc ≠ crc64 x.data then none
        else
          match volAt s vol with
          | none => none
          | some v =>
            if v.kind ≠ .mapped ∨ v.pool ≠ pi then none
            else
              ((List.range (v.capacity / 2 ^ 36 + 1)).map (fun i => low + i * 2 ^ 36)).findSome? (fun n =>
                match placeOf s pi before vol n with
                | some (cb, co, g) =>
                  if (cb, co) ≠ (h.band, off) ∧ tagCrcAt s pi p cb co bad = some x.tag.crc then
                    some (.mapDelta false false true true false false false h.wseq vol g 1 n h.band off cb co)
                  else none
                | none => none))

/-- Units that only the header ring names, as locating records (R101 step 2); `found` are the records known so far, with their WRITE_SEQ. -/
def scanHeaders (s : State) (pi acked : Nat) (hdrs : List StripeHdr) (found : List RecBody) (bad : List (Nat × Nat)) : List RecBody :=
  match poolAt s pi with
  | none => []
  | some p =>
    let hs := hdrs.filter (fun h => decide (acked ≤ h.wseq) && !h.direct && !(found.any (fun x => recWseq x == some h.wseq)))
    (sortBy (fun a b => decide (a.wseq ≤ b.wseq)) hs).foldl (fun acc h =>
      match bandAt s pi h.band with
      | none => acc
      | some b =>
        let off := if h.part then h.firstOff else h.stripe * (b.k * stripBlocks b.stripShift)
        if b.gen != h.gen then acc
        else if h.mixed then
          let before := sortBy (fun a b => decide ((recWseq a).getD 0 ≤ (recWseq b).getD 0))
            ((found ++ acc).filter (fun x => decide ((recWseq x).getD 0 < h.wseq)))
          acc ++ mixedBodies s pi p b before h bad
        else if runValid s pi h.band h.vol h.volBlock off h.blockCount bad then
          acc ++ [.mapDelta false false false (!h.part) h.part false false h.wseq h.vol h.keyGen h.blockCount h.volBlock h.band off 0 0]
        else acc) []

/-- Entries of the record whose header block is at an offset of an open log band, on any copy, as LOG_ENTRY records; the offset after it. -/
def scanRecord (s : State) (pi band hdr : Nat) (have_ : List Nat) (bad : List (Nat × Nat)) : Option (List RecBody × Nat) :=
  match poolAt s pi, bandAt s pi band with
  | some p, some b =>
    match (List.range b.w).findSome? (fun j => (logRead s pi p band b j hdr bad).bind (fun x => if logHdrOk band b hdr x then some x else none)) with
    | none => none
    | some x =>
      let n := fieldAt x.data 5 1
      let l := (List.range n).filterMap (fun e =>
        let h := sub x.data (64 + 64 * e) 64
        let w := fieldAt h 8 8
        let fl := fieldAt h 5 1
        if have_.contains w || !(logEntOk x e) then none
        else
          let body : RecBody := .logEntry (fl % 2 == 1) (fl / 4 % 2 == 1) w (fieldAt h 16 2) (fieldAt h 18 2) (fieldAt h 6 2) (fieldAt h 24 8) band hdr (fieldAt h 20 4) e
          if (validateRec s pi body bad).isSome then some body else none)
      some (l, hdr + 1 + fieldAt x.data 6 2)
  | _, _ => none

/-- Record headers of an open log band are read forward until no copy holds a valid one. -/
def scanLog (fuel : Nat) (s : State) (pi band hdr : Nat) (have_ : List Nat) (bad : List (Nat × Nat)) : List RecBody :=
  match fuel with
  | 0 => []
  | f + 1 =>
    match scanRecord s pi band hdr have_ bad with
    | some (l, nx) => l ++ scanLog f s pi band nx have_ bad
    | none => []

/-- Whether the newest checkpoint set of a drive copy's records fails its SET_CRC: its epoch is then unusable (R101 step 1). -/
def setBad (recs : List Rec) : Bool :=
  match (recs.filterMap (fun x =>
    match x.body with
    | .checkpointEnd _ n f l c => some (n, f, l, c)
    | _ => none)).getLast? with
  | some (n, f, l, c) =>
    let set := recs.filter (fun x => decide (f ≤ x.seq ∧ x.seq ≤ l))
    set.length != n || (crc32c (set.map recBytes).flatten).toNat != c
  | none => false

/-- DIRECT headers without an INTENT_DONE: the parity of every row of their stripe is recomputed; what cannot be reconstructed is lost. -/
def scanDirect (s : State) (pi : Nat) (hdrs : List StripeHdr) (recs : List Rec) (bad : List (Nat × Nat)) : State :=
  let hs := hdrs.filter (fun h => h.direct && !(recs.any (fun x =>
    match x.body with
    | .intentDone w _ _ _ => w == h.wseq
    | _ => false)))
  forAll hs (fun s h =>
    match bandAt s pi h.band, volAt s h.vol with
    | some b, some v =>
      if b.parity && b.gen == h.gen then
        let li := (v.bandList.findIdx? (· == h.band)).getD 0
        forAll (List.range (stripBlocks b.stripShift)) (fun s r => settleRow s pi h.vol h.band li h.stripe r [] [] bad true) s
      else s
    | _, _ => s) s

/-- A pool of another controller is recovered from its drive copy, header ring and log streams; its next SEQ jumps by 2^32 (R101, R102). What the
scans find is replayed with the records, in WRITE_SEQ order. -/
def takeOver (s : State) (pi : Nat) (bad : List (Nat × Nat)) : State :=
  match poolAt s pi with
  | none => s
  | some p =>
    let im := imageOf s p false
    let recs := if setBad im.journal then [] else im.journal
    let top := recs.foldl (fun m x => max m (x.seq + 1)) 0
    let (acked, tail, _) := (newestMark recs).getD (0, 0, 0)
    let known := (recs.filter (fun x => decide (tail ≤ x.seq) && !(cancelled p.bands recs x))).map (·.body)
    let lastOf (band : Nat) : Nat := recs.foldl (fun m x =>
      match x.body with
      | .logEntry _ _ _ _ _ _ _ b h _ _ => if b = band then max m h else m
      | _ => m) 0
    let have_ := recs.filterMap (fun x => recWseq x.body)
    -- bands and roots as the records leave them
    let s1 := forAll recs (fun s x => applyRoot (if tail ≤ x.seq then applyBand s pi x.body else s) x.body) s
    let logs := ((p.bands.filter (fun e => e.2.cls == 1 && e.2.state == .opened)).map (fun e => scanLog 262144 s1 pi e.1 (lastOf e.1) have_ bad)).flatten
    let found := logs ++ scanHeaders s1 pi acked im.headers (known ++ logs) bad
    let s := scanDirect s pi im.headers recs bad
    replayRecs s pi im recs found top 3 true true bad

/-! ## Map roots (R163) -/

/-- A part of a tree that has no valid copy on flash: a leaf over its range stands for it, with the interior nodes that lead there. -/
def goneTree (level low high : Nat) : List Leaf × List Inner :=
  ([{ low := low, high := high, dirty := true }], (List.range level).map (fun i => { level := i + 1, low := low, high := high }))

/-- The tree that a node reaches: interior nodes are read, and copies that failed are written again; leaves stay on flash, their entries those of their copies.
Answers leaves, interior nodes, and the ranges below interior nodes of which no copy is valid (R154, R163). `fuel` bounds the levels. -/
def loadTree (pi vol mapGen : Nat) : Nat → State → Nat → Nat → Nat → (Nat × Nat) → State × List Leaf × List Inner × List (Nat × Nat)
  | 0, s, _, _, _, _ => (s, [], [], [])
  | fuel + 1, s, level, low, high, place =>
    if level = 0 then
      (s, [{ low := low, high := high, extents := ((peekNode s pi vol 0 low high mapGen place).map (·.extents)).getD [], resident := false, place := some place }], [], [])
    else
      match readNode s pi vol level low high mapGen place with
      | (s, none) => let g := goneTree level low high
        (s, g.1, g.2, [(low, high)])
      | (s, some n) =>
        (childRanges n).foldl (fun (acc : State × List Leaf × List Inner × List (Nat × Nat)) c =>
          let r := loadTree pi vol mapGen fuel acc.1 (level - 1) c.1 c.2.1 c.2.2
          (r.1, acc.2.1 ++ r.2.1, acc.2.2.1 ++ r.2.2.1, acc.2.2.2 ++ r.2.2.2)) (s, [], [{ level := level, low := low, high := high, dirty := false, place := some place }], [])

/-- The tree of a volume's root; one with no valid copy leaves the whole range lost. -/
def volTree (s : State) (pi vol : Nat) (v : Volume) : State × List Leaf × List Inner × List (Nat × Nat) :=
  match v.rootPlace with
  | none => (s, [], [], [])
  | some place =>
    match rootLevel s pi vol v with
    | some lv => loadTree pi vol v.mapGen 8 s lv 0 keyTop place
    | none => (s, [], [], [(0, keyTop)])

/-- Every map band of a pool can be reached: a node that its drives do not return now is not lost. -/
def mapReach (s : State) (p : Pool) : Bool := p.bands.all (fun e => e.2.cls != 3 || e.2.state == .free || bandReach s p e.2)

/-- A record changes something in a key range. -/
def touches (low high : Nat) (x : RecBody) : Bool :=
  match x with
  | .mapDelta _ _ _ _ _ _ _ _ _ _ n b _ _ _ _ => decide (b < high ∧ low < b + n)
  | .logEntry _ _ _ _ _ n b _ _ _ _ => decide (b < high ∧ low < b + n)
  | _ => false

/-- A volume's interior nodes become resident, and its overlay is merged: into a leaf as that leaf is loaded, which the model does at once. What flash no longer
holds of the tree is lost (R135, R163). -/
def loadRoot (s : State) (vol : Nat) : State :=
  match volAt s vol with
  | none => s
  | some v =>
    match poolAt s v.pool with
    | none => s
    | some p =>
      let pi := v.pool
      if v.rootLoaded || !(mapReach s p) then s
      else
        let (s, leaves, inner, gone) := volTree s pi vol v
        let places := leaves.filterMap (·.place) ++ inner.filterMap (·.place)
        let s := setVol s vol (fun v => { v with leaves := leaves, inner := inner, nodePlaces := places, overlay := [], rootLoaded := true })
        let s := forAll gone (fun s g =>
          let top := min g.2 v.capacity
          if top ≤ g.1 then s else poisonBlocks s pi vol g.1 (top - g.1) false 5 0xFFFFFFFF 0 0) s
        -- a leaf that the overlay touches is loaded
        let lost := leaves.filter (fun l => l.place.isSome && (l.place.bind (peekNode s pi vol 0 l.low l.high v.mapGen)).isNone && v.overlay.any (touches l.low l.high))
        let s := forAll lost (fun s l => loseLeaf s pi vol v l) s
        let s := forAll v.overlay (fun s b => applyBody s pi b) s
        let s := setVol s vol (fun v =>
          { v with rotating := v.encrypted && (v.prevKeyGen != 0 || (v.leaves.map (·.extents)).flatten.any (fun e => e.kind == .mapped && e.keyGen != v.keyGen)) })
        fitMap (postVol s vol 2 0) pi 0 none

/-- Live-block counts of a pool's bands from its maps and pending-block indexes (R71, R160, Table 13.6). -/
def recountLive (s : State) (pi : Nat) : State :=
  let vols := s.volumes.filter (fun e => e.2.pool == pi)
  let exts := ((vols.map (fun e => (e.2.leaves.map (·.extents)).flatten)).flatten).filter (fun x => x.kind == .mapped)
  let pend := ((vols.map (fun e => e.2.pending)).flatten).filter (fun x => !x.zeroes)
  let nodes := (vols.map (fun e => e.2.nodePlaces)).flatten
  setPool s pi (fun p => { p with rootsLoaded := true, bands := tmap p.bands (fun n b =>
    { b with live := ((exts.filter (fun x => x.band == n)).map (·.len)).sum + (pend.filter (fun x => x.band == n)).length
        + (nodes.filter (fun x => x.1 == n)).length }) })

/-- MAP_ROOT_LOAD: after the last volume of the pool its live counts are there. -/
def mapRootLoad (s : State) (vol : Nat) : State :=
  let s := loadRoot s vol
  match volAt s vol with
  | none => s
  | some v =>
    if (s.volumes.filter (fun e => e.2.pool == v.pool)).all (fun e => e.2.rootLoaded) && ((poolAt s v.pool).map (fun p => !p.rootsLoaded)).getD false then
      recountLive s v.pool
    else s

def execMapRootLoad (vol : Nat) (s : State) : Res := .next (mapRootLoad s vol)

end Sys2Proof.Machine
end

