-- ==== Sys2Proof/Machine/QpError.lean ====
section
/-! DEFINITION. Ends of queue pairs and of regions: revokes (R222, R223), a queue pair leaving RTS (R232, R251), Error (R224), SQD and Reset
(R205). -/

namespace Sys2Proof.Machine

/-! ## Revokes -/

/-- A revoke finishes: the entry becomes FREE, its fences close, its pages are freed, and a REGION_RELEASE that waits completes (R223). -/
def finishRevoke (s : State) (idx : Nat) : State :=
  let r := regionAt s idx
  let s := { s with rdma := { s.rdma with qps := tmap s.rdma.qps (fun _ q => { q with fences := q.fences.filter (fun f => f.1 != idx) }) } }
  let s := setRegion s idx (fun r => { r with state := .free, release := none })
  let s := setConn s r.conn (fun k => { k with regions := k.regions.filter (· != idx) })
  let s := freePages s idx
  match r.release with
  | none => s
  | some (c, cid) =>
    match (queueCmds s c 0).find? (fun e => e.2.e.cid == cid && e.2.e.opcode == 0x84) with
    | some e => endWith s e.1 0 0
    | none => s

/-- Queue pairs that still hold a revoke of a region open. -/
def unfinishedQps (s : State) (idx : Nat) : List Nat :=
  (s.rdma.qps.filter (fun e => e.2.fences.any (fun f => f.1 == idx && !(fencePassed e.2 f.2)))).map (·.1)

/-- Revokes whose every fence has been passed finish (R223). -/
def checkRevokes (s : State) : State :=
  forAll (s.rdma.regions.filter (fun e => e.2.state == .revoking)) (fun s e =>
    if (unfinishedQps s e.1).isEmpty then finishRevoke s e.1 else s) s

/-- A revoke begins: REVOKING, and a fence at the highest accepted PSN of each queue pair of the owning connection (R222). -/
def startRevoke (s : State) (idx : Nat) (byFirmware : Bool) : State :=
  let r := regionAt s idx
  if r.state != .active then s
  else
    let s := setRegion s idx (fun r => { r with state := .revoking, revokeFrom := nowOf s, byFirmware := byFirmware })
    let open_ (q : Qp) : Bool := q.conn == r.conn && (q.state == .rtr || q.state == .rts || q.state == .sqd)
    let s := { s with rdma := { s.rdma with qps := tmap s.rdma.qps (fun _ q =>
      if open_ q then { q with fences := q.fences ++ [(idx, highestPsn q)] } else q) } }
    checkRevokes (count s 0x484)

/-- The region that an R_Key names, when it is ACTIVE. -/
def activeKey (s : State) (rkey : Nat) : Bool :=
  let r := regionAt s (rkey % 2 ^ 14)
  rkey != 0 && r.state == .active && regionKey (rkey % 2 ^ 14) r == rkey

/-- Whether the revoke last started through QP_REVOKE_CMD still runs. -/
def revokeBusy (s : State) : Bool :=
  let r := regionAt s (s.rdma.lastRevokeKey % 2 ^ 14)
  r.state == .revoking && r.byFirmware

/-- A write of START to QP_REVOKE_CMD: refused while BUSY or when the key is not ACTIVE (Table 7.24). -/
def revokeStart (s : State) (rkey : Nat) : State :=
  if revokeBusy s || !(activeKey s rkey) then cfgReject s .qpRevokeCmd
  else startRevoke { s with rdma := { s.rdma with lastRevokeKey := rkey, revokeTimedOut := false } } (rkey % 2 ^ 14) true

/-! ## Leaving RTS -/

/-- Whether a connection has a queue pair in RTS. -/
def connLive (s : State) (c : Nat) : Bool := s.rdma.qps.any (fun e => e.2.conn == c && e.2.state == .rts)

/-- All regions of a connection are revoked. -/
def revokeAll (s : State) (c : Nat) : State :=
  forAll (((connAt s c).map (·.regions)).getD []) (fun s idx => startRevoke s idx false) s

/-- A queue pair has left RTS: its queue is lost (R251), and with no queue pair left in RTS the connection's regions are revoked and it
lingers (R224, R232). -/
def leaveRts (s : State) (i : Nat) : State :=
  match qpAt s i with
  | none => s
  | some q =>
    let s := loseQueue s q.conn q.queue
    if connLive s q.conn then s
    else
      let s := revokeAll s q.conn
      setConn s q.conn (fun k => { k with lingerFrom := some ((k.lingerFrom).getD (nowOf s)) })

/-- A queue pair enters RTS: its connection no longer lingers. -/
def enterRts (s : State) (i : Nat) : State :=
  match qpAt s i with
  | none => s
  | some q => setConn (setQp s i (fun q => { q with state := .rts })) q.conn (fun k => { k with lingerFrom := none })

/-- Units whose data the queue pair was to pull fail (R224): those with an outstanding READ, and those of its queue's commands whose pulled
data is not all here. -/
def failPulled (s : State) (q : Qp) : State :=
  let units := (s.pools.map (fun e => (e.2.units.filter (fun u =>
      q.reads.any (fun r => r.pool == e.1 && r.wseq == u.1) ||
      (!(allHere u.2) && ((u.2.cmd.bind (cmdAt s)).map (fun k => k.conn == q.conn && k.queue == q.queue && k.e.dataMode == 2)).getD false))).map
      (fun u => (e.1, u.1)))).flatten
  forAll units (fun s u => failUnit s u.1 u.2 0x30) s

/-- Payload bytes of a waiting packet. -/
def waitBytes : WaitPkt → Nat
  | .send p => p.payload.length
  | .write p => p.payload.length
  | .readResp p => p.payload.length
  | _ => 0

/-- Priority that a waiting packet was received at; an acknowledgement bears no mark in the model and counts as of ROCE_PRIO (log entry 78). -/
def waitPrio (s : State) : WaitPkt → Nat
  | .send p => rxPrio s p.mark
  | .write p => rxPrio s p.mark
  | .readResp p => rxPrio s p.mark
  | _ => fld s .netPrioCfg 2 0

/-- Packets that wait for a context are dropped; those held at ingress free their buffer. -/
def dropWaiting (s : State) (i : Nat) : State :=
  match qpAt s i with
  | none => s
  | some q =>
    let s := setQp { s with rdma := { s.rdma with fetches := s.rdma.fetches.filter (· != i) } } i (fun q => { q with waiting := [] })
    forAll (q.waiting.filter (·.1)) (fun s w => ingressSub s q.lane (waitPrio s w.2) (waitBytes w.2)) s

/-- A queue pair enters Error (R224). -/
def qpError (s : State) (i : Nat) : State :=
  match qpAt s i with
  | none => s
  | some q =>
    if q.state == .error || q.state == .reset then s
    else
      let s := dropWaiting s i
      let s := setQp s i (fun q =>
        { q with state := .error, enteredAt := nowOf s, held := [], accepted := [], gapFrom := none, partialMsg := [], unacked := [], reads := []
                 rnrUntil := none, timerFrom := none, oldestUnacked := none, sinceAck := 0 })
      let s := { failPulled s q with txWait := (failPulled s q).txWait.filter (fun w => ((pacedData w.2.2).map (·.1)) != some i) }
      let s := netSend s q.lane 1 (.cmDreq i)
      let s := count (setBit s .qpEvent 0) 0x480
      checkRevokes (leaveRts s i)

/-- A queue pair returns to Reset: its context is released and its queue closes (R205, R231). -/
def toReset (s : State) (i : Nat) : State :=
  match qpAt s i with
  | none => s
  | some q =>
    let s := dropWaiting s i
    let s := setQp s i (fun q => { q with state := .reset })
    let s := failPulled s q
    let s := leaveRts s i
    let s := closeQueue s q.conn q.queue
    checkRevokes { s with rdma := { s.rdma with qps := tdel s.rdma.qps i } }

/-- A queue pair leaves RTS for SQD: on a DREQ, or when shelf firmware quiesces it (R205). -/
def enterSqd (s : State) (i : Nat) (dreq : Bool) : State :=
  leaveRts (setQp s i (fun q => { q with state := .sqd, enteredAt := nowOf s, dreq := dreq })) i

/-- A queue pair in SQD with nothing outstanding and DREP exchanged returns to Reset (R205). -/
def sqdSettle (s : State) (i : Nat) : State :=
  match qpAt s i with
  | none => s
  | some q =>
    if q.state != .sqd || !q.unacked.isEmpty || !q.reads.isEmpty then s
    else if q.dreq then toReset (netSend s q.lane 1 (.cmDrep i)) i
    else if q.drep then toReset s i
    else s

end Sys2Proof.Machine
end

