-- ==== Sys2Proof/Machine/HostStart.lean ====
section
/-! DEFINITION. Starting commands (R237, R240, R241, R251, R252, R254), the command sample mark (R364), aborting, and what a change of a connection's
commands lets happen at once: the end of a RESET (R253), of a DISCONNECT, and unknown opcodes (R237). -/

namespace Sys2Proof.Machine

/-! ## Opcodes -/

/-- Whether a connection's protocol and version know an opcode on a queue (Tables 8.3, 8.6, 8.14). A Fabrics command has opcode 0x7F and its
FCTYPE in `param0`. -/
def opKnown (k : Conn) (q : Nat) (e : SubEntry) : Bool :=
  if k.nvme then
    if e.opcode = 0x7F then
      if q = 0 then [0, 1, 4, 5, 6].contains e.param0 else [1, 8].contains e.param0
    else if q = 0 then [0x02, 0x06, 0x08, 0x09, 0x0A, 0x0C, 0x18].contains e.opcode
    else [0, 1, 2, 8, 9].contains e.opcode
  else if q = 0 then
    [0x80, 0x81, 0x82, 0x85, 0x88, 0x89].contains e.opcode || (decide (0x20 ≤ k.version) && [0x83, 0x84, 0x86, 0x87].contains e.opcode)
  else [0, 1, 2, 8].contains e.opcode || (decide (0x20 ≤ k.version) && e.opcode == 9)

/-- I/O commands that write. -/
def isWriteOp (e : SubEntry) : Bool := e.opcode == 1 || e.opcode == 8 || e.opcode == 9

/-- Commands that wait for an event and that no RESET or drain waits for: EVENT_WAIT and Asynchronous Event Request. -/
def isWaitOp (nvme : Bool) (q : Nat) (e : SubEntry) : Bool := q == 0 && (if nvme then e.opcode == 0x0C else e.opcode == 0x88)

/-! ## Starting -/

/-- A connection stops under R252. -/
def logStalled (s : State) (c : Nat) : Bool :=
  match connAt s c with
  | some k => decide (32768 - 64 ≤ unread k + (connCmds s c).length)
  | none => false

/-- Entries of the in-flight write table: one for each write command of which a unit is not applied yet. An entry outlives a command that was aborted (R45). -/
def writeEntries (s : State) : Nat :=
  (s.pools.map (fun e =>
    ((e.2.units.filter (fun u => !u.2.background && !u.2.applied && u.2.stage != .failed)).map (fun u => u.2.cmdSeq)).eraseDups.length)).sum

/-- The capsule at the head of a queue. -/
def headOf (s : State) (c q : Nat) : Option Capsule := (queueAt s c q).bind (fun u => u.ring.head?)

/-- Whether the head of a queue may start now (R240, R241, R247, R251 to R254, R263). -/
def mayStart (s : State) (c q : Nat) : Bool :=
  match connAt s c, queueAt s c q, headOf s c q with
  | some k, some u, some h =>
    flag s .hqCtrl 0 && !s.hq.stopped && !s.hq.hold.active && k.resetCid.isNone && !u.lost && !u.frozen
      && decide (s.hq.cmds.length < 262144) && decide ((connCmds s c).length < fld s .hqLimitCfg 46 32) && !(logStalled s c)
      && !((queueCmds s c q).any (fun e => e.2.e.ordered)) && (!h.e.ordered || (queueCmds s c q).isEmpty)
      && (q == 0 || !(isWriteOp h.e) || decide (writeEntries s < 65536))
  | _, _, _ => false

/-- The command sample mark (R364): every Nth start triggers a mark, which falls on the trigger command or one of the next 8; how many
commands lie between is free. Answers the SKID when this start is marked. -/
def sampleMark (s : State) : State × Option Nat :=
  let n := fld s .telSampleCfg 23 0
  let t := s.tel
  let (s, armed) :=
    if n = 0 then ({ s with tel := { t with starts := 0 } }, t.armedSkid)
    else if n ≤ t.starts + 1 then
      let (d, s) := drawNat s
      ({ s with tel := { s.tel with starts := 0, markSkid := d % 9 } }, some (d % 9))
    else ({ s with tel := { t with starts := t.starts + 1 } }, t.armedSkid)
  match armed with
  | some 0 => ({ s with tel := { s.tel with armedSkid := none } }, some s.tel.markSkid)
  | some (m + 1) => ({ s with tel := { s.tel with armedSkid := some m } }, none)
  | none => (s, none)

/-- The head of a queue starts: it leaves its ring for a command slot (R240). Answers the slot. -/
def startHead (s : State) (c q : Nat) : State × Nat :=
  match connAt s c, headOf s c q with
  | some k, some h =>
    let slot := (freeKey s.hq.cmds 0 262144).getD 0
    let (s, mark) := sampleMark (count s 0x550)
    let s := setQueue s c q (fun u => { u with ring := u.ring.drop 1, started := u.started + 1 })
    let cmd : Cmd := { conn := c, queue := q, e := h.e, nvme := k.nvme, raw := h.raw, icd := h.icd, subSeq := h.subSeq, acceptedAt := h.acceptedAt
                       startedAt := nowOf s, mark := mark }
    ({ s with hq := { s.hq with cmds := tput s.hq.cmds slot cmd } }, slot)
  | _, _ => (s, 0)

/-! ## Aborting -/

/-- A command that ends early lets its units go: those with all their data run on, the others fail (R253, R263). -/
def detachUnits (s : State) (slot st : Nat) : State :=
  match cmdAt s slot with
  | none => s
  | some k =>
    forAll k.units (fun s w =>
      match unitAt s k.pool w with
      | none => s
      | some u =>
        let s := setUnit s k.pool w (fun u => { u with cmd := none })
        if u.zero || u.dealloc || allHere u then s else failUnit s k.pool w st) s

/-- A command ends early with a status. -/
def abortCmd (s : State) (slot st : Nat) : State := endWith (detachUnits s slot st) slot st 0

/-- Every unstarted command of a queue completes with a status, in submission order, without starting. -/
def abortRing (s : State) (c q st : Nat) : State :=
  match queueAt s c q with
  | none => s
  | some u =>
    let s := setQueue s c q (fun u => { u with ring := [] })
    if u.lost then s
    else forAll u.ring (fun s h => sendCompletion s c q h.e.cid st 0 false) s

/-- Every unstarted command of a connection. -/
def abortRings (s : State) (c st : Nat) : State :=
  forAll (((connAt s c).map (fun k => k.queues.map (·.1))).getD []) (fun s q => abortRing s c q st) s

/-! ## Ends of connections -/

/-- The device disconnects a queue pair: DREQ, and SQD until DREP (R205). -/
def disconnectQp (s : State) (i : Nat) : State :=
  match qpAt s i with
  | some q => if q.state == .rts || q.state == .rtr then enterSqd (netSend s q.lane 1 (.cmDreq i)) i false else s
  | none => s

/-- Queue pairs of a connection. -/
def qpsOf (s : State) (c : Nat) : List Nat := (s.rdma.qps.filter (fun e => e.2.conn == c)).map (·.1)

/-- A connection ends (R232): its queue pairs are disconnected, its regions released, its commands ended, and its record dropped. -/
def endConn (s : State) (c : Nat) : State :=
  let s := forAll (qpsOf s c) disconnectQp s
  let s := revokeAll s c
  let s := forAll ((connCmds s c).map (·.1)) (fun s k => abortCmd s k 0x41) s
  let s := forAll (((connAt s c).map (·.regions)).getD []) finishRevoke s
  let s := forAll (qpsOf s c) (fun s i => setQp s i (fun q => { q with conn := 1024 })) s
  { s with hq := { s.hq with conns := tdel s.hq.conns c } }

/-! ## What can end now -/

/-- Started commands that a RESET of a connection waits for. -/
def resetWaits (s : State) (c : Nat) (k : Conn) : List Nat :=
  ((connCmds s c).filter (fun e => !(isWaitOp k.nvme e.2.queue e.2.e) && !(e.2.queue == 0 && !k.nvme && e.2.e.opcode == 0x85))).map (·.1)

/-- Step 3 of R253: regions are released, event waits end, freezes are lifted and the RESET completes. A controller reset of NVMe-oF then
disconnects the I/O queue pairs and ends with CSTS.RDY clear (R259). -/
def finishReset (s : State) (c : Nat) : State :=
  match connAt s c with
  | none => s
  | some k =>
    let s := setConn s c (fun k => { k with resetCid := none })
    let s := revokeAll s c
    let s := forAll ((connCmds s c).filter (fun e => isWaitOp k.nvme e.2.queue e.2.e)) (fun s e => endWith s e.1 0x41 0) s
    let s := setConn s c (fun k => { k with queues := tmap k.queues (fun _ u => { u with frozen := false }) })
    if k.nvme then
      let s := setConn s c (fun k => { k with ctl := { k.ctl with csts := 0, pendingEvents := [] } })
      forAll (s.rdma.qps.filter (fun e => e.2.conn == c && e.2.queue != 0)) (fun s e => disconnectQp s e.1) s
    else
      match (queueCmds s c 0).find? (fun e => e.2.e.opcode == 0x85) with
      | some e => endWith s e.1 0 0
      | none => s

/-- RESETs whose started commands have all completed finish. -/
def checkResets (s : State) : State :=
  forAll s.hq.conns (fun s e =>
    match connAt s e.1 with
    | some k => if k.resetCid.isSome && (resetWaits s e.1 k).isEmpty then finishReset s e.1 else s
    | none => s) s

/-- DISCONNECTs complete once every other queue of their connection is closed; the connection then ends (R232, Table 8.6). -/
def checkDisconnects (s : State) : State :=
  forAll s.hq.conns (fun s e =>
    match connAt s e.1, (queueCmds s e.1 0).find? (fun x => !x.2.nvme && x.2.e.opcode == 0x89) with
    | some k, some x => if k.queues.all (fun u => u.1 == 0) then endConn (endWith s x.1 0 0) e.1 else s
    | _, _ => s) s

/-- Unknown opcodes at the head of a queue start and complete with INVALID_OPCODE (R237). -/
def sweepQueue : Nat → State → Nat → Nat → State
  | 0, s, _, _ => s
  | n + 1, s, c, q =>
    match connAt s c, headOf s c q with
    | some k, some h =>
      if opKnown k q h.e || !(mayStart s c q) then s
      else
        let r := startHead s c q
        sweepQueue n (endWith r.1 r.2 0x10 0) c q
    | _, _ => s

/-- What a change of the host queues lets happen at once. -/
def settleHost (s : State) : State :=
  let s := checkDisconnects (checkResets s)
  forAll s.hq.conns (fun s e => forAll e.2.queues (fun s u => sweepQueue u.2.ring.length s e.1 u.1) s) s

end Sys2Proof.Machine
end

