-- ==== Sys2Proof/Machine/Rdma.lean ====
section
/-! DEFINITION. Packets and timers of the transport (R206 to R217, R219 to R223) and the rows of its CM messages (R204, R205). -/

namespace Sys2Proof.Machine

/-! ## Arrival and the context cache (R206) -/

/-- Packets of a group in its miss queue, and its fetches under way. -/
def missQueued (s : State) (g : Nat) : Nat :=
  (s.rdma.qps.map (fun e => if qpGroup e.2 = g then (e.2.waiting.filter (fun w => !w.1)).length else 0)).sum
def groupFetches (s : State) (g : Nat) : Nat :=
  (s.rdma.fetches.filter (fun i => ((qpAt s i).map (fun q => qpGroup q == g)).getD false)).length

/-- Queue pairs of a group that wait for a context start a fetch while fewer than 64 are outstanding. -/
def startFetches (s : State) (g : Nat) : State :=
  forAll s.rdma.qps (fun s e =>
    if qpGroup e.2 = g ∧ !e.2.waiting.isEmpty ∧ !(s.rdma.fetches.contains e.1) ∧ groupFetches s g < 64 then
      { s with rdma := { s.rdma with fetches := s.rdma.fetches ++ [e.1] } }
    else s) s

/-- A packet waits for its context: in the miss queue of 512 packets, or held at ingress (R182, R206). -/
def missPacket (s : State) (i : Nat) (q : Qp) (w : WaitPkt) : State :=
  let full := decide (512 ≤ missQueued s (qpGroup q)) || q.waiting.any (·.1)
  let s := qpCount s q 6
  let s := if full then ingressAdd s q.lane (waitPrio s w) (waitBytes w) else s
  startFetches (setQp s i (fun q => { q with waiting := q.waiting ++ [(full, w)] })) (qpGroup q)

/-- A packet for a queue pair arrives on its port: dropped and counted while the transport is off or in a state that accepts nothing
(Table 7.5), or one that does not accept it; waiting while its context is not cached. -/
def packetIn (s : State) (i : Nat) (request : Bool) (w : WaitPkt) (run : State → State) : State :=
  match qpAt s i with
  | none => s
  | some q =>
    if !(netPortAt s q.lane).link then s
    else
      let s := frameIn s q.lane
      let takes := q.state == .rts || q.state == .sqd || (q.state == .rtr && request)
      if !(flag s .qpCtrl 0) || !takes || ingressDrops s q.lane (waitPrio s w) then dropOther s q.lane
      else if q.cached && q.waiting.isEmpty then settleHost (run (touchQp s i))
      else missPacket s i q w

/-! ## Accepting request packets (R207, R208, R213 to R215) -/

/-- A SEND packet is delivered in PSN order: its message grows, and is complete with its last packet. -/
def deliverPkt (q : Qp) (p : Pkt) : Qp :=
  let m := (if p.first then [] else q.partialMsg) ++ p.payload
  if p.last then { q with partialMsg := [], delivered := q.delivered ++ [m] } else { q with partialMsg := m }

/-- ePSN advances over a contiguous run of accepted PSNs, delivering held SEND data in order (R213). -/
def advanceRun : Nat → Qp → Qp
  | 0, q => q
  | n + 1, q =>
    if q.accepted.contains q.epsn then
      let q := match q.held.find? (fun p => p.psn == q.epsn) with
        | some p => deliverPkt { q with held := q.held.filter (fun h => h.psn != p.psn) } p
        | none => q
      advanceRun n { q with accepted := q.accepted.filter (· != q.epsn), epsn := psnAdd q.epsn 1 }
    else q

/-- A packet is accepted at a time: at ePSN the run advances and a remaining gap starts again; above it the gap starts (R214). -/
def acceptPsn (q : Qp) (p : Pkt) (isSend : Bool) (now : Nat) : Qp :=
  if p.psn = q.epsn then
    let q := if isSend then deliverPkt q p else q
    let q := advanceRun q.accepted.length { q with epsn := psnAdd q.epsn 1, nakSent := false }
    { q with gapFrom := if q.accepted.isEmpty then none else some now }
  else
    { q with accepted := p.psn :: q.accepted, held := if isSend then p :: q.held else q.held, gapFrom := some ((q.gapFrom).getD now) }

/-- The NAK of a gap: a sequence-error NAK carrying ePSN; held packets are released and the PSNs above ePSN forgotten (R214). -/
def gapNak (s : State) (i : Nat) : State :=
  match qpAt s i with
  | none => s
  | some q =>
    if q.nakSent || q.gapFrom.isNone then s
    else sendSeqNak (setQp s i (fun q => { q with held := [], accepted := [], gapFrom := none, nakSent := true })) i q.epsn

/-- Resequencer units of a packet, and all that are held (R215). -/
def reseqUnits (p : Pkt) : Nat := (p.payload.length + 255) / 256 + 1
def reseqUsed (s : State) : Nat := (s.rdma.qps.map (fun e => (e.2.held.map reseqUnits).sum)).sum

/-- A request packet is accepted: counts, RTR to RTS, the run and its acknowledgement (R205, R208). -/
def acceptReq (s : State) (i : Nat) (q : Qp) (p : Pkt) (isSend : Bool) : State :=
  let above := decide (p.psn ≠ q.epsn)
  let s := qpCount s q 0
  let s := if p.ce then qpCount s q 8 else s
  let s := if above && isSend then qpCount s q 7 else s
  let s := if q.state == .rtr then enterRts s i else s
  let s := setQp s i (fun q =>
    let q := acceptPsn q p isSend (nowOf s)
    { q with sinceAck := q.sinceAck + 1, oldestUnacked := some ((q.oldestUnacked).getD (nowOf s)) })
  let s := match qpAt s i with
    | some q => if p.ackReq || decide (fld s .qpAckCfg 23 16 ≤ q.sinceAck) then sendAck s i else s
    | none => s
  let s := match qpAt s i with
    | some q => if decide (64 ≤ q.accepted.length) then gapNak s i else s
    | none => s
  checkRevokes s

/-- Where the PSN of a request packet stands: to be taken, or answered or dropped here (R207, R213). -/
def psnGate (s : State) (i : Nat) (q : Qp) (psn : Nat) : Option State :=
  if !(psnGe psn q.epsn) then
    let s := qpCount s q 1
    let due := match q.dupAckAt with
      | some t => decide (t + fld s .qpAckCfg 15 0 ≤ nowOf s)
      | none => true
    if !q.sprayed then some (sendAck s i)
    else if due then some (sendAck (setQp s i (fun q => { q with dupAckAt := some (nowOf s) })) i)
    else some s
  else if psn = q.epsn then none
  else if !q.sprayed then
    if q.nakSent then some s
    else some (sendSeqNak (setQp s i (fun q => { q with nakSent := true })) i q.epsn)
  else if decide (256 ≤ psnDiff psn q.epsn) then some (dropOther s q.lane)
  else if q.accepted.contains psn then some (qpCount s q 1)
  else none

/-- A SEND packet (R207, R213, R215). Above ePSN it is held, within the pin limit and the pool. -/
def sendPkt (s : State) (i : Nat) (p : Pkt) : State :=
  match qpAt s i with
  | none => s
  | some q =>
    match psnGate s i q p.psn with
    | some s => s
    | none =>
      if p.psn = q.epsn then acceptReq s i q p true
      else if !(qpPinned q) && decide (4096 ≤ pinnedCount s) then count (setBit s .qpEvent 1) 0x482
      else if decide (65536 < reseqUsed s + reseqUnits p) then count (setBit s .qpEvent 2) 0x481
      else acceptReq s i q p true

/-- The region that a WRITE packet may be placed into (R219, R223). -/
def writeRegion (s : State) (q : Qp) (p : Pkt) : Option Nat :=
  let idx := p.rkey % 2 ^ 14
  let r := regionAt s idx
  let fence := match q.fences.find? (fun f => f.1 == idx) with
    | some f => psnGe f.2 p.psn
    | none => false
  let live := r.state == .active || (r.state == .revoking && fence)
  if p.rkey != 0 && live && regionKey idx r == p.rkey && r.conn == q.conn && decide (r.base ≤ p.va ∧ p.va + p.payload.length ≤ r.base + r.length)
  then some idx else none

/-- An error NAK is sent and the queue pair enters Error (R219, R224). -/
def nakError (s : State) (i psn code : Nat) : State :=
  match qpAt s i with
  | none => s
  | some q => qpError (netSend s q.lane 1 (.nak i (pathSport i q 0) psn code)) i

/-- Whether a packet's new pages cannot be had (R220). -/
def pageFault (s : State) (q : Qp) (need : Nat) : Bool :=
  need != 0 && (decide (windowPages s < pagesUsed s + need) || decide (fld s .qpRegionCfg 15 0 < pagesOf s q.conn + need))

/-- A page fault is answered by the region's policy once the packet's PSN equals ePSN (R221, Table 7.9). -/
def answerFault (s : State) (i : Nat) (q : Qp) (p : Pkt) (r : Region) : State :=
  let s := count (setBit s .qpEvent 3) 0x483
  if p.psn ≠ q.epsn then s
  else if r.resend then sendSeqNak s i p.psn
  else qpCount (netSend s q.lane 1 (.rnrNak i (pathSport i q 0) p.psn r.rnrCode)) q 5

/-- A write of `len` bytes at `off` of a region that running commands name: of each 256-byte cell of a unit that has not entered the fabric yet, the
bytes before it or after it are written, freely, and the block passes the edge with what is taken (R37). -/
def raceWindow (s : State) (idx off len : Nat) : State :=
  let r := regionAt s idx
  forAll r.naming (fun s slot =>
    match cmdAt s slot with
    | none => s
    | some k =>
      if k.status.isSome || k.e.dataMode != 3 || k.e.rkey % 2 ^ 14 != idx then s
      else
        forAll k.units (fun s w =>
          match unitAt s k.pool w, volAt s k.e.volumeId with
          | some u, some v =>
            if u.stage != .waitPlace && u.stage != .waitLock then s
            else
              forAll (List.range u.count) (fun s j =>
                let n := u.start + j
                let b0 := k.e.addr - r.base + 4096 * (n - k.e.start)
                match (u.data[j]?).join with
                | none => s
                | some x =>
                  if off + len ≤ b0 ∨ b0 + 4096 ≤ off ∨ (unitAt s k.pool w).map (·.stage) ≠ some u.stage then s
                  else
                    let (d, s) := drawNat s
                    let old := decryptBlock s v k.e.volumeId u.keyGen n x.blk.data
                    let plain := (List.range 16).flatMap (fun i =>
                      let c := b0 + 256 * i
                      if d.testBit i && decide (off < c + 256 ∧ c < off + len) then sparseRead r.data c 256 else sub (old.getD []) (256 * i) 256)
                    let g := regionAt s (k.e.guardKey % 2 ^ 14)
                    let guard := if k.e.integrity then
                        some (BitVec.ofNat 64 (leNat (sparseRead g.data (k.e.guardAddr - g.base + 8 * (n - k.e.start)) 8)))
                      else none
                    let y := edgeBlock s k.e.volumeId u.keyGen n plain guard
                    takeBlocks s k.pool w [(j, { y with keyOk := y.keyOk && old.isSome })]) s
          | _, _ => s) s) s

/-- An RDMA WRITE packet: checked against its region, backed by pages, placed, and accepted (R219 to R221). -/
def writePkt (s : State) (i : Nat) (p : Pkt) : State :=
  match qpAt s i with
  | none => s
  | some q =>
    match psnGate s i q p.psn with
    | some s => s
    | none =>
      match writeRegion s q p with
      | none => nakError s i p.psn 2
      | some idx =>
        let r := regionAt s idx
        let off := p.va - r.base
        let need := pagesNeeded r off p.payload.length
        if pageFault s q need.length then answerFault s i q p r
        else
          let s := setRegion s idx (fun r => { r with pages := r.pages ++ need, data := sparseWrite r.data off p.payload })
          let s := raceWindow s idx off p.payload.length
          acceptReq s i q p false

/-- A READ Request, WRITE with Immediate, SEND with Invalidate or atomic draws an Invalid Request NAK (R202, Table 7.4). -/
def invalidPkt (s : State) (i psn : Nat) : State :=
  match qpAt s i with
  | none => s
  | some q =>
    match psnGate s i q psn with
    | some s => s
    | none => nakError s i psn 1

/-! ## The requester (R209, R214, R216) -/

/-- Something of a queue pair is not acknowledged. -/
def outstanding (q : Qp) : Bool := !q.unacked.isEmpty || !q.reads.isEmpty

/-- The requester made progress: retry counts and the timer start again. -/
def progress (s : State) (i : Nat) : State :=
  setQp s i (fun q => { q with retryLeft := q.retryCount, rnrLeft := q.rnrCount, timerFrom := if outstanding q then some (nowOf s) else none })

/-- A received cumulative ACK (R209): acknowledged data is released and samples are taken. -/
def ackPkt (s : State) (i psn : Nat) : State :=
  match qpAt s i with
  | none => s
  | some q =>
    let left := q.unacked.filter (fun m => !(psnGe psn (psnAdd m.psn (m.packets - 1))))
    let s := setQp s i (fun q => { q with unacked := left })
    let s := if left.length = q.unacked.length then s else progress s i
    let samples := q.paths.filterMap (fun e => e.2.sampleFrom.bind (fun x =>
      if psnGe psn x.1 && !(q.reads.any (fun r => r.psn == x.1)) then some (e.1, nowOf s - x.2) else none))
    sqdSettle (forAll samples (fun s x => rttSample s i x.1 x.2) s) i

/-- First missing response of a READ, and responses above it. -/
def firstMissing (r : ReadReq) : Nat := ((List.range r.packets).find? (fun j => !(r.got.contains (psnAdd r.psn j)))).getD r.packets
def gotAbove (r : ReadReq) : Nat := (r.got.filter (fun p => decide (firstMissing r < psnDiff p r.psn))).length

/-- What a queue pair has to send again from a PSN, in PSN order: messages from the packet that holds it, READ Requests from their first missing response
(R209). -/
def resendFrom (q : Qp) (psn : Nat) : List TxMsg :=
  let msgs := q.unacked.filterMap (fun m =>
    if !(psnGe (psnAdd m.psn (m.packets - 1)) psn) then none
    else
      let d := if psnGe m.psn psn then 0 else psnDiff psn m.psn
      some { m with psn := psnAdd m.psn d, packets := m.packets - d, bytes := m.bytes.drop (d * q.mtu)
                    kind := match m.kind with
                      | .rdmaWrite k a => .rdmaWrite k (a + d * q.mtu)
                      | k => k })
  let reads := q.reads.filterMap (fun r =>
    let j := firstMissing r
    if !(psnGe (psnAdd r.psn (r.packets - 1)) psn) then none
    else some { psn := psnAdd r.psn j, packets := r.packets - j, kind := .readReq r.rkey (r.addr + j * q.mtu) (r.bytes - j * q.mtu), bytes := [] })
  sortBy (fun a b => decide (psnDiff a.psn psn ≤ psnDiff b.psn psn)) (msgs ++ reads)

/-- The device resends from a PSN, with the bytes it sent first (R209). -/
def retransmit (s : State) (i psn : Nat) : State :=
  match qpAt s i with
  | none => s
  | some q =>
    let s := setQp s i (fun q => { q with timerFrom := some (nowOf s) })
    qpCount (netSend s q.lane 1 (.retransmit i psn (resendFrom q psn))) q 4

/-- A retransmission that counts against the Retry Count; an exhausted count puts the queue pair into Error (R209). -/
def retry (s : State) (i psn : Nat) : State :=
  match qpAt s i with
  | none => s
  | some q =>
    if q.retryLeft = 0 then qpError s i
    else retransmit (setQp s i (fun q => { q with retryLeft := q.retryLeft - 1 })) i psn

/-- First unacknowledged PSN of a queue pair. -/
def firstUnacked (q : Qp) : Option Nat :=
  let starts := q.unacked.map (·.psn) ++ q.reads.map (·.psn)
  starts.foldl (fun (m : Option Nat) p =>
    match m with
    | none => some p
    | some x => if psnGe p x then some x else some p) none

/-- Whether a PSN lies among those sent and not acknowledged. -/
def sentPsn (q : Qp) (psn : Nat) : Bool :=
  match firstUnacked q with
  | some f => psnGe psn f && !(psnGe psn q.nextPsn)
  | none => false

/-- A received sequence-error NAK: it acknowledges what lies before its PSN, and the device resends from there (R209). -/
def seqNakPkt (s : State) (i psn : Nat) : State :=
  match qpAt s i with
  | none => s
  | some q =>
    let s := qpCount s q 3
    if sentPsn q psn then retry (ackPkt s i (psnAdd psn (2 ^ 24 - 1))) i psn else s

/-- A received RNR NAK: the device waits its timer, against the RNR Retry Count, where 7 means unlimited (R209). -/
def rnrPkt (s : State) (i psn ns : Nat) : State :=
  match qpAt s i with
  | none => s
  | some q =>
    let s := qpCount s q 3
    if !(sentPsn q psn) then s
    else if q.rnrCount != 7 && q.rnrLeft == 0 then qpError s i
    else setQp s i (fun q =>
      { q with rnrLeft := if q.rnrCount = 7 then q.rnrLeft else q.rnrLeft - 1, rnrUntil := some (nowOf s + ns, psn), timerFrom := none })

/-- A received Invalid Request, Remote Access Error or Remote Operational Error NAK (R224). -/
def errNakPkt (s : State) (i code : Nat) : State :=
  match qpAt s i with
  | none => s
  | some q =>
    let s := qpCount s q 3
    if code = 1 ∨ code = 2 ∨ code = 3 then qpError s i else s

def setRead' (s : State) (i psn : Nat) (f : ReadReq → ReadReq) : State :=
  setQp s i (fun q => { q with reads := q.reads.map (fun r => if r.psn = psn then f r else r) })

/-- A READ is re-issued from its first missing PSN; the responses above it stay recorded (R214). -/
def reissueRead (s : State) (i psn : Nat) : State :=
  match qpAt s i with
  | none => s
  | some q =>
    match q.reads.find? (fun r => r.psn == psn) with
    | none => s
    | some r =>
      if r.reissued || r.gapFrom.isNone then s
      else
        let j := firstMissing r
        let s := setRead' s i psn (fun r => { r with gapFrom := none, reissued := true })
        let path := nextPath q
        let s := setQp s i (fun q => rotate q path)
        let s := netSend s q.lane 1 (.readRequest i (pathSport i q path) (psnAdd r.psn j) r.rkey (r.addr + j * q.mtu) (r.bytes - j * q.mtu))
        qpCount s q 10

/-- A READ Response: placed at most once per PSN of its request (R209, R213). A block whose guard fails fails its unit (R38). -/
def readRespPkt (s : State) (i : Nat) (p : Pkt) : State :=
  match qpAt s i with
  | none => s
  | some q =>
    match q.reads.find? (fun r => decide (psnDiff p.psn r.psn < r.packets)) with
    | none => qpCount s q 1
    | some r =>
      if r.got.contains p.psn then qpCount s q 1
      else
        let s := qpCount s q 0
        let s := if p.ce then qpCount s q 8 else s
        let s := if r.got.isEmpty then
            forAll (q.paths.filterMap (fun e => e.2.sampleFrom.bind (fun x => if x.1 = r.psn then some (e.1, nowOf s - x.2) else none)))
              (fun s x => rttSample s i x.1 x.2) s
          else s
        let old := firstMissing r
        let r' := { r with got := p.psn :: r.got }
        let moved := decide (firstMissing r' ≠ old)
        let gap := if gotAbove r' = 0 then none else if moved then some (nowOf s) else some ((r.gapFrom).getD (nowOf s))
        let r' := { r' with gapFrom := gap, reissued := if moved then false else r.reissued }
        let done := decide (r'.got.length = r'.packets)
        let s := setQp s i (fun q =>
          { q with reads := if done then q.reads.filter (fun x => x.psn != r.psn) else q.reads.map (fun x => if x.psn = r.psn then r' else x) })
        -- a response acknowledges the messages sent before its request
        let s := setQp s i (fun q => { q with unacked := q.unacked.filter (fun m => psnGe m.psn r.psn) })
        let s := progress s i
        let s := arriveBytes s r.pool r.wseq (r.firstByte + psnDiff p.psn r.psn * q.mtu) p.payload
        let s := if decide (64 ≤ gotAbove r') then reissueRead s i r.psn else s
        sqdSettle s i

/-! ## Rows of packets -/

/-- SEND_PACKET. -/
def execSendPacket (p : Pkt) (s : State) : Res := .next (packetIn s p.qp true (.send p) (fun s => sendPkt s p.qp p))

/-- RDMA_WRITE_PACKET. -/
def execRdmaWritePacket (p : Pkt) (s : State) : Res := .next (packetIn s p.qp true (.write p) (fun s => writePkt s p.qp p))

/-- READ_RESPONSE_PACKET. -/
def execReadResponsePacket (p : Pkt) (s : State) : Res := .next (packetIn s p.qp false (.readResp p) (fun s => readRespPkt s p.qp p))

/-- ACK_PACKET. -/
def execAckPacket (qp psn : Nat) (s : State) : Res := .next (packetIn s qp false (.ack psn) (fun s => ackPkt s qp psn))

/-- SEQUENCE_ERROR_NAK. -/
def execSequenceErrorNak (qp psn : Nat) (s : State) : Res := .next (packetIn s qp false (.seqNak psn) (fun s => seqNakPkt s qp psn))

/-- RNR_NAK. -/
def execRnrNak (qp psn timerNs : Nat) (s : State) : Res :=
  .next (packetIn s qp false (.rnrNak psn timerNs) (fun s => rnrPkt s qp psn timerNs))

/-- ERROR_NAK. -/
def execErrorNak (qp code : Nat) (s : State) : Res := .next (packetIn s qp false (.errNak code) (fun s => errNakPkt s qp code))

/-- INVALID_REQUEST. -/
def execInvalidRequest (qp psn : Nat) (s : State) : Res := .next (packetIn s qp true (.invalid psn) (fun s => invalidPkt s qp psn))

/-- A waiting packet proceeds. -/
def runWait (s : State) (i : Nat) (w : WaitPkt) : State :=
  match qpAt s i with
  | none => s
  | some q =>
    if q.state == .error || q.state == .reset then dropOther s q.lane
    else
      match w with
      | .send p => sendPkt s i p
      | .write p => writePkt s i p
      | .readResp p => readRespPkt s i p
      | .ack n => ackPkt s i n
      | .seqNak n => seqNakPkt s i n
      | .rnrNak n t => rnrPkt s i n t
      | .errNak c => errNakPkt s i c
      | .invalid n => invalidPkt s i n

/-- CONTEXT_FETCH_DONE: the context enters the cache and its packets proceed in order; an uncorrectable error in it sets CTX_ECC and puts the
queue pair into Error (R206, R224). -/
def execContextFetchDone (qp : Nat) (ok : Bool) (s : State) : Res :=
  .next <| settleHost <|
    match qpAt s qp with
    | none => s
    | some q =>
      if !(s.rdma.fetches.contains qp) then s
      else if !ok then startFetches (qpError (setBit s .qpEvent 5) qp) (qpGroup q)
      else
        let s := { s with rdma := { s.rdma with fetches := s.rdma.fetches.filter (· != qp) } }
        let s := setQp (cacheQp s qp) qp (fun q => { q with waiting := [] })
        let s := forAll q.waiting (fun s w =>
          let s := if w.1 then ingressSub s q.lane (waitPrio s w.2) (waitBytes w.2) else s
          runWait s qp w.2) s
        startFetches s (qpGroup q)

/-! ## Rows of timers -/

/-- ACK_COALESCE_TIMER (R208). -/
def execAckCoalesceTimer (qp : Nat) (s : State) : Res :=
  .next <|
    match (qpAt s qp).bind (·.oldestUnacked) with
    | some t => sendAck (reach s (t + fld s .qpAckCfg 15 0)) qp
    | none => s

/-- The rate is halved on a retransmission timeout (R216). -/
def halveRate (s : State) (i : Nat) (q : Qp) : State :=
  if !(flag s .qpCtrl 2) then s
  else
    let minR : Rat := (fld s .qpCcCfg 15 0 : Nat)
    let half := q.rate / 2
    qpCount (setQp s i (fun q => { q with rate := if half < minR then minR else half })) q 9

/-- RETRANSMISSION_TIMEOUT: the timer of 4.096 µs × 2^TIMEOUT_EXP has run out (R209). -/
def execRetransmissionTimeout (qp : Nat) (s : State) : Res :=
  .next <| settleHost <|
    match qpAt s qp with
    | none => s
    | some q =>
      match q.timerFrom, firstUnacked q with
      | some t, some psn =>
        if q.state != .rts && q.state != .sqd then s
        else
          let s := reach s (t + 4096 * 2 ^ fld s .qpAckCfg 31 27)
          retry (halveRate s qp q) qp psn
      | _, _ => s

/-- RNR_TIMER: the wait is over and the refused request is resent (R209). -/
def execRnrTimer (qp : Nat) (s : State) : Res :=
  .next <|
    match (qpAt s qp).bind (·.rnrUntil) with
    | some (t, psn) => retransmit (setQp (reach s t) qp (fun q => { q with rnrUntil := none })) qp psn
    | none => s

/-- RESEQUENCE_GAP_TIMEOUT: 20 µs after a gap started (R214). -/
def execResequenceGapTimeout (qp : Nat) (s : State) : Res :=
  .next <|
    match (qpAt s qp).bind (fun q => if q.nakSent then none else q.gapFrom) with
    | some t => gapNak (reach s (t + 20000)) qp
    | none => s

/-- READ_RESPONSE_GAP_TIMEOUT: the first READ whose gap is open is re-issued 20 µs after the gap started (R214). -/
def execReadResponseGapTimeout (qp : Nat) (s : State) : Res :=
  .next <|
    match (qpAt s qp).bind (fun q => q.reads.find? (fun r => r.gapFrom.isSome && !r.reissued)) with
    | some r => reissueRead (reach s ((r.gapFrom).getD 0 + 20000)) qp r.psn
    | none => s

/-- PATH_PROBE: a skipped path receives one AckReq packet per 100 µs (R217). -/
def execPathProbe (qp path : Nat) (s : State) : Res :=
  .next <|
    match qpAt s qp with
    | none => s
    | some q =>
      let p := (tget q.paths path).getD {}
      let all := (List.range q.txPaths).all (fun j => ((tget q.paths j).map (·.congested)).getD false)
      if q.state != .rts || !q.sprayed || !p.congested || all then s
      else
        let s := reach s (p.probeAt + 100000)
        let s := setQp s qp (fun q => { q with paths := tput q.paths path { p with probeAt := nowOf s, sampleFrom := some (q.nextPsn, nowOf s) } })
        netSend s q.lane 1 (.probe qp path)

/-- BASE_WINDOW_ROLL: a 1 s window ends; the current minimum becomes the previous one (R216). -/
def execBaseWindowRoll (qp : Nat) (s : State) : Res :=
  .next (setQp s qp (fun q => { q with paths := tmap q.paths (fun _ p => { p with prevMin := p.curMin, curMin := none }) }))

/-- QP_REVOKE. -/
def execQpRevoke (rkey : Nat) (s : State) : Res := .next (revokeStart s rkey)

/-- REVOKE_TIMEOUT: a revoke that has not finished puts its unfinished queue pairs into Error and finishes (R223). -/
def execRevokeTimeout (region : Nat) (s : State) : Res :=
  .next <| settleHost <|
    let r := regionAt s region
    if r.state != .revoking then s
    else
      let s := reach s (r.revokeFrom + fld s .qpRegionCfg 31 16 * 1000000)
      let s := forAll (unfinishedQps s region) qpError s
      let s := if (regionAt s region).state == .revoking then finishRevoke s region else s
      let s := if r.byFirmware then { s with rdma := { s.rdma with revokeTimedOut := true } } else s
      count (setBit s .qpEvent 4) 0x485

/-! ## Rows of CM messages on an existing queue pair (R205) -/

/-- CM_RTU. -/
def execCmRtu (qp : Nat) (s : State) : Res :=
  .next <|
    match qpAt s qp with
    | some q => if q.state == .rtr then enterRts s qp else s
    | none => s

/-- CM_REJ: the host refuses the REP, and the queue pair in RTR is given up (R204). -/
def execCmRej (qp : Nat) (s : State) : Res :=
  .next <| settleHost <|
    match qpAt s qp with
    | some q => if q.state == .rtr then toReset s qp else s
    | none => s

/-- CM_DREQ: the queue pair goes to SQD and its queue is lost; with nothing outstanding, DREP is sent at once (R205, R251). -/
def execCmDreq (qp : Nat) (s : State) : Res :=
  .next <| settleHost <|
    match qpAt s qp with
    | some q =>
      if q.state == .rts || q.state == .rtr then sqdSettle (enterSqd s qp true) qp
      else if q.state == .sqd then sqdSettle (setQp s qp (fun q => { q with dreq := true })) qp
      else s
    | none => s

/-- CM_DREP: a queue pair in Error returns to Reset, one in SQD once nothing is outstanding (R205). -/
def execCmDrep (qp : Nat) (s : State) : Res :=
  .next <| settleHost <|
    match qpAt s qp with
    | some q =>
      if q.state == .error then toReset s qp
      else if q.state == .sqd then sqdSettle (setQp s qp (fun q => { q with drep := true })) qp
      else s
    | none => s

/-- SQD_TIMEOUT: 100 ms after entry a queue pair leaves SQD for Reset (R205). -/
def execSqdTimeout (qp : Nat) (s : State) : Res :=
  .next <| settleHost <|
    match qpAt s qp with
    | some q =>
      if q.state == .sqd then
        let s := reach s (q.enteredAt + 100000000)
        toReset (if q.dreq then netSend s q.lane 1 (.cmDrep qp) else s) qp
      else s
    | none => s

/-- ERROR_STATE_TIMEOUT: 10 s after entry a queue pair leaves Error for Reset (R205). -/
def execErrorStateTimeout (qp : Nat) (s : State) : Res :=
  .next <| settleHost <|
    match qpAt s qp with
    | some q => if q.state == .error then toReset (reach s (q.enteredAt + 10000000000)) qp else s
    | none => s

end Sys2Proof.Machine
end

