-- ==== Sys2Proof/Machine/Connect.lean ====
section
/-! DEFINITION. CM_REQ (R204, R211, R225, R227 to R232, R257, R258, R264, R265) and BAD_FRAME (R74, R198). -/

namespace Sys2Proof.Machine

/-! ## Authentication requirement (R257) -/

/-- The authentication record of a host. -/
def hostSec (s : State) (host : BitVec 128) : Option HostSec := s.ctl.hosts.find? (fun h => h.hostId == host)

/-- A host must authenticate. -/
def authRequired (s : State) (host : BitVec 128) : Bool := ((hostSec s host).map (·.require)).getD false

/-- A connection that must authenticate and has not. -/
def authPending (s : State) (k : Conn) : Bool := authRequired s k.hostId && !k.authed

/-- Shelf firmware has given a host access: some volume is open to it (R230). -/
def hostHasAccess (s : State) (host : BitVec 128) : Bool := s.volumes.any (fun e => e.2.hosts.contains host)

/-! ## Versions and limits (R229, R230, Table 8.3) -/

/-- The versions that exist, highest first. -/
def mspVersions : List Nat := [0x33, 0x32, 0x31, 0x30, 0x20, 0x10]

/-- The version of a new connection: the highest the host accepts and MSP_MAX_VERSION allows. -/
def chooseVersion (s : State) (lo hi : Nat) : Option Nat :=
  mspVersions.find? (fun v => decide (lo ≤ v ∧ v ≤ hi ∧ v ≤ fld s .hqCtrl 15 8))

/-- Queues of a connection and entries of an I/O queue, by version: 16 and 1,024 before MSP 3.0. -/
def queueLimit (s : State) (version : Nat) : Nat := if version < 0x30 then min 16 (fld s .hqLimitCfg 22 16) else fld s .hqLimitCfg 22 16
def entryLimit (s : State) (version : Nat) : Nat := if version < 0x30 then min 1024 (fld s .hqLimitCfg 12 0) else fld s .hqLimitCfg 12 0

/-- Bytes that a queue takes in the host-queue area, and all bytes taken (R231). -/
def queueBytes (entries icd : Nat) : Nat := entries * (64 + icd * 4120)
def areaUsed (s : State) : Nat := (s.hq.conns.map (fun e => (e.2.queues.map (fun u => queueBytes u.2.entries u.2.icd)).sum)).sum

/-- Whether the area has room for a queue. -/
def areaRoom (s : State) (entries icd : Nat) : Bool :=
  decide (areaUsed s + queueBytes entries icd ≤ fld s .hqAreaSize 8 0 * 2 ^ 30)

/-! ## REQ private data -/

/-- A spray offer of 16 bytes (Table 7.6); zeros are none. -/
def parseSpray (b : Bytes) : Option SprayOffer :=
  if b.all (· == 0) then none
  else some { version := fieldAt b 0 1, request := fieldAt b 1 1 % 2 == 1, txPaths := fieldAt b 2 1, rxPaths := fieldAt b 3 1, sportBase := fieldAt b 4 2 }

/-- The MSP connect request in bytes 36 to 91 of the REQ private data (R228, Table 8.1). -/
def parseMsp (priv : Bytes) : MspPriv :=
  let b := sub priv 36 56
  { magic := fieldAt b 0 2, minVersion := fieldAt b 2 1, maxVersion := fieldAt b 3 1, queueId := fieldAt b 4 2, queueEntries := fieldAt b 6 2, icdBlocks := fieldAt b 8 1
    reconnect := fieldAt b 9 1 % 2 == 1, connectionId := fieldAt b 12 4, hostId := BitVec.ofNat 128 (fieldAt b 16 16), spray := parseSpray (sub b 32 16) }

/-- The NVMe-oF request in the same place: RECFMT, QID, HRQSIZE, HSQSIZE, CNTLID (R258; layout of the NVMe RDMA transport, log entry 12). -/
def parseNvmf (priv : Bytes) : NvmfPriv :=
  let b := sub priv 36 32
  { recfmt := fieldAt b 0 2, qid := fieldAt b 2 2, hsqsize := fieldAt b 6 2, cntlid := fieldAt b 8 2 }

/-! ## Answers -/

/-- REJ for a service the device does not offer, and for want of a queue pair (IBA reason codes 8 and 1). -/
def rejService (s : State) (r : CmReq) : State := netSend s r.lane 1 (.cmRej r.gid 8 0 0)
def rejNoQp (s : State) (r : CmReq) : State := netSend s r.lane 1 (.cmRej r.gid 1 0 0)

/-- REJ reason 28 with a code of R230 and the device's highest version. -/
def refuse (s : State) (r : CmReq) (code : Nat) : State := netSend s r.lane 1 (.cmRej r.gid 28 code (fld s .hqCtrl 15 8))

/-- The spray answer (R211, Table 7.6): accepted or not, paths the device sends and receives over. -/
def sprayAnswer (s : State) (version : Nat) (o : Option SprayOffer) : Option (Bool × Nat × Nat) :=
  if version < 0x30 then none
  else
    o.map (fun o => (flag s .qpCtrl 1 && o.version == 1 && o.request, min o.rxPaths (fld s .qpCtrl 11 8), min o.txPaths (fld s .qpCtrl 11 8)))

/-- The spray answer's 16 bytes. -/
def sprayBytes (a : Option (Bool × Nat × Nat)) : Bytes :=
  match a with
  | none => zeros 16
  | some (ok, tx, rx) =>
    pack 16 [(0, 1, 1), (1, 1, if ok then 1 else 0), (2, 1, tx), (3, 1, rx), (4, 2, deviceSportBase), (6, 2, 256), (8, 2, 64), (10, 2, 20)]

/-- A queue pair is created for a queue and the REP sent: Init, then RTR (Table 7.5). Its traffic is carried on one fabric port of its Ethernet port, by queue-pair
number modulo the port's lanes (R177, R197). -/
def acceptQp (s : State) (r : CmReq) (c q : Nat) (spray : Option (Bool × Nat × Nat)) (u : Queue) (rep : Bytes) : State :=
  match freeKey s.rdma.qps 0 65536 with
  | none => rejNoQp s r
  | some i =>
    let (d, s) := drawNat s
    let on := (spray.map (·.1)).getD false
    let port := portOfLane s r.lane
    let lane := port + (0x10000 + i) % max 1 (portWidth s port)
    let x : Qp :=
      { state := .rtr, conn := c, queue := q, lane := lane, gid := r.gid, remoteQpn := r.remoteQpn, mtu := r.mtu, sprayed := on
        txPaths := if on then (spray.map (·.2.1)).getD 1 else 1, rxPaths := if on then (spray.map (·.2.2)).getD 1 else 1
        epsn := r.startPsn % 2 ^ 24, nextPsn := d % 2 ^ 24, maxReads := min 16 r.reads, retryCount := r.retryCount, retryLeft := r.retryCount
        rnrCount := r.rnrRetry, rnrLeft := r.rnrRetry, rate := (fld s .qpCcCfg 31 16 : Nat), enteredAt := nowOf s }
    let s := cacheQp { s with rdma := { s.rdma with qps := tput s.rdma.qps i x } } i
    let s := setConn s c (fun k => { k with queues := tput k.queues q { u with qp := i }, repAt := if q = 0 then nowOf s else k.repAt })
    netSend s lane 1 (.cmRep (0x10000 + i) rep)

/-- Connections that exist; a free slot. -/
def freeConn (s : State) : Option Nat := if 1024 ≤ s.hq.conns.length then none else freeKey s.hq.conns 0 1024

/-- An unused CONNECTION_ID from 1 to 0xFFFF_FFFE at or after a free draw (R227). -/
def freshConnId (s : State) : Nat × State :=
  let (d, s) := drawNat s
  let used (n : Nat) : Bool := s.hq.conns.any (fun e => e.2.id == n)
  ((((List.range (s.hq.conns.length + 1)).map (fun i => 1 + (d + i) % 0xFFFFFFFE)).find? (fun n => !(used n))).getD 1, s)

/-- The MSP connect response (Table 8.2). -/
def connectResponse (s : State) (k : Conn) (q entries icd : Nat) (reconnected : Bool) (spray : Option (Bool × Nat × Nat)) : Bytes :=
  let flags := (if authRequired s k.hostId then 1 else 0) + (if reconnected then 2 else 0) + (if 0 < unread k then 4 else 0)
  overlay (overlay (pack 64 [(0, 2, 0x4D53), (2, 1, k.version), (3, 1, esLevel s), (4, 2, q), (6, 2, entries), (8, 1, icd), (9, 1, flags),
    (10, 1, queueLimit s k.version), (12, 4, k.id), (16, 8, Config.uidLo.toNat), (24, 8, Config.uidHi.toNat), (48, 4, 16384)])
    32 (sprayBytes spray)) 52 (zeros 12)

/-- A queue granted to a connection: its queue pair, its REP. -/
def grantQueue (s : State) (r : CmReq) (m : MspPriv) (c : Nat) (k : Conn) (reconnected : Bool) : State :=
  let q := m.queueId
  let entries := min m.queueEntries (if q = 0 then 256 else entryLimit s k.version)
  let icd := if q = 0 then 0 else min m.icdBlocks (fld s .hqLimitCfg 15 13)
  if !(areaRoom s entries icd) then refuse s r 4
  else if (freeKey s.rdma.qps 0 65536).isNone then rejNoQp s r
  else
    let spray := sprayAnswer s k.version m.spray
    let s := if thas s.hq.conns c then s else { s with hq := { s.hq with conns := tput s.hq.conns c k } }
    let s := if reconnected then setConn s c (fun k => { k with authed := false, authFails := 0, authTranscript := [] }) else s
    acceptQp s r c q spray { qp := 0, entries := entries, icd := icd } (connectResponse s k q entries icd reconnected spray)

/-- The connection slot that a CONNECTION_ID names. -/
def connOfId (s : State) (id : Nat) : Option (Nat × Conn) := s.hq.conns.find? (fun e => e.2.id == id && !e.2.nvme)

/-- A reattachment replaces an admin queue whose queue pair is no longer live: its commands end, and its queue pair leaves the connection. -/
def dropAdmin (s : State) (c : Nat) : State :=
  let s := forAll ((queueCmds s c 0).map (·.1)) (fun s k => abortCmd s k 0x41) s
  let s := forAll (s.rdma.qps.filter (fun e => e.2.conn == c && e.2.queue == 0)) (fun s e => setQp s e.1 (fun q => { q with conn := 1024 })) s
  setConn s c (fun k => { k with queues := tdel k.queues 0, resetCid := none })

/-- An MSP connect request (R227 to R232, R257, R264, R265). -/
def mspConnect (s : State) (r : CmReq) (m : MspPriv) : State :=
  let fits (k : Conn) : Bool := decide (m.minVersion ≤ k.version ∧ k.version ≤ m.maxVersion)
  if m.magic ≠ 0x4D53 then refuse s r 1
  else if m.queueEntries < 16 then refuse s r 8
  else if m.queueId = 0 then
    if m.connectionId = 0 then
      match chooseVersion s m.minVersion m.maxVersion with
      | none => refuse s r 1
      | some v =>
        if !(hostHasAccess s m.hostId) then refuse s r 7
        else if authRequired s m.hostId && decide (v < 0x20) then refuse s r 5
        else
          match freeConn s with
          | none => rejNoQp s r
          | some c =>
            let (id, s) := freshConnId s
            grantQueue s r m c { id := id, hostId := m.hostId, version := v, lingerFrom := some (nowOf s) } false
    else
      match connOfId s m.connectionId with
      | none => refuse s r 2
      | some (c, k) =>
        if !m.reconnect || decide (k.version < 0x30) then refuse s r 2
        else if s.rdma.qps.any (fun e => e.2.conn == c && (e.2.state == .rts || e.2.state == .rtr)) then refuse s r 2
        else if k.hostId ≠ m.hostId then refuse s r 7
        else if !(fits k) then refuse s r 6
        else
          let s := dropAdmin s c
          grantQueue s r m c ((connAt s c).getD k) true
  else
    match connOfId s m.connectionId with
    | none => refuse s r 2
    | some (c, k) =>
      if k.hostId ≠ m.hostId || !(hostHasAccess s m.hostId) then refuse s r 7
      else if !(fits k) then refuse s r 6
      else if authPending s k then refuse s r 5
      else if decide (queueLimit s k.version ≤ m.queueId) || thas k.queues m.queueId then refuse s r 3
      else grantQueue s r m c k false

/-- An NVMe-oF connect (R258): RECFMT 0, HSQSIZE up to MAX_ENTRIES − 1, 31 for the admin queue. Codes of the NVMe RDMA transport (log
entry 12). -/
def nvmfConnectReq (s : State) (r : CmReq) (m : NvmfPriv) : State :=
  let rej (code : Nat) : State := netSend s r.lane 1 (.cmRej r.gid 28 code 0)
  let lim := if m.qid = 0 then 31 else fld s .hqLimitCfg 12 0 - 1
  let rep := pack 32 [(2, 2, m.hsqsize + 1)]
  let u : Queue := { qp := 0, entries := m.hsqsize + 1, icd := if m.qid = 0 then 0 else 4, connected := false }
  if m.recfmt ≠ 0 then rej 2
  else if fld s .hqLimitCfg 22 16 ≤ m.qid then rej 3
  else if lim < m.hsqsize then rej 4
  else if !(areaRoom s u.entries u.icd) then rej 6
  else if (freeKey s.rdma.qps 0 65536).isNone then rejNoQp s r
  else if m.qid = 0 then
    match freeConn s with
    | none => rejNoQp s r
    | some c =>
      let (id, s) := freshConnId s
      let s := { s with hq := { s.hq with conns := tput s.hq.conns c { id := id, hostId := 0, nvme := true, lingerFrom := some (nowOf s) } } }
      acceptQp s r c 0 none u rep
  else
    match connAt s m.cntlid with
    | some k =>
      if !k.nvme then rej 9
      else if authPending s k then rej 6
      else if thas k.queues m.qid then rej 3
      else acceptQp s r m.cntlid m.qid none u rep
    | none => rej 9

/-- A REQ is processed (R204). -/
def connectReq (s : State) (r : CmReq) : State :=
  let form := r.serviceId / 2 ^ 16 == 0x0106
  let port := r.serviceId % 2 ^ 16
  let on := flag s .hqCtrl 0
  if form && port == fld s .qpCtrl 63 48 && flag s .hqCtrl 1 && on then
    mspConnect s r (parseMsp r.priv)
  else if form && port == fld s .qpCtrl 47 32 && flag s .hqCtrl 2 && on then
    if r.priv.length < 68 then netSend s r.lane 1 (.cmRej r.gid 28 1 0) else nvmfConnectReq s r (parseNvmf r.priv)
  else rejService s r

/-- CM_REQ: during an activation window it is answered with MRA and processed after it; the service timeout of 4.096 µs × 2^19 is above 2 s (R225). -/
def execCmReq (r : CmReq) (s : State) : Res :=
  .next <|
    if !(netPortAt s r.lane).link then s
    else
      let s := frameIn s r.lane
      if !(flag s .qpCtrl 0) || ingressDrops s r.lane (rxPrio s r.mark) then dropOther s r.lane
      else if s.ctl.activation.isSome || s.hq.hold.active then
        netSend { s with rdma := { s.rdma with heldReqs := s.rdma.heldReqs ++ [r] } } r.lane 1 (.cmMra r.lane r.gid 19)
      else connectReq s r

/-- REQs held during an activation window are processed once neither the activation nor a hold is in force. -/
def runHeldReqs (s : State) : State :=
  if s.ctl.activation.isSome || s.hq.hold.active then s
  else forAll s.rdma.heldReqs connectReq { s with rdma := { s.rdma with heldReqs := [] } }

/-! ## Bad frames -/

/-- A frame of a unit's data is found bad after its head has cut through: the tail cell of the frame that the lane is sending will be poisoned, the reads of its
cells that drive ports hold complete poisoned, and the unit is driven again elsewhere, with the log record that holds it, or written again in place; its failure
counts (R72, R74, R75). -/
def poisonUnit (s : State) (lane pi w : Nat) : State :=
  match unitAt s pi w with
  | none => s
  | some u =>
    let s := count (setBit s .fabEvent 6) 0x1E2
    let s := { s with fab := { s.fab with inFrames := s.fab.inFrames.map (fun f => if f.input = lane then { f with bad := true } else f) } }
    if inPlace u.path then againInPlace s pi w else redrive s pi w

/-- BAD_FRAME: a frame with bad FCS, ICRC or length, or of no accepted kind, is dropped and counted (R198). -/
def execBadFrame (lane : Nat) (fault : FrameFault) (cutUnit : Option (Nat × Nat)) (s : State) : Res :=
  .next <|
    if !(netPortAt s lane).link then s
    else
      let s := frameIn s lane
      match fault with
      | .notAccepted => dropOther s lane
      | _ =>
        let s := count s (0x280 + lane)
        match cutUnit with
        | some (pi, w) => poisonUnit s lane pi w
        | none => s

end Sys2Proof.Machine
end

