-- ==== Sys2Proof/Machine/Host.lean ====
section
/-! DEFINITION. The rows of the host command protocol (R233 to R257): capsules, I/O commands, completions, admin commands, resets, holds. -/

namespace Sys2Proof.Machine

/-! ## Capsules (R233, R234, R236) -/

/-- The submission entry of Table 8.4; fields that MSP 1.0 lacks are ignored (R229). `reservedOk` tells whether reserved bits are zero. -/
def parseEntry (b : Bytes) (version : Nat) : SubEntry :=
  let f := fieldAt b 1 1
  let full := decide (0x20 ≤ version)
  { opcode := fieldAt b 0 1, ordered := full && f % 2 == 1, integrity := full && f / 2 % 2 == 1, dataMode := f / 4 % 4, cid := fieldAt b 2 2
    volumeId := fieldAt b 4 2 % 4096, start := fieldAt b 8 8 % 2 ^ 41, count := fieldAt b 16 4, rkey := fieldAt b 20 4, addr := fieldAt b 24 8
    length := fieldAt b 32 4, guardKey := fieldAt b 36 4, guardAddr := fieldAt b 40 8, param0 := fieldAt b 48 8, param1 := fieldAt b 56 8
    reservedOk := f / 16 == 0 && fieldAt b 4 2 / 4096 == 0 && fieldAt b 6 2 == 0 && fieldAt b 8 8 / 2 ^ 41 == 0 }

/-- An NVMe-oF submission entry in the common form (R258): keyed SGL data blocks are KEYED, in-capsule ones CAPSULE; `dataMode` 4 is any other
descriptor. Namespaces are VOLUME_ID + 1. Layouts of the NVMe specifications (log entry 12). -/
def parseNvme (b : Bytes) : SubEntry :=
  let op := fieldAt b 0 1
  let sgl := fieldAt b 39 1
  let nsid := fieldAt b 4 4
  let mode := if sgl / 16 = 4 then 2 else if sgl = 1 then 1 else if fieldAt b 24 16 = 0 then 0 else 4
  let len := if mode = 1 then fieldAt b 32 4 else fieldAt b 32 3
  { opcode := op, cid := fieldAt b 2 2, volumeId := if op = 0x7F then 0 else (nsid + 2 ^ 32 - 1) % 2 ^ 32, dataMode := mode
    start := fieldAt b 40 8, count := if op = 9 then fieldAt b 40 1 + 1 else fieldAt b 48 2 + 1, rkey := fieldAt b 35 4, addr := fieldAt b 24 8, length := len
    param0 := if op = 0x7F then fieldAt b 4 1 else fieldAt b 40 8, param1 := fieldAt b 48 8 }

/-- Blocks that a capsule carries (R233): for an MSP write in CAPSULE mode, or an in-capsule NVMe-oF data block at its offset. -/
def capsuleBlocks (nvme : Bool) (e : SubEntry) : Nat := if e.opcode = 1 ∧ e.dataMode = 1 then (if nvme then e.length / 4096 else e.count) else 0

/-- Length that the SEND must have (R233). -/
def capsuleLength (e : SubEntry) : Nat :=
  if e.opcode = 1 ∧ e.dataMode = 1 then 64 + e.count * 4096 + (if e.integrity then e.count * 8 else 0) else 64

/-- The stored form of a capsule's blocks: each passes the edge on arrival (R34, R234). -/
def capsuleIcd (s : State) (nvme : Bool) (e : SubEntry) (b : Bytes) (icd : Nat) : List EdgeBlk :=
  let n := min (capsuleBlocks nvme e) icd
  let gen := ((volAt s e.volumeId).map (·.keyGen)).getD 0
  let base := if nvme then 64 + e.addr else 64
  (List.range n).map (fun j =>
    let g : Option (BitVec 64) := if e.integrity then some (BitVec.ofNat 64 (fieldAt b (64 + e.count * 4096 + 8 * j) 8)) else none
    edgeBlock s e.volumeId gen (e.start + j) (sub b (base + 4096 * j) 4096) g)

/-- A capsule delivered in PSN order is stored in its ring, or refused with QUEUE_FULL or CID_CONFLICT (R236). A GET_ERROR_LOG marks the entries
below its FROM_SEQ as read as it arrives (R249). -/
def storeCapsule (s : State) (c q : Nat) (b : Bytes) : State :=
  match connAt s c, queueAt s c q with
  | some k, some u =>
    let e := if k.nvme then parseNvme b else parseEntry b k.version
    let e := if k.nvme || b.length == capsuleLength e then e else { e with reservedOk := false }
    let taken := u.ring.any (fun h => h.e.cid == e.cid) || (queueCmds s c q).any (fun x => x.2.e.cid == e.cid)
    if u.lost then s
    else if u.entries ≤ u.ring.length then sendCompletion s c q e.cid 0x16 0 false
    else if taken then sendCompletion s c q e.cid 0x15 0 false
    else
      let h : Capsule :=
        { e := e, nvme := k.nvme, raw := if k.nvme then b.take 64 else [], icd := capsuleIcd s k.nvme e b u.icd
          icdGen := ((volAt s e.volumeId).map (·.keyGen)).getD 0, subSeq := u.subSeq, acceptedAt := nowOf s }
      let s := setQueue s c q (fun u => { u with ring := u.ring ++ [h], subSeq := u.subSeq + 1 })
      if q = 0 && !k.nvme && e.opcode == 0x81 then setConn s c (fun k => { k with readBelow := max k.readBelow (min e.param0 k.nextError) }) else s
  | _, _ => s

/-- CAPSULE: the oldest message delivered on the queue's queue pair. -/
def execCapsule (conn queue : Nat) (s : State) : Res :=
  .next <|
    match queueAt s conn queue with
    | none => s
    | some u =>
      match (qpAt s u.qp).bind (fun x => x.delivered.head?) with
      | none => s
      | some b => settleHost (storeCapsule (setQp s u.qp (fun x => { x with delivered := x.delivered.drop 1 })) conn queue b)

/-! ## Starting rows -/

/-- The head of a queue starts when it is the command of the row and may start; a connection stopped by its log sets LOG_STALL (R252). -/
def hostRow (s : State) (c q : Nat) (nvme : Bool) (op : SubEntry → Bool) (f : State → Nat → State) : State :=
  match connAt s c, headOf s c q with
  | some k, some h =>
    if k.nvme != nvme || !(op h.e) || !(opKnown k q h.e) then s
    else if logStalled s c then setBit s .hqEvent 2
    else if !(mayStart s c q) then s
    else
      let r := startHead s c q
      settleHost (f r.1 r.2)
  | _, _ => s

/-! ## I/O commands (R237, R255) -/

/-- Whether a volume's reads, and its writes, are served at the current level (Table 8.13). -/
def readsServed (s : State) (v : Volume) : Bool := decide (2 ≤ esLevel s) && (v.kind == .direct || v.rootLoaded)
def writesServed (s : State) (p : Pool) (v : Volume) : Bool :=
  decide (esLevel s = 4) || (decide (esLevel s = 3) && v.kind == .mapped && layoutParity p.layout)

/-- The checks of an I/O command in order: fields, data mode, volume, pool, range, level, the current key (R237, R255, R42). Answers a status other than
success. A block of a read that stands under a previous key which is not loaded fails by itself. -/
def ioCheck (s : State) (k : Conn) (u : Queue) (e : SubEntry) : Option Nat :=
  let io := e.opcode = 1 ∨ e.opcode = 2
  let mode : Bool := if e.opcode = 1 then e.dataMode == 1 || e.dataMode == 2 || (e.dataMode == 3 && decide (0x20 ≤ k.version) && !k.nvme)
    else if e.opcode = 2 then e.dataMode == 2 else e.dataMode == 0 || k.nvme
  if !e.reservedOk then some 0x11
  else if !mode then some (if k.nvme then 0x114 else 0x14)
  else if io ∧ e.length ≠ e.count * 4096 then some 0x14
  else if e.count = 0 ∨ (if io then 16384 else 2 ^ 24) < e.count then some 0x11
  else if e.opcode = 1 ∧ e.dataMode = 1 ∧ u.icd < e.count then some 0x11
  else
    match volAt s e.volumeId with
    | none => some 0x12
    | some v =>
      if !(opened v k) then some 0x12
      else if e.integrity && !v.passThrough then some 0x11
      else
        match poolAt s v.pool with
        | none => some 0x44
        | some p =>
          if !p.online then some 0x44
          else if v.capacity < e.start + e.count then some 0x13
          else if e.opcode = 2 ∧ readsServed s v = false then some 0x40
          else if isWriteOp e && !(writesServed s p v) then some 0x40
          else if (e.opcode = 1 ∨ e.opcode = 2 ∨ v.kind = VolKind.direct ∧ e.opcode = 8) ∧ writeKeyOk s e.volumeId v = false then some 0x29
          else none

/-- The data of a gather window for a WINDOW write: whole blocks, then guards where the command has them; none when a range is not backed or its
region is not ACTIVE (R36). Answers the regions too. -/
def windowBytes (s : State) (c : Nat) (rkey addr len : Nat) : Option (Nat × Bytes) :=
  let idx := rkey % 2 ^ 14
  let r := regionAt s idx
  if activeKey s rkey && r.conn == c && decide (r.base ≤ addr ∧ addr + len ≤ r.base + r.length) && (pagesNeeded r (addr - r.base) len).isEmpty
  then some (idx, sparseRead r.data (addr - r.base) len) else none

/-- Blocks at hand for a starting write: the capsule's, in the volume's present key generation, or a window's, which pass the edge now. None when the
window is not valid; an empty list for a pull. -/
def blocksAtHand (s : State) (c : Nat) (k : Cmd) (icdGen : Nat) (v : Volume) : Option (List EdgeBlk × List Nat) :=
  let e := k.e
  if e.dataMode = 1 then
    some (k.icd.zipIdx.map (fun x => rekeyEdge s e.volumeId icdGen v.keyGen (e.start + x.2) x.1), [])
  else if e.dataMode = 3 then
    match windowBytes s c e.rkey e.addr e.length, (if e.integrity then windowBytes s c e.guardKey e.guardAddr (e.count * 8) else some (16384, [])) with
    | some (i, d), some (j, g) =>
      some ((List.range e.count).map (fun n =>
        let gd : Option (BitVec 64) := if e.integrity then some (BitVec.ofNat 64 (fieldAt g (8 * n) 8)) else none
        edgeBlock s e.volumeId v.keyGen (e.start + n) (sub d (4096 * n) 4096) gd), [i, j].filter (· < 16384))
    | _, _ => none
  else some ([], [])

/-- A started write is checked, divided into units, and supplied with the data at hand (R43 to R46, R68). -/
def runWrite (s : State) (slot icdGen : Nat) (kind : WKind) : State :=
  match cmdAt s slot with
  | none => s
  | some k =>
    match connAt s k.conn, queueAt s k.conn k.queue with
    | some n, some u =>
      match ioCheck s n u k.e with
      | some st => finish s slot st 0
      | none =>
        match volAt s k.e.volumeId with
        | none => s
        | some v =>
          let hand := if kind = WKind.write then blocksAtHand s k.conn k icdGen v else some ([], [])
          match hand with
          | none => finish s slot 0x31 0
          | some (blks, regions) =>
            let s := forAll regions (fun s i => setRegion s i (fun r => { r with naming := slot :: r.naming })) s
            let s := setCmd s slot (fun k => { k with pool := v.pool })
            let s := classify s v.pool k.e.volumeId slot k.e.start k.e.count kind k.e.integrity
            let s := if blks.isEmpty then s else supplyUnits s v.pool slot blks
            if ((cmdAt s slot).map (fun k => k.units.isEmpty && k.status.isNone)).getD false then finish s slot 0 0 else s
    | _, _ => s

/-- Units and data bytes that the level-3 window is charged for a write (R44, R333). -/
def capUnits (e : SubEntry) : Nat := if e.opcode = 1 then (e.count + 1023) / 1024 else 1
def capBytes (e : SubEntry) : Nat := if e.opcode = 1 then e.count * 4096 else 0

/-- A 1 ms window of R333 is over once shelf time has reached its end: what comes then is charged to the next (R10). Windows follow each other from shelf time 0
(log entry 56). -/
def rollCap (s : State) : State :=
  if nowOf s < s.hq.capStart + 1000000 then s
  else { s with hq := { s.hq with capUnits := 0, capBytes := 0, capStart := nowOf s / 1000000 * 1000000 } }

/-- A write that the level-3 window has no room for stays unstarted (R333). -/
def capHolds (s : State) (c q : Nat) : Bool :=
  match connAt s c, queueAt s c q, headOf s c q with
  | some k, some u, some h =>
    esLevel s == 3 && (ioCheck s k u h.e).isNone
      && (decide (5000 < s.hq.capUnits + capUnits h.e) || decide (350000000 < s.hq.capBytes + capBytes h.e))
  | _, _, _ => false

/-- At level 3 a write that starts is charged to its window. -/
def chargeCap (s : State) (e : SubEntry) : State :=
  if esLevel s = 3 then { s with hq := { s.hq with capUnits := s.hq.capUnits + capUnits e, capBytes := s.hq.capBytes + capBytes e } } else s

/-- A write command of a queue starts: with room in the level-3 window, which it is charged to. -/
def writeRow (s : State) (c q : Nat) (nvme : Bool) (op : Nat) (kind : WKind) : State :=
  let mine (e : SubEntry) : Bool := e.opcode == op
  let s := rollCap s
  match headOf s c q with
  | none => s
  | some h =>
    if !(mine h.e) then s
    else if capHolds s c q then (if mayStart s c q then count s 0x557 else s)
    else
      hostRow s c q nvme mine (fun s slot =>
        runWrite (chargeCap s h.e) slot h.icdGen kind)

/-- FLUSH may complete once every earlier command of its queue has (R245); at level 1 it is not served (R255). -/
def runFlush (s : State) (slot : Nat) : State :=
  match cmdAt s slot with
  | none => s
  | some k =>
    let st := if !k.e.reservedOk then 0x11 else if !k.nvme && k.e.dataMode != 0 then 0x14 else if esLevel s < 2 then 0x40 else 0
    finish s slot st 0

/-- A read takes its snapshot, looks up each block and issues its drive reads (R108, R109). -/
def runRead (s : State) (slot : Nat) : State :=
  match cmdAt s slot with
  | none => s
  | some k =>
    match connAt s k.conn, queueAt s k.conn k.queue with
    | some n, some u =>
      match ioCheck s n u k.e with
      | some st => finish s slot st 0
      | none =>
        match volAt s k.e.volumeId with
        | none => s
        | some v =>
          let snap := ((poolAt s v.pool).map (·.wseq)).getD 0
          let reads := (List.range k.e.count).map (fun j =>
            ({ block := k.e.start + j, src := lookupBlock s v.pool k.e.volumeId (k.e.start + j) snap } : RdBlk))
          let any (f : RdSrc → Bool) : Bool := reads.any (fun r => f r.src)
          let s := setCmd s slot (fun k =>
            { k with pool := v.pool, snapshot := snap, reads := reads, firstIo := some (nowOf s)
                     inflightFlag := any (fun x => match x with
                       | .inflight _ => true
                       | _ => false)
                     missFlag := any (fun x => match x with
                       | .page _ => true
                       | _ => false) })
          let s := if v.kind = .mapped then forAll reads (fun s r => touchLeaf s k.e.volumeId r.block) s else s
          let s := forAll (List.range reads.length) (fun s i => serveBlock s slot i) s
          endRead s slot
    | _, _ => s

/-- FLUSH. -/
def execFlush (conn queue : Nat) (s : State) : Res := .next (hostRow s conn queue false (fun e => e.opcode == 0) runFlush)

/-- WRITE. -/
def execWrite (conn queue : Nat) (s : State) : Res := .next (writeRow s conn queue false 1 .write)

/-- READ. -/
def execRead (conn queue : Nat) (s : State) : Res := .next (hostRow s conn queue false (fun e => e.opcode == 2) runRead)

/-- WRITE_ZEROES. -/
def execWriteZeroes (conn queue : Nat) (s : State) : Res := .next (writeRow s conn queue false 8 .zero)

/-- DEALLOCATE. -/
def execDeallocate (conn queue : Nat) (s : State) : Res := .next (writeRow s conn queue false 9 .dealloc)

/-- Commands still running at 50 ms end with ABORTED_RESET (R253). -/
def resetExpire (s : State) (c : Nat) : State :=
  match connAt s c with
  | none => s
  | some k =>
    if k.resetCid.isNone then s
    else
      let s := reach s (k.resetFrom + 50000000)
      let late := resetWaits s c k
      let s := if late.isEmpty then s else setBit s .hqEvent 0
      settleHost (forAll late (fun s slot => abortCmd s slot 0x41) s)

/-- A command that finishes at the end of the 50 ms of a RESET or of a warm start, or later, is late and ends with ABORTED_RESET (R10, R253, R263, Table 9.5). -/
def lateCommand (s : State) (k : Cmd) : Bool :=
  !(isWaitOp k.nvme k.queue k.e) &&
  (((connAt s k.conn).map (fun c => c.resetCid.isSome && decide (c.resetFrom + 50000000 ≤ nowOf s) && !(k.queue == 0 && !k.nvme && k.e.opcode == 0x85))).getD false
    || (s.boot.quiesce.isSome && decide (s.hq.stopAt + 50000000 ≤ nowOf s)))

/-- COMMAND_COMPLETION: a finished command's completion is sent; a FLUSH once every earlier command of its queue has completed (R235, R245). -/
def execCommandCompletion (cmd : Nat) (s : State) : Res :=
  .next <|
    match cmdAt s cmd with
    | none => s
    | some k =>
      match k.status with
      | none => s
      | some st =>
        let flush := k.queue != 0 && k.e.opcode == 0 && st == 0
        if lateCommand s k then (if s.boot.quiesce.isSome then settleHost (abortCmd s cmd 0x41) else resetExpire s k.conn)
        else if flush && (queueCmds s k.conn k.queue).any (fun e => decide (e.2.subSeq < k.subSeq)) then s
        else settleHost (endCmd s cmd st)

/-! ## Admin commands -/

/-- The common checks of an admin command: reserved fields, authentication, data mode, LENGTH (R237, R257). `modes` are the data modes allowed, `len` the
check of LENGTH. -/
def adminCheck (s : State) (k : Conn) (e : SubEntry) (free : Bool) (mode : Nat) (len : Bool) : Option Nat :=
  if authPending s k && !free then some 0x17
  else if !e.reservedOk then some 0x11
  else if e.dataMode ≠ mode then some 0x14
  else if !len then some 0x11
  else none

/-- An admin command of MSP starts on queue 0 and, unless a check fails, acts. -/
def adminRow (s : State) (c op mode : Nat) (free : SubEntry → Bool) (len : SubEntry → Bool) (f : State → Nat → Cmd → Conn → State) : State :=
  hostRow s c 0 false (fun e => e.opcode == op) (fun s slot =>
    match cmdAt s slot, connAt s c with
    | some k, some n =>
      match adminCheck s n k.e (free k.e) mode (len k.e) with
      | some st => endWith s slot st 0
      | none => f s slot k n
    | _, _ => s)

/-- Data of an admin command goes to the host buffer by RDMA WRITE (Table 8.5). -/
def adminData (s : State) (c : Nat) (e : SubEntry) (b : Bytes) : State :=
  match queueAt s c 0 with
  | some u => qpSend s u.qp (.rdmaWrite e.rkey e.addr) b
  | none => s

/-- An ASCII string padded with spaces. -/
def ascii (n : Nat) (t : List Nat) : Bytes := (t.map (BitVec.ofNat 8)).take n ++ List.replicate (n - t.length) 0x20

/-- "MBP-W64". -/
def modelName : List Nat := [0x4D, 0x42, 0x50, 0x2D, 0x57, 0x36, 0x34]

/-- The running image's version, ASCII, as its header gives it (Table 10.9, bytes 16 to 31). -/
def runningVersion (s : State) : Bytes :=
  let img := if s.ctl.running = 0 then s.ctl.slotA else if s.ctl.running = 1 then s.ctl.slotB else s.ctl.recovery
  sub img.bytes 16 16

/-- Volumes opened to a connection's host. -/
def openVolumes (s : State) (k : Conn) : List Nat := (s.volumes.filter (fun e => opened e.2 k)).map (·.1)

/-- Blocks holding mapped data; for a direct volume its capacity (Table 8.8). -/
def allocatedBlocks (v : Volume) : Nat :=
  match v.kind with
  | .direct => v.capacity
  | .mapped => (v.leaves.map (fun l => (l.extents.map (fun e => if e.kind = ExtKind.mapped then e.len else 0)).sum)).sum

/-- IDENTIFY data (Table 8.8). -/
def identifyDevice (s : State) (k : Conn) : Bytes :=
  padTo 4096 (overlay (overlay (pack 64 [(32, 8, Config.uidLo.toNat), (40, 8, Config.uidHi.toNat), (48, 1, k.version), (49, 1, esLevel s),
    (50, 1, queueLimit s k.version), (51, 1, fld s .hqLimitCfg 15 13), (52, 2, entryLimit s k.version), (54, 2, (openVolumes s k).length),
    (56, 4, 16384), (60, 4, 2 ^ 24)]) 0 (ascii 16 modelName)) 16 (runningVersion s))

def identifyVolume (s : State) (vol : Nat) (v : Volume) : Bytes :=
  let p := poolAt s v.pool
  let online := (p.map (·.online)).getD false
  let avail := (if online && readsServed s v then 1 else 0) + (if online && (p.map (fun p => writesServed s p v)).getD false then 2 else 0)
  padTo 4096 (pack 64 [(0, 2, vol), (2, 1, if v.kind = VolKind.mapped then 1 else 2),
    (3, 1, (if v.encrypted then 1 else 0) + (if v.passThrough then 2 else 0)), (4, 1, (p.map (·.layout)).getD 0), (5, 1, (p.map (·.state)).getD 0),
    (6, 1, avail), (8, 8, v.capacity), (16, 16, v.nguid.toNat), (32, 8, allocatedBlocks v)])

def identifyList (s : State) (k : Conn) (low : Nat) : Bytes :=
  let l := ((openVolumes s k).filter (low ≤ ·)).take 1022
  padTo 4096 (leBytes 4 l.length ++ (l.map (leBytes 4)).flatten)

/-- IDENTIFY (R238). -/
def execIdentify (conn : Nat) (s : State) : Res :=
  .next <| adminRow s conn 0x80 2 (fun e => e.param0 % 256 == 0) (fun e => e.length == 4096) (fun s slot k n =>
    let cns := k.e.param0 % 256
    let vol := k.e.param0 / 2 ^ 16 % 4096
    if cns = 0 then endWith (adminData s conn k.e (identifyDevice s n)) slot 0 0
    else if cns = 1 then
      match volAt s vol with
      | some v => if opened v n then endWith (adminData s conn k.e (identifyVolume s vol v)) slot 0 0 else endWith s slot 0x12 0
      | none => endWith s slot 0x12 0
    else if cns = 2 then endWith (adminData s conn k.e (identifyList s n vol)) slot 0 0
    else endWith s slot 0x11 0)

/-- An error log entry's 64 bytes (Table 8.11). -/
def errBytes (e : ErrEntry) : Bytes :=
  let fl := (if e.froze then 1 else 0) + (if e.undelivered then 2 else 0) + (if e.queueLost then 4 else 0) + (if e.more then 8 else 0)
  pack 64 [(0, 8, e.seq), (8, 8, e.time), (16, 4, e.subSeq), (20, 4, e.fetched), (24, 1, e.queue), (25, 1, e.opcode), (26, 2, e.cid), (28, 1, e.status),
    (29, 1, fl), (30, 2, e.volumeId), (32, 8, e.start), (40, 4, e.count), (44, 1, e.cause), (48, 8, e.badFirst), (56, 4, e.badCount), (60, 4, e.lossRef)]

/-- GET_ERROR_LOG (R249). -/
def execGetErrorLog (conn : Nat) (s : State) : Res :=
  .next <| adminRow s conn 0x81 2 (fun _ => false) (fun e => e.length != 0 && e.length % 64 == 0) (fun s slot k n =>
    let above := n.log.filter (fun e => decide (k.e.param0 ≤ e.seq))
    let out := above.take (k.e.length / 64)
    let s := if out.isEmpty then s else adminData s conn k.e (out.map errBytes).flatten
    endWith s slot 0 (out.length + 2 ^ 32 * (above.length - out.length)))

/-- RESTART_QUEUE (R250): refused when a newer entry of the queue exists; else it waits for the queue's started commands. -/
def execRestartQueue (conn : Nat) (s : State) : Res :=
  .next <| adminRow s conn 0x82 0 (fun _ => false) (fun e => e.length == 0) (fun s slot k n =>
    let q := k.e.param0 % 64
    match queueAt s conn q with
    | none => endWith s slot 0x11 0
    | some u =>
      if !u.frozen then endWith s slot 0 0
      else if decide (0x30 ≤ n.version) && n.log.any (fun e => e.queue == q && decide (k.e.param1 < e.seq)) then endWith s slot 0x18 0
      else setQueue s conn q (fun u => { u with restart := u.restart ++ [(k.e.cid, k.e.param0 / 256 % 2 == 1)] }))

/-- RESTART_COMPLETE: with every started command of the queue completed, unstarted ones are discarded where asked, the queue is unfrozen and the
restart completes with their number (R250). -/
def execRestartComplete (conn queue : Nat) (s : State) : Res :=
  .next <|
    match queueAt s conn queue with
    | none => s
    | some u =>
      match u.restart with
      | [] => s
      | (cid, discard) :: rest =>
        if !(queueCmds s conn queue).isEmpty then s
        else
          let n := if discard then u.ring.length else 0
          let s := if discard then abortRing s conn queue 0x43 else s
          let s := count (setQueue s conn queue (fun u => { u with frozen := false, restart := [] })) 0x552
          let done (s : State) (cid result : Nat) : State :=
            match (queueCmds s conn 0).find? (fun e => e.2.e.cid == cid && e.2.e.opcode == 0x82) with
            | some e => endWith s e.1 0 result
            | none => s
          settleHost (forAll rest (fun s r => done s r.1 0) (done s cid n))

/-- Regions that exist. -/
def regionsHeld (s : State) : Nat := (s.rdma.regions.filter (fun e => e.2.state != .free || !e.2.naming.isEmpty)).length

/-- REGION_REGISTER (R218, R237): an entry with a changed tag becomes ACTIVE. R_Key 0 is never issued. -/
def execRegionRegister (conn : Nat) (s : State) : Res :=
  .next <| adminRow s conn 0x83 0 (fun _ => false) (fun e => decide (4096 ≤ e.length ∧ e.length ≤ 2 ^ 24) && e.addr % 4096 == 0) (fun s slot k n =>
    let free := (List.range 16384).find? (fun i =>
      match tget s.rdma.regions i with
      | some r => r.state == .free && r.naming.isEmpty
      | none => true)
    match free with
    | none => endWith s slot 0x19 0
    | some i =>
      if 64 ≤ n.regions.length then endWith s slot 0x19 0
      else
        let old := regionAt s i
        let tag := (old.tag + 1) % 2 ^ 18
        let tag := if tag = 0 ∧ i = 0 then 1 else tag
        let r : Region := { state := .active, tag := tag, base := k.e.addr, length := k.e.length, conn := conn, resend := k.e.param0 % 2 == 1
                            rnrCode := k.e.param0 / 256 % 32 }
        let s := setConn (setRegion s i (fun _ => r)) conn (fun n => { n with regions := n.regions ++ [i] })
        endWith s slot 0 (regionKey i r))

/-- REGION_RELEASE: the region is revoked, and the command completes when the revoke finishes (R222, R223). -/
def execRegionRelease (conn : Nat) (s : State) : Res :=
  .next <| adminRow s conn 0x84 0 (fun _ => false) (fun e => e.length == 0) (fun s slot k _ =>
    let key := k.e.param0 % 2 ^ 32
    let i := key % 2 ^ 14
    if !(activeKey s key) || (regionAt s i).conn != conn then endWith s slot 0x11 0
    else startRevoke (setRegion s i (fun r => { r with release := some (conn, k.e.cid) })) i false)

/-- RESET: unstarted commands end at once; started ones have until 50 ms after its arrival (R253). -/
def execReset (conn : Nat) (s : State) : Res :=
  .next <| adminRow s conn 0x85 0 (fun _ => false) (fun e => e.length == 0) (fun s _ k _ =>
    let s := setConn (count s 0x553) conn (fun n => { n with resetCid := some k.e.cid, resetFrom := k.acceptedAt })
    abortRings s conn 0x41)

/-- RESET_TIMEOUT. -/
def execResetTimeout (conn : Nat) (s : State) : Res := .next (resetExpire s conn)

/-! ## Authentication (R256, R257) -/

/-- A failed transaction is counted; the third disconnects the admin queue pair (R257). -/
def authFailed (s : State) (c : Nat) : State :=
  let s := count (setBit s .hqEvent 3) 0x555
  let s := setConn s c (fun k => { k with authFails := k.authFails + 1, authTranscript := [] })
  match connAt s c, queueAt s c 0 with
  | some k, some u => if 3 ≤ k.authFails then disconnectQp s u.qp else s
  | _, _ => s

/-- One DH-HMAC-CHAP message from the host. -/
def authMessage (s : State) (c : Nat) (msg : Bytes) : State :=
  match connAt s c with
  | none => s
  | some k =>
    match hostSec s k.hostId with
    | none => authFailed s c
    | some h =>
      match h.host with
      | none => authFailed s c
      | some sec =>
        let r := Config.dhChapStep h.hash sec (h.ctrl.getD []) k.authTranscript msg
        if r = 1 then setConn s c (fun k => { k with authed := true, authTranscript := k.authTranscript ++ msg })
        else if r = 2 then authFailed s c
        else setConn s c (fun k => { k with authTranscript := k.authTranscript ++ msg })

/-- The device's next message. -/
def authReply (s : State) (c : Nat) : Bytes :=
  match connAt s c with
  | none => []
  | some k =>
    match hostSec s k.hostId with
    | some h => Config.dhChapReply h.hash (h.host.getD []) (h.ctrl.getD []) k.authTranscript
    | none => []

/-- AUTH_SEND. -/
def execAuthSend (conn : Nat) (msg : Bytes) (s : State) : Res :=
  .next <| adminRow s conn 0x86 2 (fun _ => true) (fun e => e.length != 0) (fun s slot _ _ => endWith (authMessage s conn msg) slot 0 0)

/-- AUTH_RECEIVE: at most LENGTH bytes of the device's message. -/
def execAuthReceive (conn : Nat) (s : State) : Res :=
  .next <| adminRow s conn 0x87 2 (fun _ => true) (fun e => e.length != 0) (fun s slot k _ =>
    endWith (adminData s conn k.e ((authReply s conn).take k.e.length)) slot 0 0)

/-- AUTH_TIMEOUT: no transaction has succeeded 10 s after the REP (R257). -/
def execAuthTimeout (conn : Nat) (s : State) : Res :=
  .next <|
    match connAt s conn, queueAt s conn 0 with
    | some k, some u => if authPending s k then settleHost (disconnectQp (reach s (k.repAt + 10000000000)) u.qp) else s
    | _, _ => s

/-! ## Events, DISCONNECT, lingering -/

/-- EVENT_WAIT: at most 4 outstanding; a pending event completes it at once (R239). -/
def execEventWait (conn : Nat) (s : State) : Res :=
  .next <| adminRow s conn 0x88 0 (fun _ => false) (fun e => e.length == 0) (fun s slot _ _ =>
    if 4 < (waitsOf s conn).length then endWith s slot 0x19 0 else deliverEvents s conn)

/-- DISCONNECT: it waits until every other queue of the connection is closed (Table 8.6). -/
def execDisconnect (conn : Nat) (s : State) : Res :=
  .next <| adminRow s conn 0x89 0 (fun _ => true) (fun e => e.length == 0) (fun s _ _ _ => s)

/-- CONNECTION_LINGER_EXPIRY: no queue pair has been in RTS for LINGER_S seconds (R232). -/
def execConnectionLingerExpiry (conn : Nat) (s : State) : Res :=
  .next <|
    match (connAt s conn).bind (·.lingerFrom) with
    | some t => if connLive s conn then s else endConn (reach s (t + fld s .hqLimitCfg 63 56 * 1000000000)) conn
    | none => s

/-! ## The level-3 window and the activation hold -/

/-- WRITE_CAP_WINDOW: a new 1 ms window begins (R333). -/
def execWriteCapWindow (s : State) : Res := .next (rollCap (reach s (s.hq.capStart + 1000000)))

/-- A hold begins: nothing starts, and hosts get event 4 with the window (R254). -/
def startHoldFor (s : State) (w : Nat) : State :=
  if s.hq.hold.active then s
  else
    mgmt (postAll { s with hq := { s.hq with hold := { s.hq.hold with active := true, start := nowOf s, windowMs := w, exceeded := false } } } 4 w) 7 0 1

/-- A hold of HQ_HOLD.WINDOW_MS. -/
def startHold (s : State) : State := startHoldFor s (fld s .hqHold 31 16)

/-- The end of the hold window: unstarted commands end with ABORTED_ACTIVATION, and the hold goes on (R254). -/
def holdExceeded (s : State) : State :=
  let s := forAll (s.hq.conns.map (·.1)) (fun s c => abortRings s c 0x42) s
  setBit { s with hq := { s.hq with hold := { s.hq.hold with exceeded := true } } } .hqEvent 4

/-- A hold ends: event 5, and held REQs go on (R225, R254). One that ends at the end of its window or later is late (R10, R356). -/
def releaseHold (s : State) : State :=
  if !s.hq.hold.active then s
  else
    let s := if !s.hq.hold.exceeded && decide (s.hq.hold.start + s.hq.hold.windowMs * 1000000 ≤ nowOf s) then holdExceeded s else s
    let ms := (nowOf s - s.hq.hold.start) / 1000000
    let late := s.hq.hold.exceeded
    let s := { s with hq := { s.hq with hold := { s.hq.hold with active := false, lastMs := ms } } }
    settleHost (runHeldReqs (mgmt (postAll s 5 (if late then 1 else 0)) 7 0 0))

/-- HOLD_START. -/
def execHoldStart (s : State) : Res := .next (startHold s)

/-- HOLD_RELEASE. -/
def execHoldRelease (s : State) : Res := .next (releaseHold s)

/-- HOLD_WINDOW_END. -/
def execHoldWindowEnd (s : State) : Res :=
  .next (
    if !s.hq.hold.active || s.hq.hold.exceeded then s
    else holdExceeded (reach s (s.hq.hold.start + s.hq.hold.windowMs * 1000000)))

end Sys2Proof.Machine
end

