-- ==== Sys2Proof/Machine/Nvmf.lean ====
section
/-! DEFINITION. The rows of NVMe over Fabrics (R258, R259, Table 8.14). Data layouts and statuses that Table 8.10 does not give are those of the NVMe
specifications (log entry 12). -/

namespace Sys2Proof.Machine

/-- Statuses of the NVMe specifications: Command Sequence Error 0/0x0C, Connect Invalid Parameters 1/0x82, Invalid Log Page 1/0x09, Asynchronous
Event Request Limit Exceeded 1/0x05, with DNR where the NVMe specifications expect no retry. -/
def nvSequence : Nat := 0x1400C
def nvConnectInvalid : Nat := 0x14182
def nvBadLog : Nat := 0x14109
def nvAerLimit : Nat := 0x10105

def setCtl (s : State) (c : Nat) (f : NvmfCtl → NvmfCtl) : State := setConn s c (fun k => { k with ctl := f k.ctl })

/-- Whether a queue has carried its Connect. -/
def nvConnected (s : State) (c q : Nat) : Bool := ((queueAt s c q).map (·.connected)).getD false

/-- An admin or Fabrics command of NVMe-oF starts; before its queue's Connect it is out of sequence, and before authentication where that is required
only authentication is served (R257). -/
def nvRow (s : State) (c q : Nat) (op : SubEntry → Bool) (free : Bool) (f : State → Nat → Cmd → Conn → State) : State :=
  hostRow s c q true op (fun s slot =>
    match cmdAt s slot, connAt s c with
    | some k, some n =>
      if !(nvConnected s c q) then endWith s slot nvSequence 0
      else if authPending s n && !free then endWith s slot 0x17 0
      else f s slot k n
    | _, _ => s)

/-- The Fabrics command of a type. -/
def isFabrics (t : Nat) (e : SubEntry) : Bool := e.opcode == 0x7F && e.param0 == t

/-- NVMF_CONNECT: the admin Connect names the host; an I/O Connect must name the same. -/
def execNvmfConnect (conn queue : Nat) (hostId : BitVec 128) (_hostNqn : Bytes) (s : State) : Res :=
  .next <| hostRow s conn queue true (isFabrics 1) (fun s slot =>
    match cmdAt s slot, connAt s conn with
    | some k, some n =>
      if nvConnected s conn queue then endWith s slot nvSequence 0
      else if queue = 0 then
        let s := setConn s conn (fun n => { n with hostId := hostId, ctl := { n.ctl with kato := fieldAt k.raw 48 4, lastKeepAlive := nowOf s } })
        let s := setQueue s conn queue (fun u => { u with connected := true })
        endWith s slot 0 (conn + (if authRequired s hostId then 2 ^ 17 else 0))
      else if n.hostId ≠ hostId then endWith s slot nvConnectInvalid 0
      else endWith (setQueue s conn queue (fun u => { u with connected := true })) slot 0 conn
    | _, _ => s)

/-- PROPERTY_GET: CAP, VS, CC and CSTS. -/
def execPropertyGet (conn : Nat) (s : State) : Res :=
  .next <| nvRow s conn 0 (isFabrics 4) true (fun s slot k n =>
    let off := fieldAt k.raw 44 4
    let mqes := fld s .hqLimitCfg 12 0 - 1
    if off = 0 then endWith s slot 0 (mqes + 2 ^ 16 + 2 ^ 37)
    else if off = 8 then endWith s slot 0 0x20000
    else if off = 0x14 then endWith s slot 0 n.ctl.cc.toNat
    else if off = 0x1C then endWith s slot 0 n.ctl.csts.toNat
    else endWith s slot 0x11 0)

/-- A controller reset runs as a RESET (R253, R259). -/
def controllerReset (s : State) (c arrival : Nat) : State :=
  let s := setConn s c (fun n => { n with resetCid := some 0x10000, resetFrom := arrival })
  abortRings s c 0x41

/-- PROPERTY_SET: CC. Setting EN makes the controller ready; clearing it resets the controller; a shutdown notice completes at once. -/
def execPropertySet (conn : Nat) (s : State) : Res :=
  .next <| nvRow s conn 0 (isFabrics 0) true (fun s slot k n =>
    if fieldAt k.raw 44 4 ≠ 0x14 then endWith s slot 0x11 0
    else
      let v : BitVec 32 := BitVec.ofNat 32 (fieldAt k.raw 48 4)
      let was := n.ctl.cc.getLsbD 0
      let en := v.getLsbD 0
      let shn := v.toNat / 2 ^ 14 % 4
      let s := setCtl s conn (fun c => { c with cc := v, csts := (if en then 1#32 else 0#32) ||| (if shn = 0 then 0#32 else 8#32) })
      let s := endWith s slot 0 0
      if was && !en then controllerReset (setCtl s conn (fun c => { c with csts := 1#32 })) conn k.acceptedAt else s)

/-- AUTHENTICATION_SEND (R256, R257). -/
def execAuthenticationSend (conn : Nat) (msg : Bytes) (s : State) : Res :=
  .next <| nvRow s conn 0 (isFabrics 5) true (fun s slot _ _ => endWith (authMessage s conn msg) slot 0 0)

/-- AUTHENTICATION_RECEIVE. -/
def execAuthenticationReceive (conn : Nat) (s : State) : Res :=
  .next <| nvRow s conn 0 (isFabrics 6) true (fun s slot k _ =>
    endWith (adminData s conn k.e ((authReply s conn).take (fieldAt k.raw 44 4))) slot 0 0)

/-- NVMF_DISCONNECT: an I/O queue's Disconnect completes, and the device disconnects its queue pair. -/
def execNvmfDisconnect (conn queue : Nat) (s : State) : Res :=
  .next <| nvRow s conn queue (isFabrics 8) true (fun s slot _ _ =>
    let s := endWith s slot 0 0
    match queueAt s conn queue with
    | some u => disconnectQp s u.qp
    | none => s)

/-! ## Identify and log pages -/

/-- Identify Namespace: one LBA format of 4,096 bytes, no metadata. -/
def nvNamespace (v : Volume) : Bytes :=
  overlay (overlay (padTo 4096 (pack 32 [(0, 8, v.capacity), (8, 8, v.capacity), (16, 8, allocatedBlocks v)]))
    104 (beBytes 16 v.nguid.toNat)) 128 (leBytes 4 (12 * 2 ^ 16))

/-- Identify Controller with the limits of Table 8.14. -/
def nvController (s : State) (c : Nat) : Bytes :=
  let b := pack 4096 [(77, 1, 14), (78, 2, c), (80, 4, 0x20000), (92, 4, 0x300), (259, 1, 3), (262, 1, 63), (320, 2, 1), (512, 1, 0x66), (513, 1, 0x44),
    (514, 2, fld s .hqLimitCfg 12 0), (516, 4, 4096), (520, 2, 0x0C), (536, 4, 0x100005), (1792, 4, 1028), (1796, 4, 1)]
  let b := overlay b 0 (padTo 4 (Config.nvmeIdentity 0))
  let b := overlay b 4 (padTo 20 (Config.nvmeIdentity 1))
  let b := overlay b 24 (ascii 40 modelName)
  let b := overlay b 64 ((runningVersion s).take 8)
  overlay b 768 (padTo 256 (Config.nvmeIdentity 2))

/-- The active namespaces above an NSID. -/
def nvList (s : State) (k : Conn) (above : Nat) : Bytes :=
  padTo 4096 ((((openVolumes s k).map (· + 1)).filter (above < ·)).take 1024 |>.map (leBytes 4)).flatten

/-- NVMF_IDENTIFY: CNS 0x00 namespace, 0x01 controller, 0x02 active list, 0x03 descriptors. -/
def execNvmfIdentify (conn : Nat) (s : State) : Res :=
  .next <| nvRow s conn 0 (fun e => e.opcode == 6) false (fun s slot k n =>
    let cns := fieldAt k.raw 40 1
    let vol := k.e.volumeId
    let data (b : Bytes) : State := endWith (adminData s conn k.e b) slot 0 0
    if k.e.dataMode ≠ 2 then endWith s slot 0x114 0
    else if k.e.length ≠ 4096 then endWith s slot 0x14 0
    else if cns = 1 then data (nvController s conn)
    else if cns = 2 then data (nvList s n (fieldAt k.raw 4 4))
    else if cns = 0 ∨ cns = 3 then
      match volAt s vol with
      | some v =>
        if !(opened v n) then endWith s slot 0x12 0
        else if cns = 0 then data (nvNamespace v)
        else data (padTo 4096 ([0x02#8, 0x10#8, 0#8, 0#8] ++ beBytes 16 v.nguid.toNat))
      | none => endWith s slot 0x12 0
    else endWith s slot 0x11 0)

/-- Error Information entries, newest first: SQID, CID, status, LBA, and CAUSE in the vendor-specific byte (R259). -/
def nvErrLog (n : Conn) : Bytes :=
  padTo 4096 ((n.ctl.errInfo.zipIdx.map (fun x =>
    let (sq, cid, st, lba, cause) := x.1
    pack 64 [(0, 8, n.ctl.errInfo.length - x.2), (8, 2, sq), (10, 2, cid), (12, 2, 2 * st), (16, 8, lba), (28, 1, cause)])).flatten)

/-- GET_LOG_PAGE: 0x01 Error Information, 0x02 SMART / Health (its figures are free, log entry 2), 0x04 Changed Namespace List, cleared as it is read. -/
def execGetLogPage (conn : Nat) (s : State) : Res :=
  .next <| nvRow s conn 0 (fun e => e.opcode == 2) false (fun s slot k n =>
    let lid := fieldAt k.raw 40 1
    let len := (fieldAt k.raw 42 4 + 1) * 4
    let off := fieldAt k.raw 48 8
    let cut (b : Bytes) : Bytes := sub b off (min len k.e.length)
    if k.e.dataMode ≠ 2 then endWith s slot 0x114 0
    else if lid = 1 then endWith (adminData s conn k.e (cut (nvErrLog n))) slot 0 0
    else if lid = 2 then
      let (b, s) := drawBytes s 512
      endWith (adminData s conn k.e (cut b)) slot 0 0
    else if lid = 4 then
      let s := adminData s conn k.e (cut (padTo 4096 ((sortBy (fun a b => decide (a ≤ b)) n.ctl.changedNs).take 1024 |>.map (leBytes 4)).flatten))
      endWith (setCtl s conn (fun c => { c with changedNs := [] })) slot 0 0
    else endWith s slot nvBadLog 0)

/-! ## Features, events, keep alive -/

/-- SET_FEATURES: 0x07 Number of Queues, 0x0B Asynchronous Event Configuration, 0x0F Keep Alive Timer. -/
def execSetFeatures (conn : Nat) (s : State) : Res :=
  .next <| nvRow s conn 0 (fun e => e.opcode == 9) false (fun s slot k _ =>
    let fid := fieldAt k.raw 40 1
    let v := fieldAt k.raw 44 4
    let lim := fld s .hqLimitCfg 22 16 - 2
    if fid = 7 then
      let n := min lim (min (v % 2 ^ 16) (v / 2 ^ 16))
      endWith (setCtl s conn (fun c => { c with numQueues := n })) slot 0 (n + 2 ^ 16 * n)
    else if fid = 0x0B then endWith (setCtl s conn (fun c => { c with asyncCfg := v })) slot 0 0
    else if fid = 0x0F then endWith (setCtl s conn (fun c => { c with kato := v, lastKeepAlive := nowOf s })) slot 0 0
    else endWith s slot 0x11 0)

/-- GET_FEATURES. -/
def execGetFeatures (conn : Nat) (s : State) : Res :=
  .next <| nvRow s conn 0 (fun e => e.opcode == 0x0A) false (fun s slot k n =>
    let fid := fieldAt k.raw 40 1
    if fid = 7 then endWith s slot 0 (n.ctl.numQueues + 2 ^ 16 * n.ctl.numQueues)
    else if fid = 0x0B then endWith s slot 0 n.ctl.asyncCfg
    else if fid = 0x0F then endWith s slot 0 n.ctl.kato
    else endWith s slot 0x11 0)

/-- ASYNCHRONOUS_EVENT_REQUEST: at most 4 outstanding. -/
def execAsynchronousEventRequest (conn : Nat) (s : State) : Res :=
  .next <| nvRow s conn 0 (fun e => e.opcode == 0x0C) false (fun s slot _ _ =>
    if 4 < (aersOf s conn).length then endWith s slot nvAerLimit 0 else deliverAers s conn)

/-- KEEP_ALIVE. -/
def execKeepAlive (conn : Nat) (s : State) : Res :=
  .next <| nvRow s conn 0 (fun e => e.opcode == 0x18) false (fun s slot _ _ =>
    endWith (setCtl s conn (fun c => { c with lastKeepAlive := nowOf s })) slot 0 0)

/-- KEEP_ALIVE_EXPIRY: no Keep Alive for the timer's milliseconds. R251 applies to every queue and the controller is reset (R259). -/
def execKeepAliveExpiry (conn : Nat) (s : State) : Res :=
  .next <|
    match connAt s conn with
    | none => s
    | some k =>
      if !k.nvme || k.ctl.kato == 0 then s
      else
        let s := reach s (k.ctl.lastKeepAlive + k.ctl.kato * 1000000)
        let s := setCtl s conn (fun c => { c with kato := 0, cc := c.cc &&& ~~~1#32 })
        let s := forAll (qpsOf s conn) disconnectQp s
        settleHost (controllerReset s conn (nowOf s))

/-- ABORT: always "not aborted". -/
def execAbort (conn : Nat) (s : State) : Res :=
  .next <| nvRow s conn 0 (fun e => e.opcode == 8) false (fun s slot _ _ => endWith s slot 0 1)

/-! ## I/O commands -/

/-- An I/O command before its queue's Connect is out of sequence. -/
def nvGate (f : State → Nat → State) (s : State) (slot : Nat) : State :=
  match cmdAt s slot with
  | none => s
  | some k => if nvConnected s k.conn k.queue then f s slot else finish s slot nvSequence 0

/-- NVMF_FLUSH. -/
def execNvmfFlush (conn queue : Nat) (s : State) : Res := .next (hostRow s conn queue true (fun e => e.opcode == 0) (nvGate runFlush))

/-- NVMF_WRITE. -/
def execNvmfWrite (conn queue : Nat) (s : State) : Res :=
  .next (if nvConnected s conn queue then writeRow s conn queue true 1 .write
    else hostRow s conn queue true (fun e => e.opcode == 1) (nvGate (fun s _ => s)))

/-- NVMF_READ. -/
def execNvmfRead (conn queue : Nat) (s : State) : Res := .next (hostRow s conn queue true (fun e => e.opcode == 2) (nvGate runRead))

/-- NVMF_WRITE_ZEROES. -/
def execNvmfWriteZeroes (conn queue : Nat) (s : State) : Res :=
  .next (if nvConnected s conn queue then writeRow s conn queue true 8 .zero
    else hostRow s conn queue true (fun e => e.opcode == 8) (nvGate (fun s _ => s)))

/-- Dataset Management with the deallocate attribute over up to 256 ranges; without it nothing is done (R68, Table 8.14). -/
def runDsm (ranges : List (Nat × Nat)) (s : State) (slot : Nat) : State :=
  match cmdAt s slot with
  | none => s
  | some k =>
    match connAt s k.conn, queueAt s k.conn k.queue with
    | some n, some u =>
      let bad := ranges.filterMap (fun r => ioCheck s n u { k.e with start := r.1, count := r.2 })
      match bad.head? with
      | some st => finish s slot st 0
      | none =>
        if ranges.length ≠ k.e.count then finish s slot 0x11 0
        else if fieldAt k.raw 44 1 / 4 % 2 = 0 then finish s slot 0 0
        else
          let pi := ((volAt s k.e.volumeId).map (·.pool)).getD 0
          let s := setCmd s slot (fun k => { k with pool := pi })
          let s := if esLevel s = 3 then { s with hq := { s.hq with capUnits := s.hq.capUnits + ranges.length } } else s
          let s := forAll ranges (fun s r => classify s pi k.e.volumeId slot r.1 r.2 .dealloc false) s
          if ((cmdAt s slot).map (fun k => k.units.isEmpty && k.status.isNone)).getD false then finish s slot 0 0 else s
    | _, _ => s

/-- DATASET_MANAGEMENT: `ranges` are the host's range descriptors. At level 3 it waits for room in the window (R333). -/
def execDatasetManagement (conn queue : Nat) (ranges : List (Nat × Nat)) (s : State) : Res :=
  .next (
    let s := rollCap s
    if esLevel s == 3 && decide (5000 < s.hq.capUnits + ranges.length) then s
    else hostRow s conn queue true (fun e => e.opcode == 9) (nvGate (runDsm ranges)))

end Sys2Proof.Machine
end

