-- ==== Sys2Proof/Machine/MapCacheRows.lean ====
section
/-! DEFINITION. The Map Cache (R165 to R175): its sets, Cuff, write-through queues, fills, range engine, errors and diagnostic window. Line numbers are
addresses divided by 64. -/

namespace Sys2Proof.Machine

/-! ## Places -/

def mcSlice (line : Nat) : Nat := line % 4
def mcSet (line : Nat) : Nat := line / 4 % 16384
def mcTag (line : Nat) : Nat := line / 65536

/-- Key of a line's set; of its ways. -/
def setKey (line : Nat) : Nat := mcSlice line * 16384 + mcSet line
def wayKey (line way : Nat) : Nat := setKey line * 16 + way

def setMc (s : State) (f : MapCache → MapCache) : State := { s with mc := f s.mc }

/-- The line held by a way. -/
def wayLine (line : Nat) (l : McLine) : Nat := l.tag * 65536 + mcSet line * 4 + mcSlice line

/-- Whether an address is served by the cache: enabled, inside the map area, its slice in use (R165, Table 5.13). -/
def mcServes (s : State) (addr : Nat) : Bool :=
  let base := fld s .mapAreaBase 40 30 * 2 ^ 30
  flag s .mcCtrl 0 && flag s .mcCtrl (4 + mcSlice (addr / 64)) && decide (base ≤ addr ∧ addr < base + fld s .mapAreaSize 10 0 * 2 ^ 30)

/-- The way of a set that holds a line. -/
def findWay (s : State) (line : Nat) : Option (Nat × McLine) :=
  (List.range 16).findSome? (fun w =>
    match tget s.mc.ways (wayKey line w) with
    | some l => if l.valid && l.tag == mcTag line then some (w, l) else none
    | none => none)

/-- The Cuff entry that holds a line, and whether its slice's transit register does. -/
def findCuff (s : State) (line : Nat) : Option (Nat × CuffLine) := s.mc.cuff.find? (fun e => e.2.valid && e.2.line == line)
def inTransit (s : State) (line : Nat) : Option CuffLine := (tget s.mc.transit (mcSlice line)).bind (fun t => if t.line = line then some t else none)

/-- The write-through queue of a slice, and whether it holds a line. -/
def wtq (s : State) (slice : Nat) : List WtEntry := (tget s.mc.wtq slice).getD []
def wtPending (s : State) (line : Nat) : Bool := (wtq s (mcSlice line)).any (fun e => e.line == line)

/-- A line's DRAM bytes with its queued stores laid over them: what DRAM holds once the queue has no entry for the line. -/
def dramLine (s : State) (line : Nat) : Bytes :=
  ((wtq s (mcSlice line)).filter (fun e => e.line == line)).foldl
    (fun b e => e.bytes.foldl (fun b x => overlay b x.1 [x.2]) b) (memReads s.mem (line * 64) 64)

/-! ## Events and the error log (R174) -/

/-- Saturating 16-bit count. -/
def sat16 (n : Nat) : Nat := min 0xFFFF n

def mcCount (s : State) (e line : Nat) : State := count s (0x5C0 + 4 * e + mcSlice line)

/-- The first error is logged while VALID is 0. -/
def mcLog (s : State) (kind syndrome line : Nat) : State :=
  if s.mc.eccValid then s
  else setMc s (fun m => { m with eccValid := true, eccKind := kind, eccSyndrome := syndrome, eccLine := line })

def mcCorrected (s : State) (line syndrome : Nat) : State :=
  let s := setMc (mcLog s 1 syndrome line) (fun m => { m with corrected := sat16 (m.corrected + 1) })
  mcCount (setBit s .mcEvent 0) 6 line

def mcUncorrected (s : State) (line syndrome : Nat) : State :=
  let s := setMc (mcLog s 2 syndrome line) (fun m => { m with uncorrected := sat16 (m.uncorrected + 1) })
  mcCount (setBit s .mcEvent 1) 7 line

/-- A tag parity error invalidates the way; a locked one loses its lock. -/
def mcTagParity (s : State) (line way : Nat) (locked : Bool) : State :=
  let s := setMc (mcLog s 3 0 line) (fun m => { m with tagParity := sat16 (m.tagParity + 1), ways := tdel m.ways (wayKey line way) })
  let s := mcCount (setBit s .mcEvent 2) 8 line
  if locked then mcCount (setBit s .mcEvent 3) 10 line else s

/-! ## Victims (R167) -/

/-- A way is used: the tree's bits on its path point away from it. -/
def plruTouch (t w : Nat) : Nat :=
  ((List.range 4).foldl (fun (a : Nat × Nat) i =>
    let dir := w / 2 ^ (3 - i) % 2
    let bit := 2 ^ a.2
    let off := if a.1 / bit % 2 = 1 then a.1 - bit else a.1
    (if dir = 0 then off + bit else off, 2 * a.2 + dir)) (t, 1)).1

/-- The way the tree points at among those allowed. -/
def plruVictim (t : Nat) (ok : Nat → Bool) : Nat :=
  ((List.range 4).foldl (fun (a : Nat × Nat) i =>
    let span := 2 ^ (3 - i)
    let want := t / 2 ^ a.2 % 2
    let has (d : Nat) : Bool := (List.range span).any (fun j => ok (a.1 + d * span + j))
    let dir := if has want then want else 1 - want
    (a.1 + dir * span, 2 * a.2 + dir)) (0, 1)).1

def touchWay (s : State) (line way : Nat) : State :=
  setMc s (fun m => { m with plru := tput m.plru (setKey line) (plruTouch ((tget m.plru (setKey line)).getD 0) way) })

/-- Ways of a set kept for fills on their way. -/
def keptWays (s : State) (line : Nat) : List Nat := s.mc.fills.filterMap (fun f => if setKey f.line = setKey line then f.wayKept else none)

/-- The set's victim: an invalid way if there is one, else by the tree among unlocked ways; never one kept for a fill. -/
def victimWay (s : State) (line : Nat) : Nat :=
  let kept := keptWays s line
  let valid (w : Nat) : Bool := ((tget s.mc.ways (wayKey line w)).map (·.valid)).getD false
  let locked (w : Nat) : Bool := ((tget s.mc.ways (wayKey line w)).map (·.lock)).getD false
  match (List.range 16).find? (fun w => !(valid w) && !(kept.contains w)) with
  | some w => w
  | none => plruVictim ((tget s.mc.plru (setKey line)).getD 0) (fun w => !(locked w) && !(kept.contains w))

/-! ## Eviction and recall (R168, R169) -/

/-- A line enters the Cuff; a full Cuff drops its oldest entry without a pending write-through, or the line waits. -/
def cuffInsert (s : State) (c : CuffLine) : Option State :=
  let live := s.mc.cuff.filter (fun e => e.2.valid)
  let put (s : State) : Option State :=
    (freeKey (s.mc.cuff.filter (fun e => e.2.valid)) 0 512).map (fun k =>
      setMc s (fun m => { m with cuff := tput m.cuff k { c with age := m.cuffAge }, cuffAge := m.cuffAge + 1 }))
  if live.length < 512 then put s
  else
    match (sortBy (fun a b => decide (a.2.age ≤ b.2.age)) (live.filter (fun e => !(wtPending s e.2.line)))).head? with
    | some e => put (setMc s (fun m => { m with cuff := tdel m.cuff e.1 }))
    | none => none

/-- A slice's transit register empties into the Cuff. -/
def flushTransit (s : State) (slice : Nat) : Option State :=
  match tget s.mc.transit slice with
  | none => some s
  | some c => (cuffInsert s c).map (fun s => setMc s (fun m => { m with transit := tdel m.transit slice }))

/-- In native mode a way's line leaves it for the transit register (R168). None when it must wait. -/
def evictNative (s : State) (line way : Nat) : Option State :=
  match tget s.mc.ways (wayKey line way) with
  | some l =>
    if !l.valid then some s
    else
      (flushTransit s (mcSlice line)).map (fun s =>
        let s := setMc s (fun m =>
          { m with ways := tdel m.ways (wayKey line way), transit := tput m.transit (mcSlice line) { line := wayLine line l, data := l.data, age := 0 } })
        mcCount s 4 line)
  | none => some s

/-- A line is put into a way. -/
def putWay (s : State) (line way : Nat) (data : Bytes) (lock : Bool) : State :=
  touchWay (setMc s (fun m => { m with ways := tput m.ways (wayKey line way) { tag := mcTag line, lock := lock, data := data } })) line way

/-- A line of the Cuff or in transit is recalled into its set, displacing that set's victim. Where a fill keeps a way of the set, the line takes that
way and the fill the victim's (Table 5.6). -/
def recallLine (s : State) (line : Nat) (data : Bytes) : State :=
  let s := setMc s (fun m =>
    { m with cuff := m.cuff.filter (fun e => !(e.2.valid && e.2.line == line))
             transit := m.transit.filter (fun e => e.2.line != line) })
  let v := victimWay s line
  match evictNative s line v with
  | none => s
  | some s =>
    let s := mcCount s 3 line
    match (keptWays s line).head? with
    | some r =>
      let s := setMc s (fun m => { m with fills := m.fills.map (fun f => if setKey f.line = setKey line ∧ f.wayKept = some r then { f with wayKept := some v } else f) })
      putWay s line r data false
    | none => putWay s line v data false

/-! ## Loads, stores and fills (R166) -/

/-- A miss: the victim is chosen, leaves its way in native mode, and a DRAM fill is asked for. In G2 mode the victim stays until its write-throughs have
reached DRAM. -/
def missLine (s : State) (requester line : Nat) : State :=
  match s.mc.fills.find? (fun f => f.line == line) with
  | some _ =>
    setMc s (fun m => { m with fills := m.fills.map (fun f => if f.line = line then { f with requesters := f.requesters ++ [requester] } else f) })
  | none =>
    let v := victimWay s line
    let ask (s : State) (w : Option Nat) : State :=
      setMc s (fun m => { m with fills := m.fills ++ [{ line := line, requesters := [requester], wayKept := w }] })
    if flag s .mcCtrl 1 then
      let old := match tget s.mc.ways (wayKey line v) with
        | some l => if l.valid then [wayLine line l] else []
        | none => []
      ask (setMc s (fun m => { m with evicting := m.evicting ++ old })) (some v)
    else
      match evictNative s line v with
      | some s => ask s (some v)
      | none => ask s none

/-- A requester gets a line. -/
def serveLine (s : State) (requester line : Nat) (data : Bytes) : State := emit s (.fill requester line data)

/-- MAP_CACHE_LOAD. -/
def mcLoad (s : State) (requester addr : Nat) (ecc : Ecc) : State :=
  let line := addr / 64
  if !(mcServes s addr) then serveLine s requester line (memReads s.mem (line * 64) 64)
  else if s.mc.evicting.contains line then missLine (mcCount s 1 line) requester line
  else
    match findWay s line with
    | some (w, l) =>
      if ecc = .tagParity ∨ l.parityOk = false then missLine (mcCount (mcTagParity s line w l.lock) 1 line) requester line
      else
        match ecc with
        | .uncorrectable syn =>
          let s := mcUncorrected s line syn
          let s := if l.lock then setMc s (fun m => { m with ways := tput m.ways (wayKey line w) { l with valid := false } })
            else setMc s (fun m => { m with ways := tdel m.ways (wayKey line w) })
          setMc s (fun m => { m with fills := m.fills ++ [{ line := line, requesters := [requester], wayKept := some w }] })
        | .corrected syn => serveLine (mcCount (touchWay (mcCorrected s line syn) line w) 0 line) requester line l.data
        | _ => serveLine (mcCount (touchWay s line w) 0 line) requester line l.data
    | none =>
      match (inTransit s line).or ((findCuff s line).map (·.2)) with
      | some c =>
        match ecc with
        | .uncorrectable syn =>
          let s := mcUncorrected s line syn
          let s := setMc s (fun m =>
            { m with cuff := m.cuff.filter (fun e => e.2.line != line), transit := m.transit.filter (fun e => e.2.line != line) })
          missLine s requester line
        | .corrected syn => serveLine (recallLine (mcCorrected s line syn) line c.data) requester line c.data
        | _ => serveLine (recallLine s line c.data) requester line c.data
      | none => missLine (mcCount s 1 line) requester line

def execMapCacheLoad (requester addr : Nat) (ecc : Ecc) (s : State) : Res := .next (mcLoad s requester addr ecc)

/-- Whether a store to a line fits its slice's queue of 128 entries: it merges into the tail entry of the same line. -/
def wtFits (s : State) (line : Nat) : Bool :=
  let q := wtq s (mcSlice line)
  decide (q.length < 128) || ((q.getLast?).map (fun e => e.line == line)).getD false

/-- Bytes of a masked entry with a store laid over them. -/
def maskPut (old : List (Nat × Byte)) (off : Nat) (b : Bytes) : List (Nat × Byte) :=
  b.zipIdx.foldl (fun m x => tput m (off + x.2) x.1) old

/-- A store to one line: the line is updated where present, recalled first from the Cuff, and its write-through is queued. -/
def storeLine (s : State) (addr : Nat) (b : Bytes) : State :=
  let line := addr / 64
  let off := addr % 64
  let s := match findWay s line with
    | some (w, l) => if l.parityOk then s else mcTagParity s line w l.lock
    | none => s
  let s := match findWay s line, (inTransit s line).or ((findCuff s line).map (·.2)) with
    | none, some c => recallLine s line c.data
    | _, _ => s
  let s := match findWay s line with
    | some (w, l) => touchWay (setMc s (fun m => { m with ways := tput m.ways (wayKey line w) { l with data := overlay l.data off b } })) line w
    | none => s
  let q := wtq s (mcSlice line)
  let q' := match q.getLast? with
    | some e => if e.line = line then q.dropLast ++ [{ e with bytes := maskPut e.bytes off b }] else q ++ [{ line := line, bytes := maskPut [] off b }]
    | none => [{ line := line, bytes := maskPut [] off b }]
  mcCount (setMc s (fun m => { m with wtq := tput m.wtq (mcSlice line) q' })) 2 line

/-- A store that stays inside one line: applied, passed to DRAM uncached, or waiting for its slice's queue, behind earlier waiting stores. -/
def mcStoreOne (s : State) (addr : Nat) (b : Bytes) : State :=
  if b.isEmpty then s
  else if !(mcServes s addr) then store s addr b
  else if s.mc.storeWait.any (fun x => mcSlice (x.1 / 64) == mcSlice (addr / 64)) || !(wtFits s (addr / 64)) then
    setMc s (fun m => { m with storeWait := m.storeWait ++ [(addr, b)] })
  else storeLine s addr b

/-- MAP_CACHE_STORE: a store across a line boundary is one store to each line. -/
def execMapCacheStore (addr : Nat) (bytes : Bytes) (s : State) : Res :=
  .next (let n := 64 - addr % 64; mcStoreOne (mcStoreOne s addr (bytes.take n)) (addr + n) (bytes.drop n))

/-- Lines of G2 mode that are still being evicted: unlocked, in the way that a fill waits for. -/
def stillEvicting (s : State) : List Nat :=
  s.mc.evicting.filter (fun d =>
    match findWay s d with
    | some (w, l) => !l.lock && s.mc.fills.any (fun f => setKey f.line == setKey d && f.wayKept == some w)
    | none => false)

/-- MAP_CACHE_FILL: the DRAM read of a line returns, after the queue holds no entry for it and, in G2 mode, for the line it displaces; it is placed in its
way and its requesters are served. -/
def mcFill (s : State) (addr : Nat) : State :=
  let line := addr / 64
  match s.mc.fills.find? (fun f => f.line == line) with
  | none => s
  | some f =>
    if wtPending s line || s.mc.evicting.contains line then s
    else if let some (_, l) := findWay s line then
      forAll f.requesters (fun s r => serveLine s r line l.data) (setMc s (fun m => { m with fills := m.fills.filter (fun x => x.line != line) }))
    else
      let g2 := flag s .mcCtrl 1
      -- a line that was locked since it was chosen is not evicted (R167)
      let spared (w : Nat) : Bool := ((tget s.mc.ways (wayKey line w)).map (fun l => l.lock && l.tag != mcTag line)).getD false
      let w := match f.wayKept with
        | some w => if spared w then victimWay s line else w
        | none => victimWay s line
      let cur := tget s.mc.ways (wayKey line w)
      let lock := (cur.map (fun l => l.lock && l.tag == mcTag line)).getD false
      let displaced : Option Nat := cur.bind (fun l => if l.valid && l.tag != mcTag line then some (wayLine line l) else none)
      let ready : Option State :=
        if g2 then
          match displaced with
          | some d => if wtPending s d then none else some (mcCount s 4 line)
          | none => some s
        else if f.wayKept.isNone then evictNative s line w else some s
      match ready with
      | none => s
      | some s =>
        let data := memReads s.mem (line * 64) 64
        let s := putWay (setMc s (fun m => { m with fills := m.fills.filter (fun x => x.line != line) })) line w data lock
        let s := setMc s (fun m => { m with evicting := stillEvicting s })
        forAll f.requesters (fun s r => serveLine s r line data) s

def execMapCacheFill (addr : Nat) (s : State) : Res := .next (mcFill s addr)

/-- Stores waiting for a queue go in while it has room, in order. -/
def retryStores : Nat → State → State
  | 0, s => s
  | n + 1, s =>
    match s.mc.storeWait.find? (fun x => wtFits s (x.1 / 64)) with
    | none => s
    | some x => retryStores n (storeLine (setMc s (fun m => { m with storeWait := m.storeWait.erase x })) x.1 x.2)

/-- WRITE_THROUGH_DRAIN: the head of a slice's queue reaches DRAM (R166). -/
def execWriteThroughDrain (slice : Nat) (s : State) : Res :=
  .next <|
    match wtq s slice with
    | [] => s
    | e :: r =>
      let s := forAll e.bytes (fun s x => store s (e.line * 64 + x.1) [x.2]) s
      retryStores s.mc.storeWait.length (setMc s (fun m => { m with wtq := tput m.wtq slice r }))

/-! ## The range engine (R172, R173) -/

/-- A range command is queued with the range registers; with one executing and 4 waiting it is refused. -/
def rangeCmd (s : State) (op tag : Nat) (spare : Bool) : State :=
  if op = 0 then s
  else if 5 ≤ s.mc.rangeQ.length then setBit s .mcEvent 6
  else setMc s (fun m =>
    { m with rangeQ := m.rangeQ ++ [{ op := op, base := fld s .mcRangeBase 40 6, lines := fld s .mcRangeLines 31 0, tag := tag, spare := spare }] })

/-- INVALIDATE. -/
def execInvalidate (tag : Nat) (spareLocked : Bool) (s : State) : Res := .next (rangeCmd s 1 tag spareLocked)

/-- PREFETCH. -/
def execPrefetch (tag : Nat) (s : State) : Res := .next (rangeCmd s 2 tag false)

/-- LOCK. -/
def execLock (tag : Nat) (s : State) : Res := .next (rangeCmd s 3 tag false)

/-- UNLOCK. -/
def execUnlock (tag : Nat) (s : State) : Res := .next (rangeCmd s 4 tag false)

/-- VERIFY. -/
def execVerify (tag : Nat) (s : State) : Res := .next (rangeCmd s 5 tag false)

/-- Counts of the operation under way: lines changed, dropped, skipped. -/
structure RangeCount where
  affected : Nat := 0
  dropped : Nat := 0
  skipped : Nat := 0
deriving DecidableEq, Repr

/-- A line is dropped from the Cuff and its slice's transit register. -/
def dropCuff (s : State) (line : Nat) : State :=
  setMc s (fun m => { m with cuff := m.cuff.filter (fun e => e.2.line != line), transit := m.transit.filter (fun e => e.2.line != line) })

/-- INVALIDATE of one line. -/
def rangeInvalidate (s : State) (c : RangeCount) (line : Nat) (spare : Bool) : State × RangeCount :=
  match findWay s line with
  | some (w, l) =>
    if l.lock && spare then (s, { c with skipped := sat16 (c.skipped + 1) })
    else
      let s := setMc s (fun m => { m with ways := tdel m.ways (wayKey line w) })
      if l.lock then (mcCount (setBit s .mcEvent 3) 10 line, { c with affected := c.affected + 1, dropped := sat16 (c.dropped + 1) })
      else (s, { c with affected := c.affected + 1 })
  | none =>
    if (inTransit s line).isSome || (findCuff s line).isSome then (dropCuff s line, { c with affected := c.affected + 1 }) else (s, c)

/-- A line is filled from DRAM, or recalled, so that its set holds it. Answers whether it changed. -/
def rangeBring (s : State) (line : Nat) (cuffed : Bool) : State × Bool :=
  match findWay s line with
  | some _ => (s, false)
  | none =>
    match (inTransit s line).or ((findCuff s line).map (·.2)) with
    | some c => if cuffed then (recallLine s line c.data, true) else (s, false)
    | none =>
      let v := victimWay s line
      let room :=
        if flag s .mcCtrl 1 then
          let s' := setMc s (fun m => { m with ways := tdel m.ways (wayKey line v) })
          some (if ((tget s.mc.ways (wayKey line v)).map (·.valid)).getD false then mcCount s' 4 line else s')
        else evictNative s line v
      match room with
      | some s => (putWay s line v (dramLine s line) false, true)
      | none => (s, false)

/-- Locked ways of a line's set. -/
def lockedWays (s : State) (line : Nat) : Nat :=
  ((List.range 16).filter (fun w => ((tget s.mc.ways (wayKey line w)).map (·.lock)).getD false)).length

/-- LOCK of one line (R167). -/
def rangeLock (s : State) (c : RangeCount) (line : Nat) : State × RangeCount :=
  let (s, moved) := rangeBring s line true
  match findWay s line with
  | some (w, l) =>
    if l.lock then (s, c)
    else if 8 ≤ lockedWays s line then
      (mcCount (setBit (setMc s (fun m => { m with lockRefused := sat16 (m.lockRefused + 1) })) .mcEvent 4) 9 line,
        { c with affected := c.affected + if moved then 1 else 0 })
    else (setMc s (fun m => { m with ways := tput m.ways (wayKey line w) { l with lock := true } }), { c with affected := c.affected + 1 })
  | none => (s, c)

/-- VERIFY of one line with what SECDED finds (R173, R174). -/
def rangeVerify (s : State) (c : RangeCount) (line : Nat) (ecc : Ecc) : State × RangeCount :=
  match findWay s line with
  | some (w, l) =>
    if ecc = .tagParity ∨ l.parityOk = false then (mcTagParity s line w l.lock, { c with affected := c.affected + 1 })
    else
      match ecc with
      | .corrected syn => (mcCorrected s line syn, { c with affected := c.affected + 1 })
      | .uncorrectable syn =>
        let s := mcUncorrected s line syn
        let s := if l.lock then setMc s (fun m => { m with ways := tput m.ways (wayKey line w) { l with data := dramLine s line } })
          else setMc s (fun m => { m with ways := tdel m.ways (wayKey line w) })
        (s, { c with affected := c.affected + 1 })
      | _ => (s, c)
  | none =>
    if (inTransit s line).isSome || (findCuff s line).isSome then
      match ecc with
      | .corrected syn => (mcCorrected s line syn, { c with affected := c.affected + 1 })
      | .uncorrectable syn => (dropCuff (mcUncorrected s line syn) line, { c with affected := c.affected + 1 })
      | _ => (s, c)
    else (s, c)

/-- One line of an operation. -/
def rangeLine (op : RangeOp) (eccs : List (Nat × Ecc)) (a : State × RangeCount) (line : Nat) : State × RangeCount :=
  match op.op with
  | 1 => rangeInvalidate a.1 a.2 line op.spare
  | 2 =>
    let r := rangeBring a.1 line false
    (r.1, { a.2 with affected := a.2.affected + if r.2 then 1 else 0 })
  | 3 => rangeLock a.1 a.2 line
  | 4 =>
    match findWay a.1 line with
    | some (w, l) =>
      if l.lock then (setMc a.1 (fun m => { m with ways := tput m.ways (wayKey line w) { l with lock := false } }), { a.2 with affected := a.2.affected + 1 })
      else a
    | none => a
  | 5 => rangeVerify a.1 a.2 line (((eccs.find? (fun e => e.1 == line)).map (·.2)).getD .ok)
  | _ => a

/-- RANGE_OP_COMPLETE: the operation at the head has gone through its lines in ascending order; one under fill is waited for (R172, R173). -/
def execRangeOpComplete (eccs : List (Nat × Ecc)) (s : State) : Res :=
  .next <|
    match s.mc.rangeQ with
    | [] => s
    | op :: rest =>
      if s.mc.fills.any (fun f => decide (op.base ≤ f.line ∧ f.line < op.base + op.lines)) then s
      else
        let lines := (List.range op.lines).map (op.base + ·) |>.filter (fun l => mcServes s (l * 64))
        let (s, c) := lines.foldl (rangeLine op eccs) (s, {})
        setBit (setMc s (fun m =>
          { m with rangeQ := rest, lastTag := op.tag, affected := c.affected, dropped := c.dropped, skipped := c.skipped })) .mcEvent 5

/-! ## Disabling and the diagnostic window -/

/-- CACHE_DISABLE: write-throughs drain, waiting stores and fills go to DRAM, every line, Cuff entry and lock goes, and IDLE reads 1 (R170). -/
def mcDisable (s : State) : State :=
  let s := clearBit s .mcCtrl 0
  let s := forAll s.mc.wtq (fun s q => forAll q.2 (fun s e => forAll e.bytes (fun s x => store s (e.line * 64 + x.1) [x.2]) s) s) s
  let s := forAll s.mc.storeWait (fun s x => store s x.1 x.2) s
  let s := forAll s.mc.fills (fun s f => forAll f.requesters (fun s r => serveLine s r f.line (memReads s.mem (f.line * 64) 64)) s) s
  setMc s (fun m => { m with ways := [], plru := [], cuff := [], transit := [], wtq := [], storeWait := [], fills := [], evicting := [] })

def execCacheDisable (s : State) : Res := .next (mcDisable s)

/-- A tag entry's 22 bits: TAG, VALID, LOCK, PARITY, even over the others while the entry is sound. -/
def tagBits (l : McLine) : Nat :=
  let b := l.tag % 2 ^ 19 + (if l.valid then 2 ^ 19 else 0) + (if l.lock then 2 ^ 20 else 0)
  let odd := ((List.range 21).filter (fun i => b / 2 ^ i % 2 == 1)).length % 2
  let p := if l.parityOk then odd else 1 - odd
  b + p * 2 ^ 21

/-- A tag entry from its bits. -/
def tagFrom (l : McLine) (v : Nat) : McLine :=
  let l := { l with tag := v % 2 ^ 19, valid := v / 2 ^ 19 % 2 == 1, lock := v / 2 ^ 20 % 2 == 1 }
  { l with parityOk := tagBits { l with parityOk := true } == v % 2 ^ 22 }

/-- What a diagnostic offset names: the data of a way, a tag, a Cuff entry's data or tag, each with its index and the word of its line. -/
inductive DiagPlace where
  | data (key word : Nat) | tag (key : Nat) | cuffData (entry word : Nat) | cuffTag (entry : Nat) | nothing
deriving DecidableEq, Repr

def diagPlace (off : Nat) : DiagPlace :=
  if off < 0x4000000 then .data ((off / 0x1000000 * 16384 + off % 0x1000000 / 0x400) * 16 + off % 0x400 / 0x40) (off % 0x40 / 8)
  else if 0x10000000 ≤ off ∧ off < 0x10800000 then .tag ((off - 0x10000000) / 8)
  else if 0x20000000 ≤ off ∧ off < 0x20008000 then .cuffData ((off - 0x20000000) / 0x40) (off % 0x40 / 8)
  else if 0x20010000 ≤ off ∧ off < 0x20011000 then .cuffTag ((off - 0x20010000) / 8)
  else .nothing

def blankLine : McLine := { tag := 0, valid := false, data := zeros 64 }
def blankCuff : CuffLine := { line := 0, valid := false, data := zeros 64, age := 0 }

/-- A read of the window: stored bits without correction (R175). -/
def diagRead (s : State) (off : Nat) : Word :=
  match diagPlace off with
  | .data k w => BitVec.ofNat 64 (fieldAt ((tget s.mc.ways k).getD blankLine).data (8 * w) 8)
  | .tag k => BitVec.ofNat 64 (tagBits ((tget s.mc.ways k).getD blankLine))
  | .cuffData e w => BitVec.ofNat 64 (fieldAt ((tget s.mc.cuff e).getD blankCuff).data (8 * w) 8)
  | .cuffTag e =>
    let c := (tget s.mc.cuff e).getD blankCuff
    BitVec.ofNat 64 (c.line % 2 ^ 35 + if c.valid then 2 ^ 35 else 0)
  | .nothing => 0

/-- A write of the window, accepted only while the cache is disabled (R175). -/
def diagWrite (s : State) (off : Nat) (v : Word) : State :=
  if flag s .mcCtrl 0 then cfgReject s .mcCtrl
  else
    let way (k : Nat) (f : McLine → McLine) : State := setMc s (fun m => { m with ways := tput m.ways k (f ((tget m.ways k).getD blankLine)) })
    let cuff (e : Nat) (f : CuffLine → CuffLine) : State := setMc s (fun m => { m with cuff := tput m.cuff e (f ((tget m.cuff e).getD blankCuff)) })
    match diagPlace off with
    | .data k w => way k (fun l => { l with data := overlay l.data (8 * w) (leBytes 8 v.toNat) })
    | .tag k => way k (fun l => tagFrom l v.toNat)
    | .cuffData e w => cuff e (fun c => { c with data := overlay c.data (8 * w) (leBytes 8 v.toNat) })
    | .cuffTag e => cuff e (fun c => { c with line := v.toNat % 2 ^ 35, valid := v.getLsbD 35 })
    | .nothing => s

/-- DIAG_WINDOW_ACCESS. -/
def execDiagWindowAccess (off : Nat) (write : Option Word) (s : State) : Res :=
  .next <|
    match write with
    | some v => diagWrite s off v
    | none => emit s (.regData 0 (diagRead s off))

end Sys2Proof.Machine
end

