-- ==== Sys2Proof/Machine/Mover.lean ====
section
/-! DEFINITION. The Data Movers (R294 to R306) and FABRIC_PORT_DOWN (R187). -/

namespace Sys2Proof.Machine

def movAt (s : State) (c : Nat) : MovCh := (tget s.mov c).getD {}
def setMov (s : State) (c : Nat) (f : MovCh → MovCh) : State := { s with mov := tput s.mov c (f (movAt s c)) }

/-- The half of a channel (R294), and whether it is enabled. -/
def movHalf (c : Nat) : Nat := c / 32
def movOn (s : State) (half : Nat) : Bool := flag s .movCtrl 0 && flag s .movCtrl (1 + half)

/-! ## Descriptor fields (Tables 11.1, 11.2) -/

def MovDesc.dstSpace (d : MovDesc) : Nat := d.flags / 2 ^ 10 % 4
def MovDesc.srcSpace (d : MovDesc) : Nat := d.flags / 2 ^ 8 % 4
def MovDesc.noWrite (d : MovDesc) : Bool := d.flags / 2 ^ 6 % 2 == 1
def MovDesc.storeCrc (d : MovDesc) : Bool := d.flags / 2 ^ 5 % 2 == 1
def MovDesc.crcCont (d : MovDesc) : Bool := d.flags / 2 ^ 4 % 2 == 1
def MovDesc.crcMode (d : MovDesc) : Nat := d.flags / 4 % 4
def MovDesc.intr (d : MovDesc) : Bool := d.flags / 2 % 2 == 1
def MovDesc.barrier (d : MovDesc) : Bool := d.flags % 2 == 1

/-- Bytes of the checksum store, and where it goes (R299). -/
def crcSize (d : MovDesc) : Nat := if d.crcMode = 1 then 4 else 8
def crcDest (d : MovDesc) : Nat := if d.noWrite then d.dst else d.dst + d.length

/-- The destination range with the checksum store: first address and bytes. -/
def dstRange (d : MovDesc) : Nat × Nat :=
  (d.dst, (if d.noWrite then 0 else d.length) + (if d.storeCrc then crcSize d else 0))

/-- A descriptor from its 32 bytes (Table 11.1). -/
def parseDesc (b : Bytes) : MovDesc :=
  { src := fieldAt b 0 8, dst := fieldAt b 8 8, length := fieldAt b 16 4, flags := fieldAt b 20 2, tag := fieldAt b 22 2, next := fieldAt b 24 8 }

/-! ## Load checks (R296, Table 11.3) -/

/-- Regions a Mover may use: 0 DRAM, 1 cell buffer, 2 Hatbox MRAM; none for any other or for a range that leaves one. -/
def movRegion (a n : Nat) : Option Nat :=
  if a + n ≤ Config.installedDramGib * 2 ^ 30 ∧ a + n ≤ 2 ^ 41 then some 0
  else if 0x80000000000 ≤ a ∧ a + n ≤ 0x8000C000000 then some 1
  else if 0xA0000000000 ≤ a ∧ a + n ≤ 0xA0020000000 then some 2
  else none

/-- The mode of a channel's running checksum; none before its first checksumming descriptor. -/
def crcModeOf (c : MovCrc) : Option Nat :=
  match c with
  | .none => Option.none
  | .crc32c _ => some 1
  | .crc64 _ => some 2

/-- The mode of the running checksum that a descriptor loaded now would continue: that of the last loaded descriptor that checksums, whose bytes
may still be on their way, else that of the channel's own state (R296, R298). Before a channel's first checksumming descriptor, and after CLEAR or a
halt, the state has no mode, and CRC_CONTINUE is accepted with any (DESIGN CHOICE, log entry 29). -/
def runningMode (ch : MovCh) : Option Nat :=
  match (ch.jobs.filter (fun j => j.desc.crcMode != 0)).getLast? with
  | some j => some j.desc.crcMode
  | none => crcModeOf ch.crc

def formatBad (ch : MovCh) (d : MovDesc) : Bool :=
  d.flags / 2 ^ 12 != 0 || d.flags / 2 ^ 7 % 2 == 1 || d.crcMode == 3 || d.srcSpace == 3 || d.dstSpace == 3 || d.length == 0
    || (d.storeCrc && d.crcMode == 0) || (d.noWrite && !d.storeCrc)
    || (d.crcCont && (match runningMode ch with
                      | some m => m != d.crcMode
                      | none => false))
    || (d.srcSpace == 0 && decide (2 ^ 48 ≤ d.src)) || (d.dstSpace == 0 && decide (2 ^ 48 ≤ d.dst))

def regionBad (d : MovDesc) : Bool :=
  (d.srcSpace == 0 && (movRegion d.src d.length).isNone)
    || (d.dstSpace == 0 && (match movRegion (dstRange d).1 (dstRange d).2 with
                            | some r => r == 2
                            | none => true))

def overlapBad (d : MovDesc) : Bool :=
  d.srcSpace == 0 && d.dstSpace == 0 && decide (d.src < (dstRange d).1 + (dstRange d).2) && decide ((dstRange d).1 < d.src + d.length)

/-- Master Enable of the function a space names. -/
def spaceMe (s : State) (space : Nat) : Bool := if space = 1 then fnLive s.sep.pf0 else if space = 2 then fnLive s.sep.pf1 else true

/-- The error of the first check that fails. -/
def loadError (s : State) (ch : MovCh) (d : MovDesc) : Option Nat :=
  if formatBad ch d then some 1
  else if d.src % 8 ≠ 0 ∨ d.dst % 8 ≠ 0 ∨ d.length % 8 ≠ 0 then some 2
  else if regionBad d then some 3
  else if overlapBad d then some 4
  else if !(spaceMe s d.srcSpace) || !(spaceMe s d.dstSpace) then some 8
  else none

/-! ## Halting and loading -/

/-- A channel halts with an error: its bit in MOV_ERR_PEND, CH_ERROR when the register was 0, its running checksum reset (R298, R302). -/
def movHalt (s : State) (c err : Nat) : State :=
  let done := (((movAt s c).jobs.head?).map (·.written)).getD (movAt s c).bytesDone
  let s := setMov s c (fun ch =>
    { ch with state := .halted, err := err, bytesDone := done, jobs := [], next := none, pendErr := none, outstanding := [], stopped := false
              inHandOver := false, armStart := false, armAgain := false, stopInHandOver := false, crc := .none })
  let was := bankGet s .movErrPend
  let s := count (setBit s .movErrPend c) (0x643 + err)
  if was = 0 then setBit s .movEvent 1 else s

/-- A descriptor that passed its checks becomes the channel's current one. -/
def movLoad (s : State) (c : Nat) (d : MovDesc) (fromShadow : Bool) (addr : Nat) : State :=
  setMov s c (fun ch =>
    { ch with state := .running, jobs := ch.jobs ++ [{ desc := d }], next := none, fromShadow := fromShadow, cur := if fromShadow then 0 else addr
              bytesDone := 0, waitFrom := nowOf s })

/-- The checksum before a descriptor's first byte (R298). -/
def crcBegin (ch : MovCh) (d : MovDesc) : MovCrc :=
  if d.crcMode = 0 then ch.crc
  else
    match d.crcCont, ch.crc with
    | true, .crc32c x => .crc32c x
    | true, .crc64 x => .crc64 x
    | _, _ => if d.crcMode = 1 then .crc32c 0xFFFFFFFF#32 else .crc64 0xFFFFFFFFFFFFFFFF#64

def crcFold (c : MovCrc) (b : Bytes) : MovCrc :=
  match c with
  | .none => .none
  | .crc32c x => .crc32c (b.foldl crc32cByte x)
  | .crc64 x => .crc64 (b.foldl crc64Byte x)

def crcEnd (c : MovCrc) : Word :=
  match c with
  | .none => 0
  | .crc32c x => (x ^^^ 0xFFFFFFFF#32).zeroExtend 64
  | .crc64 x => x ^^^ 0xFFFFFFFFFFFFFFFF#64

/-! ## Shadow registers and hand-over (R303 to R305) -/

/-- SHADOW_WRITE: refused with SHADOW_BUSY while SHADOW_ARM read 1 at the start of the cycle; `reg` 0 SRC, 1 DST, 2 CTRL, 3 NEXT. -/
def shadowPut (s : State) (c reg : Nat) (v : Word) : State :=
  let ch := movAt s c
  if (if ch.inHandOver then ch.armStart else ch.arm) then
    count (setBit (setMov s c (fun ch => { ch with shadowBusy := true })) .movEvent 2) 0x64E
  else
    setMov s c (fun ch =>
      { ch with shadow :=
          match reg with
          | 0 => { ch.shadow with src := v.toNat }
          | 1 => { ch.shadow with dst := v.toNat }
          | 2 => { ch.shadow with length := bits v 63 32, tag := bits v 31 16, flags := bits v 15 0 }
          | _ => { ch.shadow with next := v.toNat } })

def execShadowWrite (ch reg : Nat) (value : Word) (s : State) : Res := .next (shadowPut s ch reg value)

/-- A write of 1 to SHADOW_ARM; one that carries DISARM too is ignored with CFG_REJECT (R304). -/
def armCh (s : State) (c : Nat) (withDisarm : Bool) : State :=
  if withDisarm then cfgReject s .movCtrl
  else setMov s c (fun ch => { ch with arm := true, armAgain := ch.armAgain || (ch.inHandOver && ch.armStart) })

def execShadowArm (ch : Nat) (withDisarm : Bool) (s : State) : Res := .next (armCh s ch withDisarm)

/-- DISARM. -/
def disarmCh (s : State) (c : Nat) : State := setMov s c (fun ch => { ch with arm := false, armAgain := false })

def execDisarm (ch : Nat) (s : State) : Res := .next (disarmCh s ch)

/-- STOP: a RUNNING channel issues no further request; in a hand-over cycle no hand-over takes place (R305). -/
def stopCh (s : State) (c : Nat) : State :=
  setMov s c (fun ch =>
    if ch.inHandOver then { ch with stopInHandOver := true } else if ch.state == .running then { ch with stopped := true } else ch)

def execStop (ch : Nat) (s : State) : Res := .next (stopCh s ch)

/-- STOP_DRAINED. -/
def execStopDrained (ch : Nat) (s : State) : Res :=
  .next <| if (movAt s ch).stopped && (movAt s ch).outstanding.isEmpty then movHalt s ch 9 else s

/-- CLEAR: a HALTED channel becomes IDLE, its error and running checksum reset (R305). -/
def clearCh (s : State) (c : Nat) : State :=
  if (movAt s c).state = .halted then setMov s c (fun ch => { ch with state := .idle, err := 0, crc := .none }) else s

def execClear (ch : Nat) (s : State) : Res := .next (clearCh s ch)

/-- The armed shadow descriptor is taken: it becomes active, SHADOW_ARM clears, and its load checks apply (R296, R303). -/
def takeShadow (s : State) (c : Nat) : State :=
  let again := (movAt s c).armAgain
  let s := setMov s c (fun ch => { ch with arm := again, armAgain := false, armStart := false, inHandOver := false, state := .running, fromShadow := true, cur := 0, bytesDone := 0 })
  let ch := movAt s c
  match loadError s ch ch.shadow with
  | some e => movHalt s c e
  | none => movLoad s c ch.shadow true 0

/-- SHADOW_HAND_OVER: the end of a hand-over cycle (R303, R305). -/
def execShadowHandOver (ch : Nat) (s : State) : Res :=
  .next <|
    let x := movAt s ch
    if x.inHandOver then
      if x.stopInHandOver then movHalt s ch 9
      else if x.arm && movOn s (movHalf ch) then takeShadow s ch
      else setMov s ch (fun y => { y with inHandOver := false, armStart := false, armAgain := false, state := .idle })
    else if x.state = .idle ∧ x.arm = true ∧ movOn s (movHalf ch) = true then takeShadow s ch
    else s

/-- NEXT_FETCH: the descriptor named by NEXT. A bad NEXT or a failed fetch halts the channel with DESC, and a descriptor that fails its checks with its
error, once the loaded descriptors have completed (R296, R297). -/
def execNextFetch (ch : Nat) (ok : Bool) (s : State) : Res :=
  .next <|
    let x := movAt s ch
    match x.next with
    | none => s
    | some n =>
      if x.state ≠ .running ∨ x.stopped = true then s
      else
        let fail (err addr : Nat) : State :=
          let s := setMov s ch (fun y => { y with next := none, pendErr := some (err, addr) })
          if x.jobs.isEmpty then setMov (movHalt s ch err) ch (fun y => { y with cur := addr, fromShadow := y.fromShadow && err == 5, bytesDone := if err = 5 then y.bytesDone else 0 })
          else s
        if n % 32 ≠ 0 ∨ ok = false ∨ Config.installedDramGib * 2 ^ 30 < n + 32 ∨ 2 ^ 41 < n + 32 then fail 5 x.cur
        else
          let d := parseDesc (memReads s.mem n 32)
          match loadError s x d with
          | some e => fail e n
          | none => movLoad s ch d false n

/-! ## Reads, writes, completion (R298 to R302, R306) -/

/-- A channel has a read ready: RUNNING, not stopped, its current descriptor not fully requested, its barrier lifted (R300, R306). -/
def readReady (ch : MovCh) : Bool :=
  match ch.jobs.getLast? with
  | some j => ch.state == .running && !ch.stopped && decide (j.requested < j.desc.length) && (!j.desc.barrier || ch.jobs.length == 1)
  | none => false

/-- Effective priority (R306). -/
def effPrio (s : State) (ch : MovCh) : Nat :=
  if fld s .movCtrl 23 8 * 1000 ≤ nowOf s - ch.waitFrom then ch.prio - 1 else ch.prio

/-- MOVER_READ_GRANT: one read of at most 4 KiB within a 4 KiB page of the source, for the channel of numerically lowest effective priority, then
of lowest number; at most 256 reads of the half outstanding, at fabric priority 2 (R294, R306). -/
def execMoverReadGrant (half : Nat) (s : State) : Res :=
  .next <|
    let mine := s.mov.filter (fun e => movHalf e.1 == half)
    let out := (mine.map (fun e => e.2.outstanding.length)).sum
    if !(movOn s half) || decide (256 ≤ out) then s
    else
      match (sortBy (fun a b => decide (effPrio s a.2 ≤ effPrio s b.2)) (mine.filter (fun e => readReady e.2))).head? with
      | none => s
      | some (c, ch) =>
        match ch.jobs.getLast? with
        | none => s
        | some j =>
          let a := j.desc.src + j.requested
          let n := min (4096 - a % 4096) (j.desc.length - j.requested)
          let j' := { j with requested := j.requested + n }
          let s := setMov s c (fun ch =>
            { ch with jobs := ch.jobs.dropLast ++ [j'], outstanding := ch.outstanding ++ [n], waitFrom := nowOf s
                      next := if j'.requested = j.desc.length ∧ j.desc.next ≠ 0 then some j.desc.next else none })
          emit s (.moverRead c a n 2)

/-- Bytes written to a destination: DRAM or the cell buffer, or host memory through a function, with Relaxed Ordering where the function enables it,
but never on a descriptor's last write (R351). -/
def movWrite (s : State) (space a : Nat) (b : Bytes) (last : Bool) : State :=
  if space = 0 then store s a b else emit s (.hostWrite (space - 1) a b ((sepFn s (space - 1)).relaxed && !last))

/-- MOVER_DATA_RETURN: the oldest outstanding read of a channel returns. A completion that a function's Master Enable or reset has overtaken is discarded
with LATE_CPL (R352). Else its bytes are checksummed and written, and after the last one the checksum is
stored (R298, R299). An internal source gives its own bytes, the Hatbox MRAM as log entry 16 says; a host's are the command's. -/
def movReturn (s : State) (c : Nat) (r : MoverRead) : State :=
  let ch := movAt s c
  if ch.late ≠ 0 then count (setBit (setMov s c (fun ch => { ch with late := ch.late - 1 })) .sepEvent 7) 0x7C1 else
  match ch.outstanding, ch.jobs.findIdx? (fun j => decide (j.returned < j.desc.length)) with
  | n :: rest, some i =>
    match ch.jobs[i]?, r with
    | some j, .poison =>
      let s := if j.desc.srcSpace = 0 ∧ movRegion j.desc.src j.desc.length = some 0 then dramError s (j.desc.src + j.returned) 2 else s
      movHalt (count (setBit s .fabEvent 6) 0x1E2) c 6
    | some _, .hostError => movHalt s c 7
    | some j, .ok data =>
      let d := j.desc
      let got : State × Bytes :=
        if d.srcSpace != 0 then (s, padTo n data)
        else if movRegion d.src d.length = some 2 then mramRead s (d.src + j.returned - 0xA0000000000) n
        else (s, memReads s.mem (d.src + j.returned) n)
      let s := got.1
      let b := got.2
      let start := if j.returned = 0 then crcBegin ch d else ch.crc
      let crc := if d.crcMode = 0 then ch.crc else crcFold start b
      let ret := j.returned + n
      let last := decide (d.length ≤ ret)
      let s := if d.noWrite then s else movWrite s d.dstSpace (d.dst + j.returned) b (last && !d.storeCrc)
      let s := if last && d.storeCrc then movWrite s d.dstSpace (crcDest d) (leBytes (crcSize d) (crcEnd crc).toNat) true else s
      let j' := { j with returned := ret, written := if d.noWrite then 0 else ret, crcVal := if last && d.crcMode != 0 then some (crcEnd crc) else none }
      let s := setMov s c (fun ch => { ch with outstanding := rest, crc := crc, jobs := ch.jobs.set i j' })
      countBy s (0x640 + movHalf c) (ret / 64 - j.returned / 64)
    | none, _ => s
  | _, _ => s

def execMoverDataReturn (ch : Nat) (r : MoverRead) (s : State) : Res := .next (movReturn s ch r)

/-- DESCRIPTOR_COMPLETE: the oldest descriptor's writes are final (R300, R301). With NEXT 0 the cycle is a hand-over cycle (R303). -/
def execDescriptorComplete (ch : Nat) (s : State) : Res :=
  .next <|
    let x := movAt s ch
    match x.jobs with
    | [] => s
    | j :: rest =>
      if j.returned < j.desc.length then s
      else
        let s := setMov s ch (fun y =>
          { y with jobs := rest, completed := (y.completed + 1) % 2 ^ 16, lastTag := j.desc.tag, crcFinal := (j.crcVal).getD y.crcFinal, bytesDone := j.written })
        let s := count s (0x642 + movHalf ch)
        let was := bankGet s .movDonePend
        let s := if j.desc.intr then setBit s .movDonePend ch else s
        let s := if j.desc.intr && was == 0 then setBit s .movEvent 0 else s
        if !rest.isEmpty || x.next.isSome then s
        else
          match x.pendErr with
          | some (err, addr) =>
            setMov (movHalt s ch err) ch (fun y => { y with cur := addr, fromShadow := y.fromShadow && err == 5, bytesDone := if err = 5 then j.written else 0 })
          | none =>
            if x.stopped then s else setMov s ch (fun y => { y with inHandOver := true, armStart := y.arm })

/-- COMPLETION_TIMEOUT: a host read of a channel gets no completion (R302); one already overtaken frees its tag (R353). -/
def execCompletionTimeout (ch : Nat) (s : State) : Res :=
  .next <|
    if (movAt s ch).late ≠ 0 then setMov s ch (fun x => { x with late := x.late - 1 }) else
    match (movAt s ch).outstanding, (movAt s ch).jobs.find? (fun j => decide (j.returned < j.desc.length)) with
    | _ :: _, some j => if j.desc.srcSpace = 0 then s else movHalt s ch 7
    | _, _ => s

/-! ## Halts from outside -/

/-- Every running channel of a half halts with PORT_DOWN; a HALTED one has halted already and keeps its error (R294). -/
def halfDown (s : State) (half : Nat) : State :=
  forAll (s.mov.filter (fun e => movHalf e.1 == half && e.2.state == .running)) (fun s e => movHalt s e.1 10) s

/-- The source space of the descriptor whose outstanding bytes hold an offset. -/
def jobSpaceAt : List MovJob → Nat → Nat
  | [], _ => 0
  | j :: r, off => if off < j.requested - j.returned then j.desc.srcSpace else jobSpaceAt r (off - (j.requested - j.returned))

/-- Outstanding reads of a space, from a list of read lengths that starts at an offset. -/
def readsOf (jobs : List MovJob) (space off : Nat) : List Nat → Nat
  | [] => 0
  | n :: r => (if jobSpaceAt jobs off = space then 1 else 0) + readsOf jobs space (off + n) r

/-- Master Enable of a function is cleared, or the function resets: running channels whose descriptors name it halt, and the completions of its
outstanding reads will be discarded (R302, R352). -/
def busMasterOff (s : State) (space : Nat) : State :=
  forAll (s.mov.filter (fun e => e.2.state == .running && e.2.jobs.any (fun j => j.desc.srcSpace == space || j.desc.dstSpace == space)))
    (fun s e => setMov (movHalt s e.1 8) e.1 (fun ch => { ch with late := ch.late + readsOf e.2.jobs space 0 e.2.outstanding })) s

/-- A fabric port goes down: its cells are flushed, and a Mover half behind it halts (R187, R294). -/
def fabPortDown (s : State) (port : Nat) : State :=
  let s := portDown s port
  if port = 140 then halfDown s 0 else if port = 141 then halfDown s 1 else s

/-- FABRIC_PORT_DOWN. -/
def execFabricPortDown (port : Nat) (s : State) : Res := .next (fabPortDown s port)

end Sys2Proof.Machine
end

