-- ==== Sys2Proof/Machine/Mailbox.lean ====
section
/-! DEFINITION. Mailbox channels, ordering, operations, the I3C and in-band transports (R271 to R279), and the identity group (R281). -/

namespace Sys2Proof.Machine

/-! ## Messages (Table 10.3) -/

/-- A mailbox message: the 32-byte header with its CRC, and the payload. `flags` is 1 on a response. -/
def mbxMessage (flags opcode tag status gen op : Nat) (pay : Bytes) : Bytes :=
  let h := pack 28 [(0, 4, 0x4D424F58), (4, 1, 1), (5, 1, flags), (6, 2, opcode), (8, 2, tag), (10, 2, status), (12, 4, pay.length), (16, 8, gen), (24, 4, op)]
  h ++ leBytes 4 (crc32c (h ++ pay)).toNat ++ pay

/-- Fields of a request. -/
def reqOpcode (b : Bytes) : Nat := fieldAt b 6 2
def reqTag (b : Bytes) : Nat := fieldAt b 8 2
def reqLength (b : Bytes) : Nat := fieldAt b 12 4
def reqGen (b : Bytes) : Nat := fieldAt b 16 8
def reqPay (b : Bytes) : Bytes := (padTo (32 + reqLength b) b).drop 32

/-- Opcode groups of Table 10.4 and how many opcodes each has. -/
def opcodeCounts : List (Nat × Nat) := [(1, 3), (2, 9), (3, 5), (4, 5), (5, 2), (6, 5), (7, 7), (8, 4), (9, 3), (0xA, 4)]

/-- Whether an opcode stands in Table 10.4. -/
def opcodeKnown (op : Nat) : Bool := opcodeCounts.any (fun g => g.1 == op / 256 && decide (op % 256 < g.2))

/-- Commands of kind Q (Table 10.4). -/
def isQuery (op : Nat) : Bool :=
  [0x100, 0x101, 0x102, 0x204, 0x207, 0x303, 0x400, 0x500, 0x603, 0x800, 0x801, 0x900, 0xA01].contains op

/-- Groups that Safe Mode serves (R277). -/
def safeGroup (g : Nat) : Bool := g == 1 || g == 6 || g == 8 || g == 9 || g == 0xA

/-! ## Channels (R271, R273) -/

def chanAt (s : State) (c : Nat) : Chan := (tget s.ctl.chans c).getD {}

def setChan (s : State) (c : Nat) (f : Chan → Chan) : State :=
  { s with ctl := { s.ctl with chans := tput s.ctl.chans c (f (chanAt s c)) } }

/-- Lowest bit of the transport's groups in CTL_MBX_CFG (Table 10.13). -/
def groupBase (r : Route) : Nat :=
  match r with
  | .pf0 => 0
  | .i3c _ _ => 16
  | .inband _ _ _ _ _ _ => 32

/-- Whether REG_WRITE is served on a transport (R277). -/
def diagWriteAllowed (s : State) (r : Route) : Bool :=
  match r with
  | .inband _ _ _ _ _ _ => false
  | _ => shelfPol s 0x50 == 1

/-- What completes a request before it executes (R276, R277): its status, and whether FRAME_BAD is set. -/
def frameCheck (s : State) (h : Chan) : Option (Nat × Bool) :=
  let b := h.req
  let g := reqOpcode b / 256
  let len := reqLength b
  let crcOk := decide (len ≤ 4064) && (crc32c (padTo 28 b ++ reqPay b)).toNat == fieldAt b 28 4
  if fieldAt b 0 4 ≠ 0x4D424F58 then some (2, true)
  else if 4064 < len ∨ (h.received.map (fun n => n != 32 + len)).getD false then some (2, false)
  else if !crcOk then some (2, true)
  else if fieldAt b 4 1 ≠ 1 then some (4, false)
  else if !(opcodeKnown (reqOpcode b)) then some (3, false)
  else if g ≠ 1 ∧ !(flag s .ctlMbxCfg (groupBase h.route + g - 1)) then some (8, false)
  else if reqOpcode b = 0xA02 ∧ !(diagWriteAllowed s h.route) then some (8, false)
  else if s.ctl.safeMode && !(safeGroup g) then some (9, false)
  else none

/-- An in-band datagram's payload under the device's MAC (R279). -/
def inbandBytes (s : State) (nonce : Word) (counter client : Nat) (msg : Bytes) : Bytes :=
  let b := leBytes 8 nonce.toNat ++ leBytes 8 counter ++ leBytes 4 client ++ zeros 12 ++ msg
  b ++ hmacSha384 ((s.ctl.inbandSecret).getD []) b

/-- Send an in-band response: it must fit the port's MAX_FRAME, since the device sends no fragments (R279). -/
def sendInband (s : State) (lane : Nat) (dest : BitVec 128) (port : Nat) (b : Bytes) : State :=
  let room := fld s (.netPortCtrl (portOfLane s lane)) 63 50
  if b.length + (if isV4 dest then 50 else 70) ≤ room then count (emit s (.datagram lane dest port b)) (0x240 + lane) else s

/-- The bytes of an MCTP message: type 0x7F, the enterprise number, the mailbox message (R278). -/
def mctpBytes (msg : Bytes) : Bytes := 0x7F#8 :: beBytes 4 Config.ianaFuses.toNat ++ msg

/-- A response message is sent where its request came from (R273, R278, R279): on PF0 the channel is DONE and its interrupt source raised; on
the other transports it is sent and acknowledged at once. A channel key of 8 or more discards it. -/
def respondWith (s : State) (c : Nat) (msg : Bytes) : State :=
  let h := chanAt s c
  let s := count s 0x7E0
  if 8 ≤ c then { s with ctl := { s.ctl with chans := tdel s.ctl.chans c } }
  else
    match h.route with
    | .pf0 => pf0Source (setChan s c (fun h => { h with state := .done, respBuf := sparseWrite [] 0 msg, req := [] })) c
    | .i3c ep tag => emit (emit (setChan s c (fun h => { h with state := .idle, respBuf := sparseWrite [] 0 msg, req := [] })) (.mctp ep tag (mctpBytes msg))) .ibi
    | .inband lane src port nonce counter client =>
      sendInband (setChan s c (fun h => { h with state := .idle, respBuf := sparseWrite [] 0 msg, req := [] })) lane src port
        (inbandBytes s nonce counter client msg)

/-- A response to the request on a channel. -/
def respond (s : State) (c status gen op : Nat) (pay : Bytes) : State :=
  let b := (chanAt s c).req
  respondWith s c (mbxMessage 1 (reqOpcode b) (reqTag b) status gen op pay)

/-- A request is accepted on an IDLE channel: BUSY, in its place in the order (R273, R274); a bad one completes at once (R276, R277). -/
def acceptMail (s : State) (c : Nat) (b : Bytes) (received : Option Nat) (route : Route) : State :=
  let s := setChan s c (fun h => { h with state := .busy, tag := reqTag b, req := b, received := received, order := s.ctl.accepted, route := route })
  let s := { s with ctl := { s.ctl with accepted := s.ctl.accepted + 1, rr := (c + 1) % 8 } }
  match frameCheck s (chanAt s c) with
  | some (st, bad) =>
    let s := if st = 2 then count s 0x7E1 else s
    respond (if bad then setBit s .ctlEvent 2 else s) c st 0 0 (zeros 8)
  | none => s

/-- The request buffer of a channel up to its highest byte written. -/
def bufferBytes (h : Chan) : Bytes := sparseRead h.reqBuf 0 (h.reqBuf.foldl (fun m e => max m (e.1 + 1)) 0)

/-- A write of CTL_MBX_DOORBELL_c: ACK, then RING (R273, R345). -/
def doorbell (s : State) (c : Nat) (ack ring : Bool) : State :=
  if 4 ≤ c then (if ack || ring then setBit s .ctlEvent 6 else s)
  else
    let s := if ack && (chanAt s c).state == .done then setChan s c (fun h => { h with state := .idle }) else s
    if !ring || !(flag s .ctlCtrl 0 && flag s .ctlCtrl 1) then s
    else if (chanAt s c).state == .idle then acceptMail s c (bufferBytes (chanAt s c)) none .pf0
    else setBit s .ctlEvent 1

/-- DOORBELL_RING. -/
def execDoorbellRing (ch : Nat) (s : State) : Res := .next (doorbell s ch false true)

/-- DOORBELL_ACK. -/
def execDoorbellAck (ch : Nat) (s : State) : Res := .next (doorbell s ch true false)

/-! ## Executing a request (R274) -/

/-- What a command answers: the state after it, its status, generation, OP_ID and payload. -/
structure MbxOut where
  s : State
  status : Nat := 0
  gen : Nat := 0
  op : Nat := 0
  pay : Bytes := []

/-- A refusal: nothing changes, and the payload's first 8 bytes are zero (R280). -/
def mbxFail (s : State) (status gen : Nat) : MbxOut := { s := s, status := status, gen := gen, pay := zeros 8 }

/-- Whether a BUSY request must wait: changes execute in the order of acceptance, and requests accepted during an activation wait for the
new image (R274, R291). -/
def mbxWaits (s : State) (h : Chan) : Bool :=
  (match s.ctl.activation with
   | some a => decide (a.waitFrom ≤ h.order)
   | none => false) ||
  (!(isQuery (reqOpcode h.req)) &&
    s.ctl.chans.any (fun e => e.2.state == .busy && !(isQuery (reqOpcode e.2.req)) && decide (e.2.order < h.order)))

/-- Execute the request on a channel when it is the command of the row and its turn has come. -/
def mbxRow (s : State) (c op : Nat) (f : State → Bytes → Nat → MbxOut) : State :=
  let h := chanAt s c
  if !(flag s .ctlCtrl 0) || h.state != .busy || reqOpcode h.req != op || mbxWaits s h then s
  else if s.ctl.safeMode && !(safeGroup (op / 256)) then respond s c 9 0 0 (zeros 8)
  else
    let o := f s (reqPay h.req) (reqGen h.req)
    respond o.s c o.status o.gen o.op o.pay

/-- A command without a generation must carry GEN 0 (R274). -/
def noGen (s : State) (gen : Nat) (r : MbxOut) : MbxOut := if gen ≠ 0 then mbxFail s 5 0 else r

/-- The generation check against the named object's generation (R274); `after` reads it in the state after the command. -/
def withGen (s : State) (gen cur : Nat) (after : State → Nat) (r : MbxOut) : MbxOut :=
  if gen ≠ 0 ∧ gen ≠ cur then mbxFail s 7 cur else { r with gen := after r.s }

/-! ## Operations (R275) -/

/-- Whether another operation can be tracked. -/
def opFree (s : State) : Bool := decide ((s.ctl.ops.filter (fun e => e.2.state == 1)).length < 64)

/-- Whether a running operation holds an object (R274). -/
def held (s : State) (o : OpObj) : Bool := s.ctl.ops.any (fun e => e.2.state == 1 && e.2.obj == o)

/-- A free identifier of 1 to `top`, not in use (log entry 2). -/
def freshId (s : State) (top : Nat) (used : List Nat) : Nat × State :=
  let (d, s) := drawNat s
  ((((List.range (used.length + 1)).map (fun i => (d + i) % top + 1)).find? (fun k => !(used.contains k))).getD 1, s)

/-- An operation starts: its OP_ID is free (log entry 2), and operations that ended 256 starts ago are forgotten. `plan` is its final status where
nothing is left to wait for. -/
def startOp (s : State) (opcode : Nat) (obj : OpObj) (result : Bytes) (plan : Option Nat) : State × Nat :=
  let (id, s) := freshId s (2 ^ 32 - 1) (s.ctl.ops.map (·.1))
  let n := s.ctl.opCount
  let old := s.ctl.ops.filter (fun e => e.2.state == 1 || decide (n < e.2.index + 256))
  ({ s with ctl := { s.ctl with opCount := n + 1, ops := tput old id { opcode := opcode, obj := obj, started := nowOf s, result := padTo 16 result, index := n, plan := plan } } }, id)

/-- The ACCEPTED answer of a command of kind O. -/
def accepted (r : State × Nat) : MbxOut := { s := r.1, status := 1, op := r.2, pay := zeros 8 }

/-! ## Identity group -/

/-- The version of an image slot, zero bytes where it holds none. -/
def slotVersion (f : FwSlot) : Bytes := sub f.bytes 16 16

/-- The anti-rollback counter: the higher valid copy, or the fused floor (R290). -/
def rollbackOf (s : State) : Nat :=
  match s.hbx.rollback0, s.hbx.rollback1 with
  | some a, some b => max a b
  | some a, none => a
  | none, some b => b
  | none, none => Config.rollbackFloor

/-- SUPPORTED: bit (g − 1) × 128 + low byte of each opcode. -/
def supportedBits : Bytes :=
  let n := (opcodeCounts.map (fun g => (2 ^ g.2 - 1) * 2 ^ ((g.1 - 1) * 128))).sum
  leBytes 160 n

/-- IDENTIFY's payload. -/
def identifyPay (s : State) : Bytes :=
  let flags := (if s.ctl.safeMode then 1 else 0) + (if s.hbx.driveJournal then 2 else 0) + (if s.ctl.pairsUp != 0b11#2 then 4 else 0)
  ascii 16 modelName ++ leBytes 8 Config.uidLo.toNat ++ leBytes 8 Config.uidHi.toNat ++ slotVersion s.ctl.slotA ++ slotVersion s.ctl.slotB
    ++ slotVersion s.ctl.recovery
    ++ pack 16 [(0, 1, s.ctl.running), (1, 1, 1), (2, 1, 1), (3, 1, esLevel s), (4, 1, flags), (5, 1, s.pools.length), (6, 2, s.volumes.length), (8, 4, rollbackOf s)]
    ++ supportedBits

/-- IDENTIFY. -/
def execMailboxIdentify (ch : Nat) (s : State) : Res :=
  .next (mbxRow s ch 0x100 (fun s _ gen => noGen s gen { s := s, pay := identifyPay s }))

/-- GET_OPERATION's payload. PER_MILLE of an unfinished operation is free (log entry 2). -/
def operationPay (s : State) (id : Nat) (o : Op) : State × Bytes :=
  let (d, s) := drawNat s
  let pm := if o.state = 2 then 1000 else d % 1001
  (s, pack 32 [(0, 4, id), (4, 2, o.opcode), (6, 1, o.state), (8, 2, o.status), (10, 2, pm), (16, 8, o.started), (24, 8, o.ended)] ++ padTo 16 o.result)

/-- GET_OPERATION. -/
def execGetOperation (ch : Nat) (s : State) : Res :=
  .next (mbxRow s ch 0x101 (fun s b gen =>
    match tget s.ctl.ops (fieldAt b 0 4) with
    | none => mbxFail s 0xB 0
    | some o =>
      let r := operationPay s (fieldAt b 0 4) o
      noGen s gen { s := r.1, pay := r.2 }))

/-- A management event in the layout of Table 10.6. -/
def eventBytes (e : MgmtEvent) : Bytes := pack 32 [(0, 8, e.seq), (8, 8, e.time), (16, 2, e.code), (20, 4, e.object), (24, 8, e.detail)]

/-- GET_EVENTS's payload: events from FROM_SEQ up in ascending order; OVERWRITTEN counts those that the ring has already overwritten. -/
def eventsPay (s : State) (from_ max_ : Nat) : Bytes :=
  let l := (s.ctl.events.filter (fun e => decide (from_ ≤ e.seq))).take max_
  let first := ((s.ctl.events.head?).map (·.seq)).getD s.ctl.nextEvent
  let ovr := min (first - from_) s.ctl.overwritten
  let next := ((l.getLast?).map (fun e => e.seq + 1)).getD s.ctl.nextEvent
  pack 16 [(0, 2, l.length), (4, 4, ovr), (8, 8, next)] ++ (l.map eventBytes).flatten

/-- GET_EVENTS. -/
def execGetEvents (ch : Nat) (s : State) : Res :=
  .next (mbxRow s ch 0x102 (fun s b gen =>
    let n := fieldAt b 8 2
    noGen s gen (if n = 0 ∨ 126 < n then mbxFail s 5 0 else { s := s, pay := eventsPay s (fieldAt b 0 8) n })))

/-! ## MCTP over I3C (R278) -/

/-- Whether the I3C target answers. -/
def i3cOn (s : State) : Bool := flag s .ctlCtrl 2 && s.ctl.i3cAddr.isSome

/-- ENTDAA: the bus owner assigns the dynamic address. -/
def execEntdaa (addr : Nat) (s : State) : Res :=
  .next (if flag s .ctlCtrl 2 then { s with ctl := { s.ctl with i3cAddr := some (addr % 128) } } else s)

/-- An immediate response that a transport with no free channel, or a stale session, draws. -/
def immediate (s : State) (b : Bytes) (status : Nat) (pay : Bytes) : State × Bytes :=
  (count s 0x7E0, mbxMessage 1 (reqOpcode b) (reqTag b) status 0 0 pay)

/-- The first IDLE channel of a transport's two. -/
def idleOf (s : State) (c : Nat) : Option Nat :=
  if (chanAt s c).state == .idle then some c else if (chanAt s (c + 1)).state == .idle then some (c + 1) else none

/-- MCTP_MESSAGE: a request goes on channel 4, or on 5 when 4 is not IDLE, or draws CHANNEL_BUSY. -/
def execMctpMessage (endpoint tag : Nat) (request : Bytes) (s : State) : Res :=
  .next <|
    if !(i3cOn s) || !(flag s .ctlCtrl 0) then s
    else
      match idleOf s 4 with
      | some c => acceptMail (setChan s c (fun h => { h with reqBuf := sparseWrite [] 0 (request.take 4096) })) c (request.take 4096) (some request.length) (.i3c endpoint tag)
      | none =>
        let (s, m) := immediate s request 0xD (zeros 8)
        emit (emit s (.mctp endpoint tag (mctpBytes m))) .ibi

/-- An MCTP control response: command code, then completion code and data (DSP0236, log entry 14). -/
def mctpControl (s : State) (cmd : Nat) (b : Bytes) : State := if i3cOn s then emit s (.mctpControl cmd b) else s

/-- SET_ENDPOINT_ID: EID 0 and 0xFF are no endpoint identifiers and are refused (DSP0236, log entry 14). -/
def execSetEndpointId (eid : Nat) (s : State) : Res :=
  .next <|
    if !(i3cOn s) then s
    else if eid = 0 ∨ 255 ≤ eid then mctpControl s 1 [2]
    else mctpControl { s with ctl := { s.ctl with eid := eid } } 1 [0, 0, BitVec.ofNat 8 eid, 0]

/-- GET_ENDPOINT_ID. -/
def execGetEndpointId (s : State) : Res := .next (mctpControl s 2 [0, BitVec.ofNat 8 s.ctl.eid, 0, 0])

/-- GET_MCTP_VERSION_SUPPORT: one version entry, free (log entry 2). -/
def execGetMctpVersionSupport (s : State) : Res :=
  .next (let (v, s) := drawBytes s 4; mctpControl s 4 (0 :: 1 :: v))

/-- GET_MESSAGE_TYPE_SUPPORT: vendor-defined IANA only. -/
def execGetMessageTypeSupport (s : State) : Res := .next (mctpControl s 5 [0, 1, 0x7F])

/-- GET_VENDOR_DEFINED_MESSAGE_SUPPORT: one set, the enterprise number of CTL_MCTP_CFG.IANA; the command set version is free (log entry 2). -/
def execGetVendorDefinedMessageSupport (s : State) : Res :=
  .next (let (v, s) := drawBytes s 2; mctpControl s 6 ([0, 0xFF, 1] ++ beBytes 4 Config.ianaFuses.toNat ++ v))

/-! ## In-band (R279) -/

/-- A datagram is dropped without reply. -/
def inbandDrop (s : State) : State := setBit (count s 0x7E2) .ctlEvent 3

/-- The request of an authenticated datagram takes channel 6 or 7, or draws CHANNEL_BUSY. -/
def inbandAccept (s : State) (lane : Nat) (source : BitVec 128) (port : Nat) (nonce : Word) (counter client : Nat) (msg : Bytes) : State :=
  let s := { s with ctl := { s.ctl with inband := ((client, counter) :: s.ctl.inband.filter (fun e => e.1 != client)).take 16 } }
  match idleOf s 6 with
  | some c => acceptMail (setChan s c (fun h => { h with reqBuf := sparseWrite [] 0 (msg.take 4096) })) c (msg.take 4096) (some msg.length) (.inband lane source port nonce counter client)
  | none =>
    let (s, m) := immediate s msg 0xD (zeros 8)
    sendInband s lane source port (inbandBytes s nonce counter client m)

/-- INBAND_DATAGRAM: a datagram to CTL_INBAND_CFG.UDP_PORT at a GID of the port. -/
def execInbandDatagram (lane : Nat) (source : BitVec 128) (port : Nat) (payload : Bytes) (s : State) : Res :=
  .next <|
    if !(netPortAt s lane).link then s
    else
      let s := frameIn s lane
      let (w, ok) := rateWindow (netPortAt s lane).ctlWin (nowOf s) 10000
      let s := setNetPort s lane (fun p => { p with ctlWin := w })
      match s.ctl.inbandSecret with
      | none => dropOther s lane
      | some key =>
        if !ok || !(flag s .ctlCtrl 3 && flag s .ctlCtrl 0) then dropOther s lane
        else
          let body := payload.take (payload.length - 48)
          let nonce : Word := BitVec.ofNat 64 (fieldAt body 0 8)
          let counter := fieldAt body 8 8
          let client := fieldAt body 16 4
          let last := (s.ctl.inband.find? (fun e => e.1 == client)).map (·.2)
          if payload.length < 112 || hmacSha384 key body != payload.drop (payload.length - 48) then inbandDrop s
          else if (last.map (fun l => decide (counter ≤ l))).getD false then inbandDrop s
          else if nonce ≠ s.ctl.nonce then
            let (s, m) := immediate s (body.drop 32) 0xE (leBytes 8 s.ctl.nonce.toNat)
            sendInband s lane source port (inbandBytes s nonce counter client m)
          else inbandAccept s lane source port nonce counter client (body.drop 32)

end Sys2Proof.Machine
end

