-- ==== Sys2Proof/Machine/PoolCmds.lean ====
section
/-! DEFINITION. The pool group of mailbox commands (R274, R281, R282, R20 to R22, R142). -/

namespace Sys2Proof.Machine

/-! ## Named objects (R274) -/

/-- A pool index names a pool: imported and online, or under a running operation such as an export. -/
def poolNamed (s : State) (i : Nat) : Option Pool :=
  (poolAt s i).bind (fun p => if p.online || held s (.pool i) then some p else none)

/-- A VOLUME_ID names a volume of such a pool. -/
def volNamed (s : State) (v : Nat) : Option Volume := (volAt s v).bind (fun x => (poolNamed s x.pool).map (fun _ => x))

/-- LEDGER_GEN of a pool index; 0 once the pool is gone. -/
def genOf (s : State) (i : Nat) : Nat := ((poolAt s i).map (·.gen)).getD 0

/-- A free choice among a list (log entry 2). -/
def pickOf (s : State) (l : List Nat) : Option Nat × State :=
  let (d, s) := drawNat s
  (if l.isEmpty then none else l[d % l.length]?, s)

/-- A free 64-bit pool identifier, not 0 and not in use (log entry 2). -/
def freshPoolId (s : State) : Word × State :=
  let (w, s) := drawWord s
  let used := s.pools.map (fun e => e.2.id) ++ s.hbx.rings.map (fun e => e.2.dir.poolId)
    ++ (s.drives.map (fun e => (e.2.ledger0.toList ++ e.2.ledger1.toList).map (·.poolId))).flatten
  ((((List.range (used.length + 2)).map (fun i => w + BitVec.ofNat 64 i)).find? (fun k => k != 0 && !(used.contains k))).getD 1, s)

/-- Journal rings that no pool holds (R78). -/
def freeRings (s : State) : List Nat := (List.range 4).filter (fun r => !((ringAt s r).dir.assigned) && !(s.pools.any (fun e => e.2.ring == r)))

/-- Pool indexes in no use. -/
def freePools (s : State) : List Nat := (List.range 4).filter (fun i => !(thas s.pools i))

/-- A free ring is written to zero and assigned to a pool (R78, R79). -/
def assignRing (s : State) (r : Nat) (id : Word) (epoch hbxBand : Nat) : State :=
  let s := zeroRing (setRing s r (fun _ => {})) r
  setBit (setDir s r (fun _ => { assigned := true, driveJournal := s.hbx.driveJournal, poolId := id, epoch := epoch, hbxBand := hbxBand })) .hbxCtrl (4 + r)

/-- A ring is freed (R79). -/
def releaseRing (s : State) (r : Nat) : State := clearBit (setRing (setDir s r (fun _ => {})) r (fun _ => {})) .hbxCtrl (4 + r)

/-! ## Members -/

/-- Slots and bytes of a drive as Identify gives them. -/
def driveCapacity (d : Drive) : Nat := (d.ident.map (·.capacity)).getD 0

/-- The member entry of a drive (Table 4.12). -/
def memberEntry (d : Drive) (slot gen : Nat) : Member :=
  { uid := (d.ident.map (·.uniqueId)).getD 0, state := .active, flushed := d.flushed, plp := d.plp
    fdp := (d.ident.map (fun i => decide (0 < i.fdpHandles))).getD false, meta64 := d.metaFmt == 64
    slots := slotsOf (driveCapacity d), capacity := driveCapacity d, admitted := gen, serial := (d.ident.map (·.serial)).getD [], driveSlot := some slot }

/-- A drive becomes a member of a pool at a member index, recorded with the next LEDGER_GEN (R22, R142); the slot is no longer that of a member that left it
(R123). -/
def joinPool (s : State) (pi slot idx : Nat) : State :=
  let s := setPool s pi (fun p =>
    { p with members := tput (tmap p.members (fun _ m => if m.driveSlot = some slot then { m with driveSlot := none } else m)) idx
               (memberEntry (driveAt s slot) slot (p.gen + 1)) })
  setDrvState (setDrive s slot (fun d => { d with pool := some pi, member := some idx, evacReason := 0, evacWaiting := false, evacOp := none })) slot .member

/-- Evacuations that R20 has kept waiting are tried again (R129). -/
def retryEvac (s : State) (pi : Nat) : State :=
  let reason (n : Nat) : EvacReason := match n with
    | 1 => .media
    | 2 => .drift
    | 3 => .wear
    | 4 => .critical
    | 5 => .backup
    | _ => .command
  forAll (s.drives.filter (fun e => e.2.pool == some pi && e.2.evacWaiting)) (fun s e => startEvac s e.1 (reason e.2.evacReason)) s

/-! ## POOL_CREATE -/

/-- The slots that a POOL_CREATE names. -/
def createSlots (b : Bytes) : List Nat := (List.range (fieldAt b 5 1)).map (fun i => fieldAt b (8 + i) 1)

/-- Whether a list has no element twice. -/
def distinct (l : List Nat) : Bool := l.zipIdx.all (fun x => !((l.drop (x.2 + 1)).contains x.1))

/-- What refuses a POOL_CREATE before anything is drawn (R17, R20, R282). DESIGN CHOICE: SLOTS that name one drive twice are INVALID_FIELD, before the
GEOMETRY check; the spec gives no status for them (log entry 68). -/
def createRefused (s : State) (b : Bytes) : Option Nat :=
  let layout := fieldAt b 0 1
  let k := fieldAt b 1 1
  let n := fieldAt b 5 1
  let slots := createSlots b
  if 64 < n then some 0x201
  else if 4 < layout ∨ 6 < fieldAt b 2 1 ∨ 8 < fieldAt b 3 1 ∨ 8 < fieldAt b 4 1 ∨ 64 < fieldAt b 6 2 then some 5
  else if !(distinct slots) then some 5
  else if !(layoutOk layout k) || decide (n < layoutW layout k + fieldAt b 3 1) then some 0x202
  else if slots.any (fun d => held s (.drive d)) then some 6
  else if slots.any (fun d => (driveAt s d).state != .ready) then some 0x402
  else if (freePools s).isEmpty || (freeRings s).isEmpty then some 0x205
  else if !(opFree s) then some 0xA
  else none

/-- Log reserve in 1/1,024: as asked, or the layout's default (Table 1.3); free where the spec gives the layout none (log entry 2). -/
def reserveOf (s : State) (layout asked : Nat) : Nat × State :=
  let (d, s) := drawNat s
  (if asked ≠ 0 then asked else if layout = 0 then 2 else if layout = 4 then 16 else d % 64 + 1, s)

/-- The pool is made: identifier, seed, ring and index drawn, members in the order of SLOTS, ledgers written, epoch 1 opened. -/
def createPool (s : State) (b : Bytes) : MbxOut :=
  let (id, s) := freshPoolId s
  let (seed, s) := drawWord s
  let (ring, s) := pickOf s (freeRings s)
  let (idx, s) := pickOf s (freePools s)
  let (lr, s) := reserveOf s (fieldAt b 0 1) (fieldAt b 6 2)
  match ring, idx with
  | some r, some pi =>
    let p : Pool :=
      { id := id, ring := r, layout := fieldAt b 0 1, k := fieldAt b 1 1, stripShift := fieldAt b 2 1, spare := fieldAt b 3 1, balance := fieldAt b 4 1
        logReserve := lr, seed := seed, gen := 0, created := nowOf s }
    let s := assignRing { s with pools := tput s.pools pi p } r id 0 0
    let s := forAll (createSlots b).zipIdx (fun s x => joinPool s pi x.1 x.2) s
    let s := writeTables s pi
    let s := if ((poolAt s pi).map (fun p => p.gen == 0)).getD false then writeLedger s pi else s
    accepted (startOp (openEpoch s pi 1) 0x200 (.pool pi) (pack 16 [(0, 8, id.toNat), (8, 1, pi)]) (some 0))
  | _, _ => mbxFail s 0x205 0

/-- POOL_CREATE; a slot that does not exist is answered first (R274). -/
def execPoolCreate (ch : Nat) (s : State) : Res :=
  .next (mbxRow s ch 0x200 (fun s b gen =>
    if ((createSlots b).take 64).any (fun d => decide (64 ≤ d)) then mbxFail s 0xB 0
    else noGen s gen (match createRefused s b with
      | some st => mbxFail s st 0
      | none => createPool s b)))

/-! ## POOL_IMPORT (R142, R282) -/

/-- The ring that the directory assigns to a pool identifier. -/
def ringOfId (s : State) (id : Word) : Option Nat := (s.hbx.rings.find? (fun e => e.2.dir.assigned && e.2.dir.poolId == id)).map (·.1)

/-- The index at which a pool of an automatic import that failed still stands. -/
def offlineAt (s : State) (id : Word) : Option Nat := (s.pools.find? (fun e => e.2.id == id && !e.2.online)).map (·.1)

/-- Whether a ledger names this device, no device, or another. -/
def ownLedger (l : Ledger) : Bool := l.controller == Config.uidLo

/-- The journal ring that holds a pool's records for this device, if any: the assigned one, while the ledger still names the device. -/
def keptRing (s : State) (l : Ledger) : Option Nat := if ownLedger l then ringOfId s l.poolId else none

/-- The ring whose records an import would replay: none where it would replay the drive copy (R98). -/
def metRing (s : State) (l : Ledger) : Option Nat :=
  (keptRing s l).bind (fun r => if (ringAt s r).dir.driveJournal || !s.hbx.mramOk || s.hbx.dead then none else some r)

/-- What refuses a POOL_IMPORT. -/
def importRefused (s : State) (l : Ledger) (flags : Nat) : Option Nat :=
  if s.pools.any (fun e => e.2.id == l.poolId && e.2.online) then some 5
  else if s.pools.any (fun e => e.2.id == l.poolId && held s (.pool e.1)) then some 6
  else if (formatUnknown s l (metRing s l)).isSome then some 0x203
  else if 64 < (l.members.filter (fun e => e.2.state == .active || e.2.state == .evacuating)).length then some 0x201
  else if l.controller != 0 && !(ownLedger l) && flags / 2 % 2 == 0 then some 0x206
  else if layoutTol l.layout < membersMissing s l ∧ flags % 2 = 0 then some 0x204
  else if (offlineAt s l.poolId).isNone && (freePools s).isEmpty then some 0x205
  else if (keptRing s l).isNone && (ringOfId s l.poolId).isNone && (freeRings s).isEmpty then some 0x205
  else if !(opFree s) then some 0xA
  else none

/-- Replay of a mounted pool from its drive copy on a ring written to zero: a pool of this device that the directory no longer names, or one that its device
exported. -/
def replayCopy (s : State) (pi r : Nat) (im : PoolImage) (bad : List (Nat × Nat)) : State :=
  let s := replayRecs s pi im im.journal [] (im.journal.foldl (fun m x => max m (x.seq + 1)) 0) 1 true false bad
  setDir s r (fun d => { d with floorSeq := (ringAt s r).tail })

/-- Import of a format-3 pool: its open INTENTs, a format-4 Band Table and ledger, and Hatbox epoch 1 (R149). -/
def importG2 (s : State) (pi : Nat) (l : Ledger) (im : PoolImage) (bad : List (Nat × Nat)) : State :=
  replayRecs (tablesOfG2 (resolveG2 s pi l im bad) pi) pi im [] [] 0 1 true false bad

/-- Mount a pool on its ring and replay its journal: from the ring that the directory assigns, from the drive copy on a ring written to zero, or by
takeover (R78, R98, R101); a format-3 pool by R149. -/
def importPool (s : State) (l : Ledger) (bad : List (Nat × Nat)) : State × Nat :=
  let (pick, s) := pickOf s (freePools s)
  let pi := (offlineAt s l.poolId).getD (pick.getD 0)
  let s := { s with pools := tdel s.pools pi, volumes := s.volumes.filter (fun e => e.2.pool != pi) }
  match keptRing s l with
  | some r => (replayPool (setBit (mountPool s pi r l (readImage s l true (ringAt s r).dir.epoch)) .hbxCtrl (4 + r)) pi bad, pi)
  | none =>
    let (fresh, s) := pickOf s (freeRings s)
    let r := (ringOfId s l.poolId).getD (fresh.getD 0)
    let other := l.controller != 0 && !(ownLedger l)
    let im := readImage s l (!other) l.epoch
    let s := mountPool (assignRing s r l.poolId (if l.fmt = 3 then 0 else l.epoch) (if l.fmt = 3 then 0xFFFFFFFF else l.hbxBand)) pi r l im
    (if l.fmt = 3 then importG2 s pi l im bad else if other then takeOver s pi bad else replayCopy s pi r im bad, pi)

/-- POOL_IMPORT. FORMAT_UNKNOWN reports in its response the SEQ of the record, with 0xFF after it, or the LBA of the structure and its drive slot: DESIGN
CHOICE, R84 and R147 say what is reported and Table 10.4 gives it no place (log entry 69). -/
def execPoolImport (ch : Nat) (bad : List (Nat × Nat)) (s : State) : Res :=
  .next (mbxRow s ch 0x201 (fun s b gen =>
    match bestLedger s (BitVec.ofNat 64 (fieldAt b 0 8)) with
    | none => mbxFail s 0xB 0
    | some l =>
      let out :=
        match importRefused s l (fieldAt b 8 1) with
        | some 0x203 =>
          let x := (formatUnknown s l (metRing s l)).getD (0xFF, 0)
          { s := s, status := 0x203, pay := pack 16 [(0, 8, x.2), (8, 1, x.1)] }
        | some st => mbxFail s st 0
        | none =>
          let missing := membersMissing s l
          let (s, pi) := importPool s l bad
          let p := poolAt s pi
          accepted (startOp s 0x201 (.pool pi)
            (pack 16 [(0, 1, pi), (1, 1, (p.map (·.state)).getD 0), (2, 1, missing), (8, 8, (p.map (·.lossHead)).getD 0)]) (some 0))
      withGen s gen l.gen (fun t => ((bestLedger t l.poolId).map (·.gen)).getD 0) out))

/-! ## POOL_EXPORT, POOL_DELETE, POOL_CONVERT -/

/-- A command that names a pool index: absent, generation, then held (R274). -/
def poolCmd (s : State) (ch op : Nat) (f : State → Bytes → Nat → Pool → MbxOut) : State :=
  mbxRow s ch op (fun s b gen =>
    let pi := fieldAt b 0 1
    match poolNamed s pi with
    | none => mbxFail s 0xB 0
    | some p =>
      withGen s gen p.gen (fun t => genOf t pi)
        (if !(isQuery op) && held s (.pool pi) then mbxFail s 6 0 else f s b pi p))

/-- POOL_EXPORT: from now on commands to the pool's volumes get POOL_OFFLINE; the rest follows in the background. -/
def execPoolExport (ch : Nat) (s : State) : Res :=
  .next (poolCmd s ch 0x202 (fun s _ pi _ =>
    if !(opFree s) then mbxFail s 0xA 0
    else accepted (startOp (setPool s pi (fun p => { p with online := false })) 0x202 (.pool pi) [] none)))

/-- The drives of a pool's present members. -/
def memberDrives (p : Pool) : List Nat := p.present.filterMap (fun e => e.2.driveSlot)

/-- A pool leaves the device: its ring, entry, volumes and drives' membership; the drives take a state. -/
def dropPool (s : State) (pi : Nat) (st : DrvState) : State :=
  match poolAt s pi with
  | none => s
  | some p =>
    let s := releaseRing s p.ring
    let s := forAll (s.drives.filter (fun e => e.2.pool == some pi)) (fun s e =>
      let s := if e.2.state == .member || e.2.state == .evacuating then setDrvState s e.1 st else s
      setDrive s e.1 (fun d => { d with pool := none, member := none, evacReason := 0, evacWaiting := false, cmds := [], held := [], unflushed := [], flushing := none })) s
    { s with pools := tdel s.pools pi, volumes := s.volumes.filter (fun e => e.2.pool != pi) }

/-- Volumes of a pool whose map holds what no checkpoint on the drive copy holds. -/
def unsaved (s : State) (pi : Nat) : List Nat :=
  (s.volumes.filter (fun e => e.2.pool == pi && e.2.kind == .mapped && e.2.rootLoaded && (e.2.leaves.any (·.dirty) || e.2.ckpt.isSome))).map (·.1)

/-- The CLEAN record of a pool's ring (R100). -/
def cleanRec (s : State) (p : Pool) : RecBody := .clean ((ringAt s p.ring).head - 1) p.wseq (nowOf s)

/-- The ledger of a pool that leaves the device: CONTROLLER zero (R282). -/
def putExported (s : State) (pi : Nat) : State :=
  let s := setPool s pi (fun p => { p with gen := p.gen + 1 })
  match poolAt s pi with
  | some p => putLedger s pi p { ledgerOf s pi p with controller := 0 }
  | none => s

/-- The background part of an export: started commands, checkpoints, CLEAN on the drive copy, then the ledgers, and with them on flash the ring (R282). -/
def exportStep (s : State) (id : Nat) (o : Op) (pi : Nat) : State :=
  match poolAt s pi with
  | none => endOp s id 0
  | some p =>
    let setOp (s : State) (f : Op → Op) : State := { s with ctl := { s.ctl with ops := tmod s.ctl.ops id f } }
    if o.phase = 3 then
      if !p.jobs.isEmpty then s
      else if ((bestLedger s p.id).map (fun l => l.controller != 0)).getD false then putExported s pi
      else endOp (dropPool s pi .present) id 0
    else if o.phase = 2 then
      if p.copy.copied ≤ o.cleanSeq then s else setOp (putExported (writeTables s pi) pi) (fun o => { o with phase := 3 })
    else if s.hq.cmds.any (fun e => e.2.queue != 0 && ((volAt s e.2.e.volumeId).map (fun v => v.pool == pi)).getD false)
        || p.units.any (fun e => !e.2.applied && e.2.stage != .failed) then s
    else if (unsaved s pi).isEmpty then
      let q := (ringAt s p.ring).head
      let s := sendValid s pi (cleanRec s p)
      if (ringAt s p.ring).head = q then s else setOp s (fun o => { o with phase := 2, cleanSeq := q })
    else
      setOp (forAll (unsaved s pi) (fun s v => if ((volAt s v).map (fun x => x.ckpt.isNone)).getD false then ckptStart s v else s) s)
        (fun o => { o with phase := 1 })

/-- POOL_DELETE: NOT_EMPTY while a volume exists; else the ledger headers are zeroed and the drives left READY. -/
def execPoolDelete (ch : Nat) (s : State) : Res :=
  .next (poolCmd s ch 0x203 (fun s _ pi p =>
    if s.volumes.any (fun e => e.2.pool == pi) then mbxFail s 0x207 0
    else
      let s := forAll (memberDrives p) (fun s d => setDrive s d (fun x => { x with ledger0 := none, ledger1 := none })) s
      let s := dropPool s pi .ready
      { s := { s with ctl := { s.ctl with configPol := s.ctl.configPol.filter (fun e => !(e.1 == p.id)) } } }))

/-- POOL_CONVERT: ends once every band has format 4 (R150). -/
def execPoolConvert (ch : Nat) (s : State) : Res :=
  .next (poolCmd s ch 0x206 (fun s _ pi _ =>
    if !(opFree s) then mbxFail s 0xA 0 else accepted (startOp s 0x206 (.pool pi) [] none)))

/-! ## POOL_QUERY, POOL_SET -/

/-- Member state codes (Table 4.12). -/
def memberCode (m : MemberState) : Nat :=
  match m with
  | .unused => 0
  | .active => 1
  | .evacuating => 2
  | .failed => 3
  | .removed => 4

/-- POOL_QUERY's payload. -/
def poolPay (s : State) (pi : Nat) (p : Pool) : Bytes :=
  let vols := s.volumes.filter (fun e => e.2.pool == pi)
  let head := pack 72 [(0, 8, p.id.toNat), (8, 8, p.gen), (16, 1, p.state), (17, 1, p.layout), (18, 1, p.k), (19, 1, p.stripShift), (20, 1, p.spare),
    (21, 1, p.balance), (22, 1, p.present.length), (23, 1, p.formatOldest), (24, 8, usableBlocks s p),
    (32, 8, (vols.map (fun e => allocatedBlocks e.2)).sum), (40, 8, p.freeSlots), (48, 2, p.logReserve), (50, 2, vols.length), (52, 4, p.epoch),
    (56, 8, p.lossHead), (64, 8, p.lossAcked)]
  head ++ (List.range 64).map (fun i => BitVec.ofNat 8 (((tget p.members i).bind (·.driveSlot)).getD 0xFF))
    ++ (List.range 64).map (fun i => BitVec.ofNat 8 (((tget p.members i).map (fun m => memberCode m.state)).getD 0))

/-- POOL_QUERY. -/
def execPoolQuery (ch : Nat) (s : State) : Res :=
  .next (poolCmd s ch 0x204 (fun s _ pi p => { s := s, pay := poolPay s pi p }))

/-- POOL_SET: the values that MASK names, within Table 1.3 and R20. -/
def setPoolParams (s : State) (b : Bytes) (pi : Nat) (p : Pool) : MbxOut :=
  let m := fieldAt b 1 1
  let sp := if m % 2 = 1 then fieldAt b 2 1 else p.spare
  let ba := if m / 2 % 2 = 1 then fieldAt b 3 1 else p.balance
  let lr := if m / 4 % 2 = 1 then fieldAt b 4 2 else p.logReserve
  if 8 < sp ∨ 8 < ba ∨ lr = 0 ∨ 64 < lr then mbxFail s 5 0
  else if m % 2 = 1 ∧ p.activeCount < layoutW p.layout p.k + sp then mbxFail s 0x202 0
  else { s := retryEvac (writeLedger (setPool s pi (fun p => { p with spare := sp, balance := ba, logReserve := lr })) pi) pi }

/-- POOL_SET. -/
def execPoolSet (ch : Nat) (s : State) : Res := .next (poolCmd s ch 0x205 setPoolParams)

/-! ## Losses (R136, R282) -/

/-- LOSS_READ. -/
def execLossRead (ch : Nat) (s : State) : Res :=
  .next (poolCmd s ch 0x207 (fun s b _ p =>
    let l := (p.losses.filter (fun x => decide (fieldAt b 8 8 ≤ x.seq))).take 63
    { s := s, pay := pack 16 [(0, 2, l.length), (8, 8, p.lossHead)] ++ (l.map lossBytes).flatten }))

/-- LOSS_ACK: records below UPTO_SEQ are acknowledged; one above LOSS_HEAD is refused. -/
def execLossAck (ch : Nat) (s : State) : Res :=
  .next (poolCmd s ch 0x208 (fun s b pi p =>
    let up := fieldAt b 8 8
    if p.lossHead < up then mbxFail s 5 0
    else
      let acked := max p.lossAcked up
      let s := setPool s pi (fun p => { p with lossAcked := acked, losses := p.losses.filter (fun l => decide (acked ≤ l.seq)) })
      { s := refreshPool (writeTables (writeLedger s pi) pi) pi, pay := leBytes 8 acked }))

end Sys2Proof.Machine
end

