-- ==== Sys2Proof/Machine/VolCmds.lean ====
section
/-! DEFINITION. The volume group of mailbox commands (R26 to R28, R283, R391). -/

namespace Sys2Proof.Machine

/-! ## Bands of a direct volume (R27, R391) -/

/-- Fewest bands whose data capacity covers a number of blocks. -/
def bandsFor (p : Pool) (cap : Nat) : Nat := (cap + p.k * 262144 - 1) / (p.k * 262144)

/-- Allocate a data band, the next of a volume's list, and fill every stripe of it with the volume's tagged zero blocks under key generation 0: it is closed and
placed by formula. -/
def zeroBand (s : State) (pi vol li : Nat) : Option (Nat × State) :=
  match allocBand s pi 0 [] with
  | none => none
  | some (n, s) =>
    match poolAt s pi, bandAt s pi n with
    | some p, some b =>
      let s := forAll b.members.zipIdx (fun s m =>
        match (tget p.members m.1.1).bind (·.driveSlot) with
        | some d =>
          let f : Fill := { vol := vol, band := n, gen := b.gen, pos := m.2, k := b.k, stripShift := b.stripShift, mirror := b.mirror, first := li * bandBlocks b }
          setDrive s d (fun x => let x := wipeSlot x m.1.2; { x with fills := tput x.fills m.1.2 f })
        | none => s) s
      some (n, setBand s pi n (fun b => { b with state := .closed, next := if runBand b then bandBlocks b else stripesPerBand b.stripShift }))
    | _, _ => none

/-- `n` zero-filled bands in order from a place of the band list; none where one cannot be allocated. -/
def zeroBands (s : State) (pi vol : Nat) : Nat → Nat → Option (List Nat × State)
  | _, 0 => some ([], s)
  | li, n + 1 =>
    match zeroBand s pi vol li with
    | none => none
    | some (b, s) => (zeroBands s pi vol (li + 1) n).map (fun r => (b :: r.1, r.2))

/-- The tables and the ledger after a change of a volume's entry: its band list, the Band Table, and the volume table with a new LEDGER_GEN (R142 to R146). -/
def writeVolume (s : State) (pi vol : Nat) : State := writeLedger (writeList (writeTables s pi) pi vol) pi

/-! ## VOLUME_CREATE -/

/-- What refuses a VOLUME_CREATE on its fields. -/
def volRefused (s : State) (b : Bytes) (p : Pool) : Option Nat :=
  let kind := fieldAt b 1 1
  let id := fieldAt b 4 2
  let cap := fieldAt b 8 8
  if kind ≠ 1 ∧ kind ≠ 2 then some 5
  else if kind = 2 ∧ fieldAt b 2 1 % 2 = 1 ∧ p.layout = 3 then some 0x314
  else if 4096 ≤ s.volumes.length then some 0x301
  else if id ≠ 0xFFFF ∧ 4095 < id then some 5
  else if id ≠ 0xFFFF ∧ thas s.volumes id then some 0x303
  else if cap = 0 ∨ 2 ^ 41 < cap then some 0x302
  else none

/-- A volume is made: a mapped one with its empty MAP_ROOT, a direct one on bands of zero blocks. -/
def createVolume (s0 : State) (b : Bytes) (pi : Nat) (p : Pool) : MbxOut :=
  let (any, s) := pickOf s0 ((List.range 4096).filter (fun v => !(thas s0.volumes v)))
  let (ng, s) := drawBytes s 16
  let id := if fieldAt b 4 2 = 0xFFFF then any.getD 0 else fieldAt b 4 2
  let asked := fieldAt b 16 16
  let flags := fieldAt b 2 1
  let direct := fieldAt b 1 1 == 2
  let cap := fieldAt b 8 8
  let nguid : BitVec 128 := BitVec.ofNat 128 (if asked = 0 then leNat ng else asked)
  let v : Volume :=
    { pool := pi, kind := if direct then .direct else .mapped, encrypted := flags % 2 == 1, passThrough := flags / 2 % 2 == 1, capacity := cap
      nguid := nguid, created := nowOf s, cut := (ringAt s p.ring).head }
  match (if direct then zeroBands s pi id 0 (bandsFor p cap) else some ([], s)) with
  | none => mbxFail s0 0x302 0
  | some (bands, s) =>
    if !(opFree s) then mbxFail s0 0xA 0
    else
      let s := { s with volumes := tput s.volumes id { v with bandList := bands } }
      let s := if direct then s else sendRec s pi (.mapRoot id 0xFFFFFFFF 0 0 v.cut)
      let s := writeVolume s pi id
      accepted (startOp s 0x300 (.volume id) (pack 24 [(0, 2, id), (8, 16, nguid.toNat)]) (some 0))

/-- VOLUME_CREATE. -/
def execVolumeCreate (ch : Nat) (s : State) : Res :=
  .next (poolCmd s ch 0x300 (fun s b pi p =>
    match volRefused s b p with
    | some st => mbxFail s st 0
    | none => createVolume s b pi p))

/-! ## Commands that name a volume -/

/-- A command that names a volume: absent, generation, then held (R274). -/
def volCmd (s : State) (ch op : Nat) (f : State → Bytes → Nat → Volume → MbxOut) : State :=
  mbxRow s ch op (fun s b gen =>
    let id := fieldAt b 0 2
    match volNamed s id with
    | none => mbxFail s 0xB 0
    | some v =>
      withGen s gen (genOf s v.pool) (fun t => genOf t v.pool)
        (if !(isQuery op) && held s (.volume id) then mbxFail s 6 0 else f s b id v))

/-- VOLUME_DELETE: every access is closed, with event 2; the rest follows in the background. -/
def execVolumeDelete (ch : Nat) (s : State) : Res :=
  .next (volCmd s ch 0x301 (fun s b id v =>
    if !v.hosts.isEmpty && fieldAt b 2 1 % 2 == 0 then mbxFail s 0x304 0
    else if !(opFree s) then mbxFail s 0xA 0
    else
      let s := setVol (postVol s id 2 0) id (fun v => { v with hosts := [] })
      accepted (startOp s 0x301 (.volume id) [] none)))

/-- What a mapped volume's blocks and nodes held in bands is no longer live. -/
def releaseMap (s : State) (v : Volume) : State :=
  let exts := (v.leaves.map (·.extents)).flatten.filter (fun e => e.kind == .mapped)
  let s := forAll exts (fun s e => subLive s v.pool e.band e.len) s
  forAll v.nodePlaces (fun s n => subLive s v.pool n.1 1) s

/-- The background part of a deletion: started commands finish, the empty MAP_ROOT is written, bands are freed and keys discarded (R283). -/
def deleteStep (s : State) (op id : Nat) : State :=
  match volAt s id with
  | none => endOp s op 0
  | some v =>
    match poolAt s v.pool with
    | none => endOp s op 0
    | some p =>
      if s.hq.cmds.any (fun e => e.2.queue != 0 && e.2.e.volumeId == id) || p.units.any (fun e => (e.2.vol == id || e.2.moves.any (fun m => m.vol == id)) && !e.2.applied && e.2.stage != .failed) then s
      else
        let s := if v.kind = .mapped then
            releaseMap (sendValid s v.pool (.mapRoot id 0xFFFFFFFF 0 (v.mapGen + 1) (ringAt s p.ring).head)) v
          else s
        let s := forAll (v.pending.filter (fun x => !x.zeroes)) (fun s x => subLive s v.pool x.band 1) s
        let s := setPool s v.pool (fun p =>
          { p with mitten := p.mitten.filter (fun m => m.vol != id), relocs := p.relocs.filter (fun m => m.vol != id), bbt := p.bbt.filter (fun m => m.vol != id)
                   winBlocks := p.winBlocks.filter (fun m => m.1 != id) })
        let s := { s with volumes := tdel s.volumes id, ctl := { s.ctl with keys := s.ctl.keys.filter (fun k => k.vol != id) } }
        let s := forAll v.bandList (fun s b => freeBandOf s v.pool b) s
        endOp (ageFormat (writeLedger (writeTables s v.pool) v.pool) v.pool) op 0

/-- VOLUME_SET: CAPACITY only grows, into the last band and then into appended zero-filled bands, which hold key generation 0 (R283, R391). -/
def setVolume (s0 : State) (b : Bytes) (id : Nat) (v : Volume) : MbxOut :=
  let m := fieldAt b 2 1
  let cap := if m % 2 = 1 then fieldAt b 8 8 else v.capacity
  if m / 2 % 2 = 1 ∧ 1 < fieldAt b 3 1 then mbxFail s0 5 0
  else if cap < v.capacity ∨ 2 ^ 41 < cap then mbxFail s0 0x302 0
  else
    let more := match poolAt s0 v.pool with
      | some p => if v.kind = .direct then bandsFor p cap - v.bandList.length else 0
      | none => 0
    match zeroBands s0 v.pool id v.bandList.length more with
    | none => mbxFail s0 0x302 0
    | some (bands, s) =>
      let n := ((poolAt s v.pool).map (fun p => p.k * 262144)).getD 0
      let s := setVol s id (fun v =>
        { v with gens := if v.encrypted && more != 0 then gensSet v.gens (v.bandList.length * n) ((v.bandList.length + more) * n) 0 else v.gens
                 capacity := cap, bandList := v.bandList ++ bands, passThrough := if m / 2 % 2 = 1 then fieldAt b 3 1 == 1 else v.passThrough })
      { s := postVol (writeVolume s v.pool id) id 2 0 }

/-- VOLUME_SET. -/
def execVolumeSet (ch : Nat) (s : State) : Res := .next (volCmd s ch 0x302 setVolume)

/-- Rotation progress in thousandths, 0xFFFF where none runs: of the band list for a direct volume, of the mapped blocks for a mapped one. -/
def rotationMille (s : State) (v : Volume) : Nat :=
  match v.rotation with
  | some r =>
    match poolAt s v.pool with
    | some p =>
      let rows := stripesPerBand p.stripShift * stripBlocks p.stripShift
      (r.list * rows + r.stripe * stripBlocks p.stripShift + r.row) * 1000 / max 1 (v.bandList.length * rows)
    | none => 0
  | none =>
    if !v.rotating then 0xFFFF
    else
      let l := (v.leaves.map (·.extents)).flatten.filter (fun e => e.kind == .mapped)
      ((l.filter (fun e => e.keyGen == v.keyGen)).map (·.len)).sum * 1000 / max 1 ((l.map (·.len)).sum)

/-- VOLUME_QUERY's payload: the volume entry (Table 4.15), and what follows it. -/
def volumePay (s : State) (id : Nat) (v : Volume) : Bytes :=
  volEntryBytes (volEntry id v) ++ pack 18 [(0, 1, v.pool), (2, 2, v.hosts.length), (8, 8, allocatedBlocks v), (16, 2, rotationMille s v)]

/-- VOLUME_QUERY. -/
def execVolumeQuery (ch : Nat) (s : State) : Res := .next (volCmd s ch 0x303 (fun s _ id v => { s := s, pay := volumePay s id v }))

/-- Event 2 to the connections of one host. -/
def postHost (s : State) (vol : Nat) (host : BitVec 128) : State :=
  match volAt s vol with
  | none => s
  | some v =>
    forAll (s.hq.conns.filter (fun e => e.2.hostId == host && opened v e.2)) (fun s e =>
      let s := if e.2.nvme then
          setConn s e.1 (fun k => { k with ctl := { k.ctl with changedNs := (vol + 1) :: k.ctl.changedNs.filter (· != vol + 1) } })
        else s
      postEvent s e.1 2 0) s

/-- Open and close pairs shelf-wide. -/
def accessPairs (s : State) : Nat := (s.volumes.map (fun e => e.2.hosts.length)).sum

/-- VOLUME_ACCESS. -/
def accessVolume (s : State) (b : Bytes) (id : Nat) (v : Volume) : MbxOut :=
  let host : BitVec 128 := BitVec.ofNat 128 (fieldAt b 16 16)
  let out (s : State) : MbxOut := { s := s, pay := leBytes 2 (((volAt s id).map (fun v => v.hosts.length)).getD 0) }
  match fieldAt b 2 1 with
  | 1 =>
    if v.hosts.contains host then out s
    else if 65536 ≤ accessPairs s then mbxFail s 0xA 0
    else out (postHost (setVol s id (fun v => { v with hosts := v.hosts ++ [host] })) id host)
  | 2 =>
    if v.hosts.contains host then out (setVol (postHost s id host) id (fun v => { v with hosts := v.hosts.filter (· != host) })) else out s
  | _ => mbxFail s 5 0

/-- VOLUME_ACCESS. -/
def execVolumeAccess (ch : Nat) (s : State) : Res := .next (volCmd s ch 0x304 accessVolume)

end Sys2Proof.Machine
end

