-- ==== Sys2Proof/Machine/DriveCmds.lean ====
section
/-! DEFINITION. The drive and policy groups of mailbox commands (R11, R12, R34, R123, R129, R284, R287), and the end of operations (R275). -/

namespace Sys2Proof.Machine

/-! ## DRIVE_INVENTORY -/

/-- Member FLAGS of a drive (Table 4.12), with bits 4 and 5 of the inventory. -/
def driveFlags (d : Drive) : Nat :=
  (if d.flushed then 1 else 0) + (if d.plp then 2 else 0) + (if (d.ident.map (fun i => decide (0 < i.fdpHandles))).getD false then 4 else 0)
    + (if d.metaFmt = 64 ∧ d.ident.isSome then 8 else 0) + (if d.reversed then 16 else 0) + (if d.degraded then 32 else 0)

/-- One inventory entry of 48 bytes. -/
def inventoryEntry (s : State) (slot : Nat) : Bytes :=
  let d := if (driveAt s slot).state = .empty then {} else driveAt s slot
  let pool := d.pool.getD 0xFF
  let head := pack 16 [(0, 1, slot), (1, 1, drvCode d.state), (2, 1, pool), (3, 1, d.member.getD 0xFF), (4, 1, if d.linkUp then d.gen + 16 * d.width else 0),
    (5, 1, driveFlags d), (8, 8, driveCapacity d)]
  head ++ padTo 20 ((d.ident.map (·.serial)).getD []) ++ leBytes 4 (slotsOf (driveCapacity d)) ++ leBytes 8 ((d.ident.map (·.uniqueId.toNat)).getD 0)

/-- Slots that hold a drive. -/
def filledSlots (s : State) : Nat := ((List.range 64).filter (fun d => (driveAt s d).state != .empty)).length

/-- DRIVE_INVENTORY. -/
def execDriveInventory (ch : Nat) (s : State) : Res :=
  .next (mbxRow s ch 0x400 (fun s _ gen =>
    noGen s gen { s := s, pay := padTo 16 [BitVec.ofNat 8 (filledSlots s)] ++ ((List.range 64).map (inventoryEntry s)).flatten }))

/-! ## DRIVE_ADMIT -/

/-- The pool that a drive belongs to (R274). -/
def drivePool (s : State) (slot : Nat) : Option Nat :=
  let d := driveAt s slot
  if d.state = .member ∨ d.state = .evacuating then d.pool else none

/-- Whether a drive's active format serves (R11). -/
def formatUsable (d : Drive) : Bool :=
  match d.ident with
  | some i => i.lbaData == 4096 && (d.metaFmt == 16 || d.metaFmt == 64) && !i.protInfo
  | none => false

/-- Whether a drive holds a Pool Ledger that the device recognises (R12). -/
def hasLedger (d : Drive) : Bool := (d.ledger0.map (·.valid)).getD false || (d.ledger1.map (·.valid)).getD false

/-- Whether the device may and can format a drive (R12). -/
def mayFormat (d : Drive) (permit ok : Bool) : Bool :=
  permit && ok && !(hasLedger d) && (d.ident.map (fun i => i.formatOk && (i.offers16 || i.offers64))).getD false

/-- The drive is formatted: 16 bytes of metadata where it offers them, protection information disabled, nothing on it. -/
def formatDrive (s : State) (slot : Nat) : State :=
  emit (setDrive s slot (fun d =>
    let m := if (d.ident.map (·.offers16)).getD false then 16 else 64
    { d with metaFmt := m, flash := [], sys := [], fills := [], ident := d.ident.map (fun i => { i with lbaData := 4096, metaBytes := m, protInfo := false }) })) (.nvmeFormat slot)

/-- What refuses a DRIVE_ADMIT of an existing slot to an existing pool. -/
def admitRefused (s : State) (slot pool flags : Nat) : Option Nat :=
  let st := (driveAt s slot).state
  if held s (.drive slot) || (pool != 0xFF && held s (.pool pool)) then some 6
  else if !(st == .present || (flags / 4 % 2 == 1 && (st == .stale || st == .failed))) then some 0x402
  else if pool ≠ 0xFF ∧ ((poolAt s pool).bind (fun p => freeKey p.members 0 64)).isNone then some 0x201
  else if !(opFree s) then some 0xA
  else none

/-- Admission: format under R12, mark under R34, then READY or a member with a new member index (R22, R123). -/
def admitDrive (s : State) (slot pool flags : Nat) (formatOk : Bool) : MbxOut :=
  let d := driveAt s slot
  let readmit := d.state != .present
  let usable := formatUsable d
  if !usable && (readmit || !(mayFormat d (flags % 2 == 1) formatOk)) then
    let s := setDrvState s slot .noformat
    accepted (startOp s 0x401 (.drive slot) [2, 0xFF] (some 0x401))
  else
    let s := if usable then s else formatDrive s slot
    let plp := flags / 2 % 2 == 1
    let s := setDrive s slot (fun d => { d with plp := plp, flushed := (d.ident.map (·.vwc)).getD false && !plp, pool := none, member := none })
    let s := if readmit then setDrive s slot (fun d => { d with ledger0 := none, ledger1 := none }) else s
    if pool = 0xFF then accepted (startOp (setDrvState s slot .ready) 0x401 (.drive slot) [4, 0xFF] (some 0))
    else
      let idx := (((poolAt s pool).bind (fun p => freeKey p.members 0 64))).getD 0
      let s := retryEvac (writeLedger (joinPool s pool slot idx) pool) pool
      accepted (startOp s 0x401 (.drive slot) [5, BitVec.ofNat 8 idx] (some 0))

/-- A command that names a drive slot: absent, then the generation of the pool that it names or the drive belongs to (R274). -/
def driveCmd (s : State) (ch op : Nat) (pool : Bytes → Option Nat) (f : State → Bytes → Nat → MbxOut) : State :=
  mbxRow s ch op (fun s b gen =>
    let slot := fieldAt b 0 1
    match pool b with
    | some pi =>
      (match poolNamed s pi with
       | none => mbxFail s 0xB 0
       | some p => if 64 ≤ slot then mbxFail s 0xB 0 else withGen s gen p.gen (fun t => genOf t pi) (f s b slot))
    | none =>
      if 64 ≤ slot then mbxFail s 0xB 0
      else
        match drivePool s slot with
        | some pi => withGen s gen (genOf s pi) (fun t => genOf t pi) (f s b slot)
        | none => noGen s gen (f s b slot))

/-- DRIVE_ADMIT. -/
def execDriveAdmit (ch : Nat) (formatOk : Bool) (s : State) : Res :=
  .next (driveCmd s ch 0x401 (fun b => if fieldAt b 1 1 = 0xFF then none else some (fieldAt b 1 1)) (fun s b slot =>
    match admitRefused s slot (fieldAt b 1 1) (fieldAt b 2 1) with
    | some st => mbxFail s st 0
    | none => admitDrive s slot (fieldAt b 1 1) (fieldAt b 2 1) formatOk))

/-! ## DRIVE_FAIL, DRIVE_EVACUATE, DRIVE_RELEASE -/

/-- DRIVE_FAIL: never refused as BUSY. -/
def execDriveFail (ch : Nat) (s : State) : Res :=
  .next (driveCmd s ch 0x402 (fun _ => none) (fun s _ slot =>
    if (drivePool s slot).isNone then mbxFail s 0x402 0 else { s := failMember s slot }))

/-- DRIVE_EVACUATE: refused where R20 forbids it. -/
def execDriveEvacuate (ch : Nat) (s : State) : Res :=
  .next (driveCmd s ch 0x403 (fun _ => none) (fun s _ slot =>
    if held s (.drive slot) then mbxFail s 6 0
    else if (driveAt s slot).state != .member then mbxFail s 0x402 0
    else if !(((drivePool s slot).bind (poolAt s)).map mayLeave).getD false then mbxFail s 0x403 0
    else if !(opFree s) then mbxFail s 0xA 0
    else
      let (s, id) := startOp s 0x403 (.drive slot) [] none
      accepted (startEvac (setDrive s slot (fun d => { d with evacOp := some id })) slot .command, id)))

/-- DRIVE_RELEASE: back to PRESENT, no longer managed. -/
def execDriveRelease (ch : Nat) (s : State) : Res :=
  .next (driveCmd s ch 0x404 (fun _ => none) (fun s _ slot =>
    if held s (.drive slot) then mbxFail s 6 0
    else if (driveAt s slot).state = .empty || (drivePool s slot).isSome then mbxFail s 0x402 0
    else { s := setDrive (setDrvState s slot .present) slot (fun d => { d with pool := none, member := none }) }))

/-! ## Policies (R287, Table 10.7) -/

/-- Policies in order of ID: ID, whether of pool scope, lowest and highest value. CC_MIN_RATE's upper bound is QP_CC_CFG.INIT_RATE. -/
def policyRows (s : State) : List (Nat × Bool × Nat × Nat) :=
  [(0x01, true, 16, 240), (0x02, true, 16, 240), (0x03, true, 16, 240), (0x04, false, 4, 64), (0x05, true, 1, 10), (0x06, true, 1, 10), (0x10, true, 0, 1),
   (0x11, true, 6, 64), (0x12, true, 6, 64), (0x13, true, 6, 64), (0x14, true, 20, 1000), (0x15, true, 20, 50000), (0x16, true, 1, 25), (0x20, true, 10, 100),
   (0x21, true, 5, 100), (0x22, true, 1, 100), (0x23, true, 1, 90), (0x30, true, 8, 4096), (0x31, true, 2, 16), (0x32, true, 1, 24), (0x33, true, 50, 255),
   (0x40, false, 0, 1), (0x41, false, 1, 255), (0x42, false, 1, fld s .qpCcCfg 31 16), (0x50, false, 0, 1)]

/-- Orderings: the first policy's value is at most the second's. -/
def policyOrder : List (Nat × Nat) := [(0x01, 0x03), (0x03, 0x02), (0x05, 0x06), (0x11, 0x12), (0x12, 0x13), (0x14, 0x15), (0x21, 0x20), (0x22, 0x20)]

/-- One entry of POLICY_SET. -/
structure PolEntry where
  id : Nat
  scope : Nat
  pool : Nat
  value : Nat
deriving DecidableEq, Repr

def polEntry (b : Bytes) (i : Nat) : PolEntry :=
  let o := 8 + 8 * i
  { id := fieldAt b o 2, scope := fieldAt b (o + 2) 1, pool := fieldAt b (o + 3) 1, value := fieldAt b (o + 4) 4 }

/-- Whether an entry fails by itself. -/
def entryBad (s : State) (e : PolEntry) : Bool :=
  match (policyRows s).find? (fun r => r.1 == e.id) with
  | none => true
  | some (_, pool, lo, hi) =>
    e.scope != (if pool then 1 else 0) || (pool && (poolNamed s e.pool).isNone) || decide (e.value < lo ∨ hi < e.value)

/-- A pool's value of a policy once a set is applied: the last entry that names it, else the value in force. -/
def policyAfter (s : State) (l : List PolEntry) (pi id : Nat) : Nat :=
  ((l.reverse.find? (fun e => e.id == id && e.scope == 1 && e.pool == pi)).map (·.value)).getD (((poolAt s pi).map (fun p => polOf p id)).getD (polDefault id))

/-- The index of the first entry that names either policy of an ordering which the set breaks in some pool. -/
def orderBad (s : State) (l : List PolEntry) : Option Nat :=
  let broken := (s.pools.map (fun e => (policyOrder.filter (fun o => decide (policyAfter s l e.1 o.2 < policyAfter s l e.1 o.1))).map (fun o => (e.1, o)))).flatten
  let hits := broken.filterMap (fun x => l.findIdx? (fun e => e.scope == 1 && e.pool == x.1 && (e.id == x.2.1 || e.id == x.2.2)))
  hits.foldl (fun m i => some (min (m.getD i) i)) none

/-- FIRST_BAD of a set. -/
def firstBad (s : State) (l : List PolEntry) : Option Nat :=
  match l.findIdx? (entryBad s), orderBad s l with
  | some a, some b => some (min a b)
  | some a, none => some a
  | none, b => b

/-- What a pool adapts stays within its policies' bounds. -/
def clampPool (p : Pool) : Pool :=
  let within (lo hi v : Nat) : Nat := max lo (min hi v)
  { p with watermark := within (polOf p 0x01) (polOf p 0x02) p.watermark
           reclaimPct := within (polOf p 0x05) (polOf p 0x06) p.reclaimPct
           f4 := within (polOf p 0x11) (polOf p 0x13) p.f4
           share := if (polOf p 0x20 : Rat) < p.share then (polOf p 0x20 : Nat) else p.share }

/-- One entry is applied: kept by POOL_ID in the configuration area, or on the shelf; the congestion policies are written to QP_CC_CFG, and G2_EVICTION
to MC_CTRL with the Map Cache briefly disabled. -/
def applyPolicy (s : State) (e : PolEntry) : State :=
  if e.scope = 1 then
    let s := setPool s e.pool (fun p => clampPool { p with policies := tput p.policies e.id e.value })
    match poolAt s e.pool with
    | some p => { s with ctl := { s.ctl with configPol := s.ctl.configPol.filter (fun x => !(x.1 == p.id)) ++ [(p.id, p.policies)] } }
    | none => s
  else
    let s := { s with ctl := { s.ctl with policies := tput s.ctl.policies e.id e.value } }
    if e.id = 0x41 then setFld s .qpCcCfg 55 48 e.value
    else if e.id = 0x42 then setFld s .qpCcCfg 15 0 e.value
    else if e.id = 0x40 ∧ fld s .mcCtrl 1 1 ≠ e.value then
      let on := flag s .mcCtrl 0
      let s := setFld (mcDisable s) .mcCtrl 1 1 e.value
      if on then setBit s .mcCtrl 0 else s
    else s

/-- POLICY_GET: the policies of one scope, in order of ID. -/
def execPolicyGet (ch : Nat) (s : State) : Res :=
  .next (mbxRow s ch 0x500 (fun s b gen =>
    let scope := fieldAt b 0 1
    let pi := fieldAt b 1 1
    if scope = 1 ∧ (poolNamed s pi).isNone then mbxFail s 0xB 0
    else
      withGen s gen s.ctl.policyGen (fun t => t.ctl.policyGen) (
        if 1 < scope then mbxFail s 5 0
        else
          let rows := (policyRows s).filter (fun r => r.2.1 == (scope == 1))
          let val (id : Nat) : Nat := if scope = 1 then ((poolAt s pi).map (fun p => polOf p id)).getD 0 else shelfPol s id
          { s := s, pay := pack 16 [(0, 2, rows.length), (8, 8, s.ctl.policyGen)] ++
              (rows.map (fun r => pack 8 [(0, 2, r.1), (2, 1, scope), (3, 1, if scope = 1 then pi else 0), (4, 4, val r.1)])).flatten })))

/-- POLICY_SET: the whole set or none of it. -/
def setPolicies (s : State) (b : Bytes) : MbxOut :=
  let n := fieldAt b 0 2
  let answer (s : State) (st bad : Nat) : MbxOut := { s := s, status := st, pay := pack 16 [(0, 2, bad), (8, 8, s.ctl.policyGen)] }
  if n = 0 ∨ 64 < n then answer s 5 0xFFFF
  else
    let l := (List.range n).map (polEntry b)
    match firstBad s l with
    | some i => answer s 0xC i
    | none =>
      let s := forAll l applyPolicy s
      answer { s with ctl := { s.ctl with policyGen := s.ctl.policyGen + 1 } } 0 0xFFFF

/-- POLICY_SET. -/
def execPolicySet (ch : Nat) (s : State) : Res :=
  .next (mbxRow s ch 0x501 (fun s b gen => withGen s gen s.ctl.policyGen (fun t => t.ctl.policyGen) (setPolicies s b)))

/-! ## OPERATION_END (R275) -/

/-- The object of an operation as an index. -/
def objIndex (o : OpObj) : Nat :=
  match o with
  | .drive d => d
  | .pool p => p
  | .volume v => v
  | .none => 0

/-- An operation with nothing left to wait for ends with its planned status; an export, a conversion and a deletion go on, and end when their last
condition holds. Other operations end where their work does. -/
def operationEnd (s : State) (id : Nat) : State :=
  match tget s.ctl.ops id with
  | none => s
  | some o =>
    if o.state != 1 then s
    else
      match o.plan with
      | some st => endOp s id st
      | none =>
        if o.opcode = 0x202 then exportStep s id o (objIndex o.obj)
        else if o.opcode = 0x301 then deleteStep s id (objIndex o.obj)
        else if o.opcode = 0x206 then
          if ((poolAt s (objIndex o.obj)).map (fun p => decide (4 ≤ p.formatOldest))).getD true then endOp s id 0 else s
        else s

/-- OPERATION_END. -/
def execOperationEnd (opId : Nat) (s : State) : Res := .next (operationEnd s opId)

end Sys2Proof.Machine
end

