-- ==== Sys2Proof/Machine/KeyCmds.lean ====
section
/-! DEFINITION. The keys and security group of mailbox commands (R42, R283, R285). -/

namespace Sys2Proof.Machine

/-! ## KEKs -/

/-- KEK_SESSION: an ephemeral P-384 pair; SESSION_ID and the pair are free (log entry 2). -/
def execKekSession (ch : Nat) (s : State) : Res :=
  .next (mbxRow s ch 0x700 (fun s b gen =>
    noGen s gen (
      let (id, s) := freshId s (2 ^ 32 - 1) (s.ctl.sessions.map (·.id))
      let pair := s.fresh
      let (_, s) := drawNat s
      let x : KekSession := { id := id, pair := pair, clientPub := sub b 0 96, since := nowOf s }
      { s := { s with ctl := { s.ctl with sessions := s.ctl.sessions ++ [x] } }, pay := padTo 96 (p384Public pair) ++ leBytes 4 id })))

/-- KEK_SESSION_LAPSE: 60 s after it began a session is gone. -/
def execKekSessionLapse (session : Nat) (s : State) : Res :=
  .next <|
    match s.ctl.sessions.find? (fun x => x.id == session) with
    | none => s
    | some x =>
      let s := reach s (x.since + 60000000000)
      { s with ctl := { s.ctl with sessions := s.ctl.sessions.filter (fun y => y.id != session) } }

/-- KEK_LOAD: a session serves one, within 60 s. KEK_CHECK is free (log entry 2). -/
def loadKek (s : State) (b : Bytes) : MbxOut :=
  match s.ctl.sessions.find? (fun x => x.id == fieldAt b 0 4 && decide (nowOf s < x.since + 60000000000)) with
  | none => mbxFail s 5 0
  | some x =>
    if 15 < fieldAt b 4 2 then mbxFail s 5 0
    else
      let s := { s with ctl := { s.ctl with sessions := s.ctl.sessions.filter (fun y => y.id != x.id) } }
      match kekDecrypt x.pair x.clientPub (sub b 8 12) (sub b 20 32) (sub b 52 16) with
      | none => mbxFail s 0x701 0
      | some k =>
        let (chk, s) := drawBytes s 4
        { s := { s with ctl := { s.ctl with keks := tput s.ctl.keks (fieldAt b 4 2) k } }, pay := chk }

/-- KEK_LOAD. -/
def execKekLoad (ch : Nat) (s : State) : Res := .next (mbxRow s ch 0x701 (fun s b gen => noGen s gen (loadKek s b)))

/-- What a wrapped key or secret holds: KEK_ABSENT, UNWRAP_FAILED, or its bytes (R285). -/
def unwrap (s : State) (kek : Nat) (w : Bytes) : Nat × Bytes :=
  match tget s.ctl.keks kek with
  | none => (0x702, [])
  | some k =>
    match aesKeyUnwrap k w with
    | none => (0x701, [])
    | some x => (0, x)

/-! ## Volume keys -/

/-- The key check value: the first 4 bytes of HMAC-SHA-384, keyed with the key, over the volume's NGUID. -/
def keyCheckOf (v : Volume) (key : Bytes) : BitVec 32 := BitVec.ofNat 32 (leNat (padTo 4 (hmacSha384 key (leBytes 16 v.nguid.toNat))))

/-- A key takes its place in the key store. -/
def storeKey (s : State) (vol gen : Nat) (key : Bytes) : State :=
  { s with ctl := { s.ctl with keys := s.ctl.keys.filter (fun k => !(k.vol == vol && k.gen == gen)) ++ [{ vol := vol, gen := gen, key := key }] } }

/-- A volume takes a new current key generation with its check value; a rotation from the old one starts (R42, R283). -/
def startRotation (s : State) (vol : Nat) (v : Volume) (gen : Nat) (key : Bytes) : State :=
  let direct := v.kind == .direct
  let s := setVol s vol (fun v =>
    { v with encrypted := true, prevKeyGen := v.keyGen, keyGen := gen, keyCheck := keyCheckOf v key
             rotation := if direct then some {} else none, rotating := true })
  let s := storeKey s vol gen key
  let s := if direct then sendRec s v.pool (.keyRotate false vol gen 0 0 0) else s
  writeLedger (writeTables s v.pool) v.pool

/-- The first key of an encrypted volume is recorded: a mapped volume holds no block yet, a direct one rotates from generation 0 (R283). -/
def recordFirst (s : State) (vol : Nat) (v : Volume) (key : Bytes) : State :=
  if v.kind = .direct then startRotation s vol v 1 key
  else
    let s := setVol s vol (fun v => { v with keyGen := 1, keyCheck := keyCheckOf v key })
    writeLedger (writeTables (storeKey s vol 1 key) v.pool) v.pool

/-- A keys command that names a volume: absent, GEN 0, then held. -/
def keyCmd (s : State) (ch op : Nat) (f : State → Bytes → Nat → Volume → MbxOut) : State :=
  mbxRow s ch op (fun s b gen =>
    let id := fieldAt b 0 2
    match volNamed s id with
    | none => mbxFail s 0xB 0
    | some v => noGen s gen (if held s (.volume id) then mbxFail s 6 0 else f s b id v))

/-- KEY_LOAD. -/
def loadKey (s : State) (b : Bytes) (id : Nat) (v : Volume) : MbxOut :=
  let gen := fieldAt b 2 2
  let first := v.keyGen == 0
  if !v.encrypted || (if first then gen != 1 else !(gen == v.keyGen || (gen == v.prevKeyGen && gen != 0))) then mbxFail s 5 0
  else
    match unwrap s (fieldAt b 4 2) (sub b 8 72) with
    | (0, key) =>
      let chk := (keyCheckOf v key).toNat
      if first then { s := recordFirst s id v key, pay := leBytes 4 chk }
      else if gen = v.keyGen ∧ keyCheckOf v key ≠ v.keyCheck then mbxFail s 0x704 0
      else { s := storeKey s id gen key, pay := leBytes 4 chk }
    | (st, _) => mbxFail s st 0

/-- KEY_LOAD. -/
def execKeyLoad (ch : Nat) (s : State) : Res := .next (keyCmd s ch 0x702 loadKey)

/-- KEY_ROTATE: of an encrypted volume to another generation, or of an unencrypted one to generation 1. -/
def rotateKey (s : State) (b : Bytes) (id : Nat) (v : Volume) : MbxOut :=
  let gen := fieldAt b 2 2
  let plain := ((poolAt s v.pool).map (fun p => p.layout == 3)).getD false
  if v.rotating || v.rotation.isSome then mbxFail s 0x703 0
  else if !v.encrypted && v.kind == .direct && plain then mbxFail s 0x314 0
  else if (v.encrypted && v.keyGen == 0) || gen == 0 || gen == v.keyGen || (!v.encrypted && gen != 1) then mbxFail s 5 0
  else
    match unwrap s (fieldAt b 4 2) (sub b 8 72) with
    | (0, key) =>
      if !(opFree s) then mbxFail s 0xA 0
      else accepted (startOp (startRotation s id v gen key) 0x703 (.volume id) (leBytes 4 (keyCheckOf v key).toNat) none)
    | (st, _) => mbxFail s st 0

/-- KEY_ROTATE. -/
def execKeyRotate (ch : Nat) (s : State) : Res := .next (keyCmd s ch 0x703 rotateKey)

/-- KEY_UNLOAD: a volume's keys, or all volume keys, leave the key store. -/
def execKeyUnload (ch : Nat) (s : State) : Res :=
  .next (mbxRow s ch 0x704 (fun s b gen =>
    let id := fieldAt b 0 2
    if id = 0xFFFF then noGen s gen { s := { s with ctl := { s.ctl with keys := [] } } }
    else if (volNamed s id).isNone then mbxFail s 0xB 0
    else noGen s gen (
      if held s (.volume id) then mbxFail s 6 0
      else { s := { s with ctl := { s.ctl with keys := s.ctl.keys.filter (fun k => k.vol != id) } } })))

/-! ## Secrets -/

/-- HOST_SECRET_SET: REQUIRE and HASH persist; the secrets are in the key store. DELETE removes the record. -/
def setHostSecret (s : State) (b : Bytes) : MbxOut :=
  let host : BitVec 128 := BitVec.ofNat 128 (fieldAt b 0 16)
  let fl := fieldAt b 16 1
  let hash := fieldAt b 17 1
  let rest := s.ctl.hosts.filter (fun h => !(h.hostId == host))
  if fl / 4 % 2 = 1 then { s := { s with ctl := { s.ctl with hosts := rest } } }
  else if hash = 0 ∨ 3 < hash then mbxFail s 5 0
  else
    match unwrap s (fieldAt b 18 2) (sub b 24 72) with
    | (0, h) =>
      let rec_ (c : Option Bytes) : HostSec := { hostId := host, require := fl % 2 == 1, hash := hash, host := some h, ctrl := c }
      if fl / 2 % 2 = 0 then { s := { s with ctl := { s.ctl with hosts := rest ++ [rec_ none] } } }
      else
        (match unwrap s (fieldAt b 18 2) (sub b 96 72) with
         | (0, c) => { s := { s with ctl := { s.ctl with hosts := rest ++ [rec_ (some c)] } } }
         | (st, _) => mbxFail s st 0)
    | (st, _) => mbxFail s st 0

/-- HOST_SECRET_SET. -/
def execHostSecretSet (ch : Nat) (s : State) : Res := .next (mbxRow s ch 0x705 (fun s b gen => noGen s gen (setHostSecret s b)))

/-- INBAND_SECRET_SET. -/
def execInbandSecretSet (ch : Nat) (s : State) : Res :=
  .next (mbxRow s ch 0x706 (fun s b gen =>
    noGen s gen (
      match unwrap s (fieldAt b 0 2) (sub b 8 56) with
      | (0, k) => { s := { s with ctl := { s.ctl with inbandSecret := some k } } }
      | (st, _) => mbxFail s st 0)))

end Sys2Proof.Machine
end

