-- ==== Sys2Proof/Machine/Feeds.lean ====
section
/-! DEFINITION. The boot record (R326), and the feeds: sensing and classification (R309), the link between the Gloves (R310), the Crown (R311 to R313), the
interlock and gate read-back (R315, R316) and the continuous self-test (R317). -/

namespace Sys2Proof.Machine

/-! ## The boot record (R326) -/

/-- The record in use: the valid copy with the higher SEQ, or the Standby-die register while the MRAM cannot be read. -/
def bootRec (s : State) : BootRec :=
  if s.hbx.dead then s.hbx.bootStandby.getD {}
  else
    match s.hbx.boot0, s.hbx.boot1 with
    | some a, some b => if b.seq < a.seq then a else b
    | some a, none => a
    | none, some b => b
    | none, none => {}

/-- A write of the boot record: to the copy that does not hold the highest valid SEQ, with SEQ raised by one and LAST_TIME the highest time. -/
def bootPut (s : State) (r : BootRec) : State :=
  let old := bootRec s
  let r := { r with seq := old.seq + 1, lastTime := max old.lastTime (nowOf s) }
  if s.hbx.dead then { s with hbx := { s.hbx with bootStandby := some r } }
  else if s.hbx.boot0 = some old then { s with hbx := { s.hbx with boot1 := some r } }
  else { s with hbx := { s.hbx with boot0 := some r } }

/-! ## Feeds and Gloves -/

def otherG (g : Glove) : Glove :=
  match g with
  | .a => .b
  | .b => .a

/-- The code of a Glove as a holder (Table 12.6). -/
def codeG (g : Glove) : Nat :=
  match g with
  | .a => 1
  | .b => 2

def gloveAt (s : State) (g : Glove) : GloveSt :=
  match g with
  | .a => s.stby.a
  | .b => s.stby.b

def setGlove (s : State) (g : Glove) (f : GloveSt → GloveSt) : State :=
  match g with
  | .a => { s with stby := { s.stby with a := f s.stby.a } }
  | .b => { s with stby := { s.stby with b := f s.stby.b } }

def feedAt (s : State) (x : Glove) : Feed :=
  match x with
  | .a => s.stby.feedA
  | .b => s.stby.feedB

def setFeed (s : State) (x : Glove) (f : Feed → Feed) : State :=
  match x with
  | .a => { s with stby := { s.stby with feedA := f s.stby.feedA } }
  | .b => { s with stby := { s.stby with feedB := f s.stby.feedB } }

/-- GATE_x_EN as the interlock drives it. -/
def gateOf (s : State) (x : Glove) : Bool :=
  match x with
  | .a => s.stby.outA
  | .b => s.stby.outB

/-- The holder as the device reports it: 0 none, 1 A, 2 B. -/
def holderOf (s : State) : Nat := if s.stby.a.crown then 1 else if s.stby.b.crown then 2 else 0

/-- The link is up when both Gloves have declared it so. -/
def linkOk (s : State) : Bool := s.stby.a.link && s.stby.b.link

/-- OSC_DRIFT for a Glove: its peer's frame-period test or the timebase test finds its oscillator out of range (Table 12.3). -/
def driftOf (s : State) (g : Glove) : Bool := (gloveAt s g).oscPeer || (gloveAt s g).oscBase

/-- MODE of Table 12.4. -/
def modeOf (s : State) : Nat :=
  if s.stby.conflict then 2 else if s.stby.faultLatched then 3 else if s.stby.outA || s.stby.outB then 0 else 1

/-- A GLV_EVENT bit is set; where Table 15.1 counts the event, it is counted while the core runs. -/
def glvEvent (s : State) (b : Nat) (ctr : Option Nat) : State :=
  let s := setBit s .glvEvent b
  match ctr with
  | some n => if s.rails.coreReset then s else count s n
  | none => s

/-- Management event 8 (R319). No core, no event. -/
def feedMgmt (s : State) (detail : Nat) : State := if s.rails.coreReset then s else mgmt s 8 0 detail

/-- GATE_x_FB against GATE_x_EN (R316), and since when it has been low. -/
def fbTrack (s : State) (x : Glove) : State :=
  let en := gateOf s x
  let now := nowOf s
  let s := setFeed s x (fun f =>
    { f with fbLowFrom := if f.fb then none else some (f.fbLowFrom.getD now)
             disagreeFrom := if f.fb = en then none else some (f.disagreeFrom.getD now)
             stuckOff := f.stuckOff && f.fb != en })
  let f := feedAt s x
  if f.stuckOn || f.stuckOff then s else setGlove s x (fun g => { g with failed := g.failed &&& ~~~(0x80#16) })

/-- The interlock drives a gate output (R315). -/
def gateDrive (s : State) (x : Glove) (on : Bool) : State :=
  if gateOf s x = on then s
  else
    let s := match x with
      | .a => { s with stby := { s.stby with outA := on } }
      | .b => { s with stby := { s.stby with outB := on } }
    let s := if on then s else { s with stby := { s.stby with lowSince := nowOf s } }
    fbTrack (emit s (.gate x on)) x

/-- A Glove drops its request and gives up the Crown and any claim. -/
def dropAll (s : State) (g : Glove) : State :=
  setGlove s g (fun q => { q with request := false, crown := false, claiming := false, claimSent := false, stuckHold := false })

/-- Whether an output may rise: requested, no CONFLICT, no interlock fault, and the other output low. -/
def mayRise (s : State) (x : Glove) : Bool :=
  (gloveAt s x).alive && (gloveAt s x).request && !(gateOf s x) && !(gateOf s (otherG x)) && !s.stby.conflict && !s.stby.faultLatched

/-- The interlock at work (R315): outputs follow requests; two requests at once latch CONFLICT; an output rises only after the dead time,
here at once when both outputs have been low for 60 µs. -/
def interlock (s : State) : State :=
  let s := forAll [Glove.a, Glove.b] (fun s x =>
    if (gloveAt s x).alive && (gloveAt s x).request then s else gateDrive s x false) s
  if s.stby.a.request && s.stby.b.request then
    let s := gateDrive (gateDrive s .a false) .b false
    let s := { s with stby := { s.stby with conflict := true } }
    glvEvent (dropAll (dropAll s .a) .b) 1 (some 0x7CA)
  else
    forAll [Glove.a, Glove.b] (fun s x =>
      if mayRise s x && decide (s.stby.lowSince + 60000 ≤ nowOf s) then gateDrive s x true else s) s

/-! ## The Crown -/

/-- Whether a Glove may take the Crown, apart from the wait or YIELD of R311. -/
def crownFit (s : State) (g : Glove) : Bool :=
  (gloveAt s g).alive && (feedAt s g).state == 2 && !(driftOf s g) && !s.stby.faultLatched && !s.stby.conflict

def canClaim (s : State) (g : Glove) : Bool := crownFit s g && !(gloveAt s g).crown

/-- A Glove takes the Crown (R312, step 2 and 3): its request rises unless a feed is stuck on (R316), and its lease begins. -/
def takeCrown (s : State) (g : Glove) : State :=
  let stuck := s.stby.feedA.stuckOn || s.stby.feedB.stuckOn
  let now := nowOf s
  let s := setGlove s g (fun q =>
    { q with crown := true, view := 0, claiming := false, claimSent := false, yieldSeen := false, yieldDue := false, frames := 0
             lastRenewTx := now, request := !stuck, stuckHold := stuck })
  let s := { s with stby := { s.stby with crownChanges := s.stby.crownChanges + 1, crownTime := now }
                    rails := { s.rails with crownFrom := some (s.rails.crownFrom.getD now) }
                    boot := { s.boot with step := max 2 s.boot.step } }
  interlock (feedMgmt (glvEvent s 0 (some 0x7C8)) (codeG g))

/-- A holder drops its request, gives up the Crown and sends YIELD in its next frame (R313). -/
def yieldCrown (s : State) (g : Glove) : State :=
  if (gloveAt s g).crown then
    interlock (setGlove s g (fun q => { q with crown := false, request := false, stuckHold := false, view := 0, yieldDue := true }))
  else s

/-- A handover to a Glove (R313): the reason of a refusal, or none with the holder yielding; nothing where the Glove holds the Crown already, or
where nobody holds it. -/
def handover (s : State) (g : Glove) : Option Nat × State :=
  if (gloveAt s g).crown then (none, s)
  else if (feedAt s g).state != 2 then (some 1, s)
  else if !(gloveAt s g).alive then (some 2, s)
  else if driftOf s g then (some 3, s)
  else if s.stby.conflict || s.stby.faultLatched then (some 4, s)
  else if !(linkOk s) then (some 5, s)
  else (none, yieldCrown s (otherG g))

/-! ## Classification (R309) -/

/-- The Glove that classifies a feed: its own while alive, else the other. -/
def classifier (s : State) (x : Glove) : Option Glove :=
  if (gloveAt s x).alive then some x else if (gloveAt s (otherG x)).alive then some (otherG x) else none

/-- The reading that the classifier of a feed goes by, in 10 mV. -/
def readingOf (s : State) (x : Glove) : Option Int :=
  (classifier s x).bind (fun g => if g = x then (feedAt s x).vOwn else (feedAt s x).vPeer)

/-- The state of Table 12.1 that a feed's condition asks for: the first row that applies. A sense input below −0.1 V is a feed below −2.4 V
through the divider of R308. -/
def feedCond (s : State) (x : Glove) : Option Nat :=
  (readingOf s x).map (fun v =>
    let f := feedAt s x
    let own := (gloveAt s x).alive
    let uv : Int := fld s .glvFeedCfg 31 16
    let ov : Int := fld s .glvFeedCfg 47 32
    let hyst : Int := fld s .glvFeedCfg 15 8
    if own && f.wire == 6 then 6
    else if own && (f.wire == 7 || decide (v < 1000)) then 7
    else if v < -240 then 4
    else if !f.faultN then 5
    else if v < 1000 then 0
    else if v < uv ∨ (f.wasLow = true ∧ v ≤ uv + hyst) then 1
    else if ov < v ∨ (f.wasHigh = true ∧ ov - hyst ≤ v) then 3
    else 2)

/-- A feed that is no longer LOW has risen above UV + HYST since it last was, or one no longer HIGH has fallen below OV − HYST (Table 12.1). -/
def hystTrack (s : State) (x : Glove) : State :=
  match readingOf s x with
  | none => s
  | some v =>
    let above := decide ((fld s .glvFeedCfg 31 16 : Int) + (fld s .glvFeedCfg 15 8 : Int) < v)
    let under := decide (v < (fld s .glvFeedCfg 47 32 : Int) - (fld s .glvFeedCfg 15 8 : Int))
    setFeed s x (fun f => { f with wasLow := f.wasLow && (f.state == 1 || !above), wasHigh := f.wasHigh && (f.state == 3 || !under) })

/-- The condition of a feed is looked at: a state other than the present one begins or goes on to wait for DEBOUNCE. -/
def reclass (s : State) (x : Glove) : State :=
  match feedCond s x with
  | none => setFeed s x (fun f => { f with cand := none })
  | some c =>
    let now := nowOf s
    setFeed s x (fun f =>
      { f with cand := if c = f.state then none
                       else match f.cand with
                            | some (c', t) => some (c, if c' = c then t else now)
                            | none => some (c, now) })

/-- A reading enters the extremes of its second (R319). -/
def windowRead (f : Feed) (now : Nat) (v : Int) : Feed :=
  let w := now / 1000000000
  let lo (m : Option Int) : Option Int := some (match m with
    | some y => if v < y then v else y
    | none => v)
  let hi (m : Option Int) : Option Int := some (match m with
    | some y => if y < v then v else y
    | none => v)
  if w = f.winAt then { f with winMin := lo f.winMin, winMax := hi f.winMax }
  else
    { f with winAt := w, vMin := if w = f.winAt + 1 then f.winMin else none, vMax := if w = f.winAt + 1 then f.winMax else none
             winMin := some v, winMax := some v }

/-- The extremes of the second before the current one. -/
def vExtremes (f : Feed) (now : Nat) : Option Int × Option Int :=
  let w := now / 1000000000
  if w = f.winAt then (f.vMin, f.vMax) else if w = f.winAt + 1 then (f.winMin, f.winMax) else (none, none)

/-- POWER_FAIL_WARN (R318): an alive Glove reads both feeds below PFW; on entering that condition the warning goes to the event register and, with the
time and both readings, to the Hatbox shelf area (Table 13.4). -/
def powerFailCheck (s : State) : State :=
  let pfw : Int := fld s .glvFeedCfg 63 48
  let below (v : Option Int) : Bool := match v with
    | some v => decide (v < pfw)
    | none => false
  let warn := (s.stby.a.alive && below s.stby.feedA.vOwn && below s.stby.feedB.vPeer)
    || (s.stby.b.alive && below s.stby.feedB.vOwn && below s.stby.feedA.vPeer)
  if !warn then { s with stby := { s.stby with pfWarned := false } }
  else if s.stby.pfWarned then s
  else
    let v (x : Glove) : Nat := match readingOf s x with
      | some v => if v < 0 then Config.negativeReading v % 2 ^ 16 else v.toNat
      | none => 0xFFFF
    let r := bootRec s
    let s := { setBit s .glvEvent 10 with stby := { s.stby with pfWarned := true }
                                          hbx := { s.hbx with pfWarning := some (nowOf s, v .a, v .b) } }
    bootPut s { r with pfSerial := r.attemptSerial, pfTime := nowOf s, pfVA := v .a, pfVB := v .b }

/-- GLOVE_ALIVE: a Glove's standby rail comes up; it watches for a holder from now on (R312). The first one powers the Standby die, the start cause
becomes POWER_UP and the GLV_ registers stand at reset (R322, R323). -/
def execGloveAlive (g : Glove) (s : State) : Res :=
  .next (
    if (gloveAt s g).alive then s
    else
      let now := nowOf s
      let first := !s.stby.a.alive && !s.stby.b.alive
      let s := if first then { s with boot := { s.boot with cause := 1, step := 1, warm := false }
                                      rails := { s.rails with aliveFrom := some now, crownFrom := none } } else s
      setGlove s g (fun _ => { alive := true, aliveAt := now, lastRenewRx := now, failed := (gloveAt s g).failed }))

/-- FEED_CONVERSION: a Glove converts both senses and samples IMON, FAULT_N and FB (R309). -/
def execFeedConversion (g : Glove) (va vb : Int) (imonA imonB : Nat) (faultNA faultNB fbA fbB : Bool) (s : State) : Res :=
  .next (
    if !(gloveAt s g).alive then s
    else
      let now := nowOf s
      let scale := fld s .glvImonCfg 15 0
      let put (s : State) (x : Glove) (v : Int) (imon : Nat) (fn fb : Bool) : State :=
        let s := setFeed s x (fun f =>
          let f := { f with faultN := fn, fb := fb, current := imon * scale / 10 }
          if g = x then { f with vOwn := some v } else { f with vPeer := some v })
        let s := if classifier s x = some g then setFeed s x (fun f => windowRead f now v) else s
        reclass (hystTrack (fbTrack s x) x) x
      powerFailCheck (put (put s .a va imonA faultNA fbA) .b vb imonB faultNB fbB))

/-- FEED_STATE_CHANGE: a condition that has lasted DEBOUNCE changes the feed's state (R309); a Crown Glove whose feed leaves OK yields, and a claiming
one withdraws (R311, R313). -/
def execFeedStateChange (x : Glove) (s : State) : Res :=
  .next (
    match (feedAt s x).cand with
    | none => s
    | some (c, t) =>
      let s := reach s (t + fld s .glvFeedCfg 7 0 * 1000)
      let now := nowOf s
      let above := match readingOf s x with
        | some v => decide ((fld s .glvFeedCfg 31 16 : Int) + (fld s .glvFeedCfg 15 8 : Int) < v)
        | none => false
      let under := match readingOf s x with
        | some v => decide (v < (fld s .glvFeedCfg 47 32 : Int) - (fld s .glvFeedCfg 15 8 : Int))
        | none => false
      let s := setFeed s x (fun f =>
        { f with state := c, cand := none, changes := f.changes + 1, changeTime := now
                 okSince := if c = 2 then some now else none
                 wasLow := c = 1 ∨ (f.wasLow = true ∧ above = false)
                 wasHigh := c = 3 ∨ (f.wasHigh = true ∧ under = false) })
      let s := feedMgmt (glvEvent s 3 (some 0x7C9)) c
      if c = 2 then s
      else yieldCrown (setGlove s x (fun q => { q with claiming := false, claimSent := false })) x)

/-! ## The link (R310) -/

/-- GLOVE_FRAME_SEND: a status frame; the message is YIELD where one is due, CLAIM where a claim is to be sent, RENEW in one of 16 frames of the holder. -/
def execGloveFrameSend (g : Glove) (s : State) : Res :=
  .next (
    let q := gloveAt s g
    if !q.alive then s
    else
      let msg : GMsg := if q.yieldDue then .yield else if q.claiming && !q.claimSent then .claim
        else if q.crown && q.frames % 16 == 0 then .renew else .none
      let view := if q.crown then codeG g else q.view
      let now := nowOf s
      let s := setGlove s g (fun q =>
        { q with yieldDue := false, claimSent := q.claimSent || msg == .claim, frames := if q.crown then q.frames + 1 else q.frames
                 lastRenewTx := if msg = .renew then now else q.lastRenewTx })
      let s := if (gloveAt s (otherG g)).alive then setGlove s (otherG g) (fun p => { p with wire := p.wire ++ [(msg, view)] }) else s
      emit s (.glove g msg view (feedAt s g).state))

/-- The peer's frame-period test (Table 12.3, bit 3): outside 125 µs ± 6 % is OSC_DRIFT for the peer. -/
def framePeriodTest (s : State) (g : Glove) (periodNs : Nat) : State :=
  let bad := decide (periodNs < 117500 ∨ 132500 < periodNs)
  let s := setGlove s (otherG g) (fun p => { p with oscPeer := bad })
  let s := setGlove s g (fun q => { q with failed := if bad then q.failed ||| 0x8#16 else q.failed &&& ~~~(0x8#16) })
  if bad then setBit s .glvEvent 7 else s

/-- What a valid frame's message does at its receiver (R311 to R313). -/
def frameEffect (s : State) (g : Glove) (m : GMsg) (v : Nat) : State :=
  let q := gloveAt s g
  let view := if v = codeG g then 0 else v
  let now := nowOf s
  let s := setGlove s g (fun q => { q with view := view })
  match m with
  | .renew => setGlove s g (fun q => { q with lastRenewRx := now, yieldSeen := false, claiming := false, claimSent := false })
  | .yield =>
    let s := setGlove s g (fun q => { q with view := 0, yieldSeen := true })
    if canClaim s g then setGlove s g (fun q => { q with claiming := true, claimSent := false }) else s
  | .claim =>
    if q.claiming && q.claimSent && g == .a && view == 0 && canClaim s g then takeCrown s g
    else setGlove s g (fun q => { q with claiming := false, claimSent := false })
  | .none =>
    if q.claiming && q.claimSent then
      if view = 0 ∧ canClaim s g = true then takeCrown s g else setGlove s g (fun q => { q with claiming := false, claimSent := false })
    else s

/-- GLOVE_FRAME_RECEIVE: the oldest frame on its way arrives; an invalid one breaks the unbroken run. -/
def execGloveFrameReceive (g : Glove) (valid : Bool) (periodNs : Nat) (s : State) : Res :=
  .next (
    let q := gloveAt s g
    match q.wire with
    | [] => s
    | (m, v) :: rest =>
      let s := setGlove s g (fun q => { q with wire := rest })
      if !q.alive then s
      else if !valid then setGlove s g (fun q => { q with unbrokenFrom := none })
      else
        let now := nowOf s
        let late := match q.lastFrame with
          | some t => decide (t + 1000000 ≤ now)
          | none => true
        let s := setGlove s g (fun q =>
          { q with lastFrame := some now, unbrokenFrom := if late then some now else some (q.unbrokenFrom.getD now) })
        frameEffect (framePeriodTest s g periodNs) g m v)

/-- LINK_LOST: no valid frame for 1 ms. -/
def execLinkLost (g : Glove) (s : State) : Res :=
  .next (
    let q := gloveAt s g
    if !q.alive || q.lost then s
    else
      let s := reach s (q.lastFrame.getD q.aliveAt + 1000000)
      glvEvent (setGlove s g (fun q => { q with link := false, lost := true, lastFrame := none, unbrokenFrom := none, wire := [] })) 2 (some 0x7CB))

/-- LINK_UP: 100 ms of unbroken valid frames. -/
def execLinkUp (g : Glove) (s : State) : Res :=
  .next (
    let q := gloveAt s g
    match q.unbrokenFrom with
    | some t => if !q.alive || q.link then s else setGlove (reach s (t + 100000000)) g (fun q => { q with link := true, lost := false })
    | none => s)

/-- LEASE_EXPIRY: the holder's last RENEW is 10 ms old; it drops its request, and its lease of the Crown has ended (R311). -/
def execLeaseExpiry (g : Glove) (s : State) : Res :=
  .next (
    let q := gloveAt s g
    if !q.alive || !q.crown then s
    else interlock (dropAll (reach s (q.lastRenewTx + 10000000)) g))

/-- CROWN_WAIT_EXPIRY: 14 ms after the last RENEW received, or at once after a YIELD, an canClaim Glove claims; with no frame arriving from its peer it takes
the Crown at once (R311, R312). -/
def execCrownWaitExpiry (g : Glove) (s : State) : Res :=
  .next (
    let q := gloveAt s g
    if !(canClaim s g) || q.claiming then s
    else
      let s := if q.yieldSeen then s else reach s (q.lastRenewRx + 14000000)
      if q.lastFrame.isNone || !(gloveAt s (otherG g)).alive then takeCrown s g
      else setGlove s g (fun q => { q with claiming := true, claimSent := false }))

/-! ## Gate read-back and the interlock's rows -/

/-- GATE_FB_TIMEOUT: FB has disagreed with EN for 1 ms (R316). Stuck off, a Crown Glove yields; stuck on, the holder drops its request and keeps the Crown. -/
def execGateFbTimeout (x : Glove) (s : State) : Res :=
  .next (
    match (feedAt s x).disagreeFrom with
    | none => s
    | some t =>
      if (feedAt s x).stuckOn || (feedAt s x).stuckOff then s
      else
        let s := glvEvent (reach s (t + 1000000)) 4 none
        let s := setGlove s x (fun g => { g with failed := g.failed ||| 0x80#16 })
        if gateOf s x then yieldCrown (setFeed s x (fun f => { f with stuckOff := true })) x
        else
          let s := setFeed s x (fun f => { f with stuckOn := true })
          interlock (forAll [Glove.a, Glove.b] (fun s g =>
            if (gloveAt s g).crown then setGlove s g (fun q => { q with request := false, stuckHold := true }) else s) s))

/-- GATE_RERAISE: the read-back of a stuck-on feed has been low for 100 ms; the holder raises its request again (R316). -/
def execGateReraise (x : Glove) (s : State) : Res :=
  .next (
    match (feedAt s x).stuckOn, (feedAt s x).fbLowFrom with
    | true, some t =>
      let s := reach s (t + 100000000)
      let s := setFeed s x (fun f => { f with stuckOn := false })
      let s := setGlove s x (fun g => { g with failed := g.failed &&& ~~~(0x80#16) })
      if s.stby.feedA.stuckOn || s.stby.feedB.stuckOn then s
      else
        interlock (forAll [Glove.a, Glove.b] (fun s g =>
          if (gloveAt s g).crown && (gloveAt s g).stuckHold then setGlove s g (fun q => { q with request := true, stuckHold := false }) else s) s)
    | _, _ => s)

/-- INTERLOCK_CONFLICT: both requests high (R315). -/
def execInterlockConflict (s : State) : Res :=
  .next (if s.stby.a.request && s.stby.b.request then interlock s else s)

/-- CONFLICT_CLEAR: neither Glove requests and the link is up, which takes 100 ms of unbroken frames at both Gloves (R310, R315). -/
def execConflictClear (s : State) : Res :=
  .next (
    if s.stby.conflict && !s.stby.a.request && !s.stby.b.request && linkOk s then { s with stby := { s.stby with conflict := false } } else s)

/-- DEAD_TIME_EXPIRY: both outputs have been low for the dead time, somewhere from 40 µs to 60 µs, and a requested output rises (R315). -/
def execDeadTimeExpiry (s : State) : Res :=
  .next (
    match [Glove.a, Glove.b].find? (mayRise s) with
    | none => s
    | some x =>
      let (d, s) := drawNat s
      gateDrive (reach s (s.stby.lowSince + 40000 + d % 20001)) x true)

/-! ## Self-test (Table 12.3) -/

/-- The outcome of a test of a Glove: its bit of FAILED, and its event when it fails. -/
def testResult (s : State) (g : Glove) (bitNo ev : Nat) (bad : Bool) : State :=
  let m : BitVec 16 := 1#16 <<< bitNo
  let s := setGlove s g (fun q => { q with failed := if bad then q.failed ||| m else q.failed &&& ~~~m })
  if bad then setBit s .glvEvent ev else s

/-- SENSE_WIRE_TEST: a step above 400 mV is an open wire, below 20 mV a shorted one. -/
def execSenseWireTest (g : Glove) (stepMv : Nat) (s : State) : Res :=
  .next (
    if !(gloveAt s g).alive then s
    else
      let wire := if 400 < stepMv then 6 else if stepMv < 20 then 7 else 0
      reclass (testResult (setFeed s g (fun f => { f with wire := wire })) g 0 5 (wire != 0)) g)

/-- ADC_REFERENCE_TEST: an error above 1 %. -/
def execAdcReferenceTest (g : Glove) (errPerMille : Nat) (s : State) : Res :=
  .next (if (gloveAt s g).alive then testResult s g 1 6 (decide (10 < errPerMille)) else s)

/-- ADC_AGREEMENT_TEST: the readings of a feed differ by more than 2 % of its own Glove's plus 0.2 V. -/
def execAdcAgreementTest (s : State) : Res :=
  .next (
    forAll [Glove.a, Glove.b] (fun s x =>
      match (feedAt s x).vOwn, (feedAt s x).vPeer with
      | some o, some p =>
        if s.stby.a.alive && s.stby.b.alive then testResult s x 2 6 (decide (o.natAbs + 1000 < 50 * (o - p).natAbs)) else s
      | _, _ => s) s)

/-- OSC_TIMEBASE_TEST: outside 8 MHz ± 3 % the Glove does not claim, and as holder hands over when its peer is canClaim. -/
def execOscTimebaseTest (g : Glove) (khz : Nat) (s : State) : Res :=
  .next (
    if !(gloveAt s g).alive || s.rails.coreReset then s
    else
      let bad := decide (khz < 7760 ∨ 8240 < khz)
      let s := testResult (setGlove s g (fun q => { q with oscKhz := khz, oscBase := bad })) g 4 7 bad
      if !bad then s
      else
        let s := setGlove s g (fun q => { q with claiming := false, claimSent := false })
        if canClaim s (otherG g) then yieldCrown s g else s)

/-- STANDBY_RAIL_TEST: outside 3.135 V to 3.465 V. -/
def execStandbyRailTest (g : Glove) (mv : Nat) (s : State) : Res :=
  .next (if (gloveAt s g).alive then testResult s g 5 9 (decide (mv < 3135 ∨ 3465 < mv)) else s)

/-- INTERLOCK_TEST: each blocking stage tested alone by the non-holder; a stage that passes the request is an INTERLOCK_FAULT, and both Gloves keep diode mode
until the next cold start. -/
def execInterlockTest (stage1Passes stage2Passes : Bool) (s : State) : Res :=
  .next (
    match [Glove.b, Glove.a].find? (fun g => (gloveAt s g).alive && !(gloveAt s g).crown) with
    | none => s
    | some g =>
      let bad := stage1Passes || stage2Passes
      let s := testResult { s with stby := { s.stby with testCycles := (s.stby.testCycles + 1) % 2 ^ 32 } } g 6 8 bad
      if !bad then s
      else interlock (dropAll (dropAll { s with stby := { s.stby with faultLatched := true } } .a) .b))

/-! ## Commands (R313, R319) -/

/-- CROWN_CMD_HANDOVER: a write of HANDOVER to GLV_CROWN_CMD; a refused one sets CFG_REJECT. -/
def crownCmd (s : State) (dest : Glove) : State :=
  let (r, s) := handover s dest
  if r.isSome then setBit s .glvEvent 11 else s

def execCrownCmdHandover (dest : Glove) (s : State) : Res := .next (crownCmd s dest)

/-- CROWN_HANDOVER (R313): a refused one answers INVALID_FIELD with the reason in bytes 0 to 7. -/
def execCrownHandover (ch : Nat) (s : State) : Res :=
  .next (mbxRow s ch 0x0901 (fun s pay gen =>
    let dest := fieldAt pay 0 1
    noGen s gen (
      if 1 < dest then mbxFail s 5 0
      else
        let (r, s) := handover s (if dest = 0 then .a else .b)
        match r with
        | some n => { s := s, status := 5, pay := leBytes 8 n }
        | none => { s := s })))

/-- A reading as Table 12.4 shows it. -/
def voltField (alive : Bool) (v : Option Int) : Nat :=
  match alive, v with
  | true, some x => if x < 0 then Config.negativeReading x % 2 ^ 16 else min 0xFFFF x.toNat
  | _, _ => 0xFFFF

/-- A feed entry of Table 12.4. -/
def feedEntry (s : State) (x : Glove) : Bytes :=
  let f := feedAt s x
  let g := gloveAt s x
  let ex := vExtremes f (nowOf s)
  pack 32 [(0, 1, f.state),
    (1, 1, (if gateOf s x then 1 else 0) + (if f.fb then 2 else 0) + (if f.faultN then 0 else 4) + (if f.stuckOn || f.stuckOff then 8 else 0)),
    (2, 2, voltField g.alive f.vOwn), (4, 2, voltField (gloveAt s (otherG x)).alive f.vPeer),
    (6, 2, if fld s .glvImonCfg 15 0 = 0 then 0 else f.current), (8, 2, voltField true ex.1), (10, 2, voltField true ex.2),
    (12, 4, f.changes), (16, 8, f.changeTime), (24, 2, g.failed.toNat), (26, 2, g.oscKhz)]

/-- The payload of Table 12.4. -/
def feedPayload (s : State) : Bytes :=
  pack 16 [(0, 1, holderOf s), (1, 1, modeOf s),
    (2, 1, (if linkOk s then 1 else 0) + (if s.stby.a.alive then 2 else 0) + (if s.stby.b.alive then 4 else 0)),
    (4, 4, s.stby.crownChanges), (8, 8, s.stby.crownTime)] ++ feedEntry s .a ++ feedEntry s .b

/-- FEED_STATUS. -/
def execFeedStatus (ch : Nat) (s : State) : Res :=
  .next (mbxRow s ch 0x0900 (fun s _ gen => noGen s gen { s := s, pay := feedPayload s }))

end Sys2Proof.Machine
end

