-- ==== Sys2Proof/Machine/Domains.lean ====
section
/-! DEFINITION. Power domains (R320, R321) and a drive link that goes down (R187, Table 17.3). -/

namespace Sys2Proof.Machine

/-- A drive port's link goes down: its fabric port goes down with it. -/
def driveLinkDown (s : State) (slot : Nat) : State :=
  if !(driveAt s slot).linkUp then s
  else
    let now := nowOf s
    let s := setDrive s slot (fun d => { d with linkUp := false, downSince := some now, gen := 0, width := 0 })
    count (setBit (fabPortDown s (64 + slot)) .drvEvent 0) (0x780 + slot)

/-- Fabric ports of a domain (Tables 6.1, 12.5). -/
def domPorts (n : Nat) : List Nat :=
  if n < 8 then (List.range 8).map (8 * n + ·)
  else if n < 24 then (List.range 4).map (64 + 4 * (n - 8) + ·)
  else if n < 32 then [128 + (n - 24)]
  else if n < 40 then []
  else if n < 46 then [142 + 2 * (n - 40), 143 + 2 * (n - 40)]
  else if n < 48 then [154 + (n - 46)]
  else if n < 50 then [158 + (n - 48)]
  else if n < 54 then []
  else if n < 58 then [136 + (n - 54)]
  else if n < 60 then [140 + (n - 58)]
  else if n = 60 then [157] else [156]

/-- The registers that a domain holds. -/
def domRegs (n : Nat) : List Reg :=
  if n < 8 then .netGroupCfg n :: ((List.range 8).map (fun i => [Reg.netPortCtrl (8 * n + i), .netPortMac (8 * n + i)])).flatten
  else if n = 58 ∨ n = 59 then
    ((List.range 32).map (fun i =>
      let c := 32 * (n - 58) + i
      [Reg.movShdSrc c, .movShdDst c, .movShdCtrl c, .movShdNext c, .movChCtrl c])).flatten
  else if n = 60 then blockRegs 10 ++ ((List.range 64).map (fun i => [Reg.sepWinShdBase i, .sepWinShdCtrl i])).flatten
  else if n = 61 then blockRegs 6 ++ ((List.range 4).map (fun i => [Reg.hbxPoolHead i, .hbxPoolTail i, .hbxPoolCopied i, .hbxPoolEpoch i])).flatten
  else []

/-- Registers back at their reset values. -/
def bankReset (s : State) (l : List Reg) : State := { s with bank := l.foldl (fun b r => tdel b (regAddr r)) s.bank }

/-- Whether a domain may be switched off (Table 12.5), with `on` the domains left on by the write. -/
def domMayOff (s : State) (on : BitVec 62) (n : Nat) : Bool :=
  if n < 8 then !(flag s .netCtrl (8 + n))
  else if n < 24 then (List.range 4).all (fun i => (drivePool s (4 * (n - 8) + i)).isNone)
  else if n < 32 then !(flag s .pwrCtrl 0)
  else if n < 40 then !(flag s .fabCtrl 0) && decide (65536 + guaranteeSum s + fld s .fabGwCfg 19 0 ≤ bufferCells on)
  else if n < 46 then s.hq.cmds.all (fun e => e.2.doneAt.isSome || Config.engineOf e.1 % 24 / 4 != n - 40)
  else if n < 48 then s.par.accs.all (fun e => e.2.bind.engine != 154 + (n - 46))
  else if n < 50 then true
  else if n < 54 then !(flag s .mcCtrl (4 + (n - 50)))
  else if n < 58 then !(flag s .parCtrl (n - 54)) && s.par.accs.all (fun e => e.1 / 512 != n - 54)
  else if n < 60 then !(flag s .movCtrl (1 + (n - 58)))
  else if n = 60 then
    !(flag s .ctlCtrl 1) && s.mov.all (fun e =>
      e.2.state != .running || e.2.jobs.all (fun j => (j.desc.srcSpace == 0 || j.desc.srcSpace == 3) && (j.desc.dstSpace == 0 || j.desc.dstSpace == 3)))
  else !(flag s .hbxCtrl 0)

/-- The state of a domain is discarded (R320); the MRAM array of the Hatbox die keeps its content. -/
def domDiscard (s : State) (n : Nat) : State :=
  if n < 8 then
    let s := forAll (List.range 8) (fun s i => netLink s (8 * n + i) false) s
    { s with net := { s.net with ports := s.net.ports.filter (fun e => e.1 / 8 != n) } }
  else if n < 24 then
    forAll (List.range 4) (fun s i =>
      setDrive (driveLinkDown s (4 * (n - 8) + i)) (4 * (n - 8) + i) (fun d => { d with cmds := [], held := [], unflushed := [], flushing := none })) s
  else if n < 32 then { s with dimms := tdel s.dimms (n - 24) }
  else if n < 40 then
    let a := 0x80000000000 + 0x1800000 * (n - 32)
    { s with mem := s.mem.filter (fun e => e.1 < a || decide (a + 0x1800000 ≤ e.1)) }
  else if n < 50 then s
  else if n < 54 then
    let k := n - 50
    { s with mc := { s.mc with ways := s.mc.ways.filter (fun e => e.1 / 262144 != k), plru := s.mc.plru.filter (fun e => e.1 / 16384 != k)
                               transit := tdel s.mc.transit k, wtq := tdel s.mc.wtq k } }
  else if n < 58 then s
  else if n < 60 then { s with mov := s.mov.filter (fun e => movHalf e.1 != n - 58) }
  else if n = 60 then { s with sep := {} }
  else { s with hbx := { s.hbx with selftestBusy := false } }

/-- The PLL of a domain that is off is not locked (CLK_STATUS, Table 13.9). -/
def domUnlock (c : Clocks) (n : Nat) : Clocks :=
  if n < 8 then { c with netLock := c.netLock &&& ~~~(1#8 <<< n) }
  else if n < 24 then { c with drvLock := c.drvLock &&& ~~~(1#16 <<< (n - 8)) }
  else if n < 32 then { c with ddrLock := c.ddrLock &&& ~~~(1#8 <<< (n - 24)) }
  else if n = 60 then { c with sepLock := false }
  else c

/-- A domain is switched off: its fabric ports go down and its state is lost (R187, R320). -/
def domOff (s : State) (n : Nat) : State :=
  let s := forAll (domPorts n) fabPortDown s
  let s := domDiscard s n
  { s with dom := { s.dom with on := s.dom.on &&& ~~~(1#62 <<< n) }, clk := domUnlock s.clk n }

/-- A domain is switched on: its registers stand at reset. -/
def domOn (s : State) (n : Nat) : State :=
  let s := bankReset s (domRegs n)
  { s with dom := { s.dom with on := s.dom.on ||| (1#62 <<< n) } }

/-- A write of PWR_DOMAIN_REQ (R320): with an off condition failing nothing changes. Bits 49:48 keep their values. -/
def domainRequest (s : State) (v : Word) : State :=
  let keep : BitVec 62 := 0x3000000000000#62
  let new := (v.setWidth 62 &&& ~~~keep) ||| (s.dom.target &&& keep)
  let offs := (List.range 62).filter (fun n => s.dom.on.getLsbD n && !(new.getLsbD n) && n != 48 && n != 49)
  let left := (List.range 62).foldl (fun (a : BitVec 62) n => if offs.contains n then a &&& ~~~(1#62 <<< n) else a) s.dom.on
  if !(offs.all (domMayOff s left)) then cfgReject s .pwrDomainReq
  else
    let s := bankSet s .pwrDomainReq (new.setWidth 64)
    { s with dom := { s.dom with target := new, busy := (s.dom.on ^^^ new) &&& ~~~keep } }

/-- DOMAIN_REQUEST. -/
def execDomainRequest (value : Word) (s : State) : Res := .next (domainRequest s value)

/-- The domain served next: round-robin from one past the last switched (R321). -/
def domNext (s : State) : Option Nat := ((List.range 62).map (fun i => (s.dom.last + 1 + i) % 62)).find? (fun n => s.dom.busy.getLsbD n)

/-- A switch of a domain has ended: no longer pending. -/
def domServed (s : State) (n : Nat) : State :=
  { s with dom := { s.dom with busy := s.dom.busy &&& ~~~(1#62 <<< n), last := n } }

/-- DOMAIN_SWITCH: one pending switch completes. -/
def execDomainSwitch (s : State) : Res :=
  .next (
    match domNext s with
    | none => s
    | some n => count (setBit (domServed (if s.dom.target.getLsbD n then domOn s n else domOff s n) n) .pwrEvent 0) 0x7D0)

/-- DOMAIN_POWER_GOOD_TIMEOUT: the domain being switched on is not power-good after 100 µs; it is switched off again (R321). -/
def execDomainPowerGoodTimeout (domain : Nat) (s : State) : Res :=
  .next (
    if domNext s ≠ some domain ∨ s.dom.target.getLsbD domain = false then s
    else
      let s := reach s (nowOf s + 100000)
      let s := domServed (domOff s domain) domain
      let s := bankSet s .pwrDomainFault (bankGet s .pwrDomainFault ||| (1#64 <<< domain))
      count (setBit s .pwrEvent 1) 0x7D1)

end Sys2Proof.Machine
end

