-- ==== Sys2Proof/Machine/Slots.lean ====
section
/-! DEFINITION. Drive slots: the sideband chains (R379, R380), link training (R381), enumeration (R69), sideband reads (R382), SMART reports (R129), SLOT_POWER
(R284) and the return of a drive (R123). -/

namespace Sys2Proof.Machine

/-- A slot's power goes: PERST_N asserted, PWREN lowered, its link down, and with it what only the drive's volatile cache held. -/
def slotPowerOff (s : State) (slot : Nat) : State :=
  let s := setDrive s slot (fun d => { d with perst := true, pwren := false, linkFault := false })
  let s := if (driveAt s slot).state = .linkFault then setDrvState s slot .present else s
  loseCache (driveLinkDown s slot) slot

/-- A slot's power comes, unless it is set off or a fault is latched (R380). -/
def slotPowerOn (s : State) (slot : Nat) : State :=
  let d := driveAt s slot
  if d.prsnt && !d.pwren && !d.setOff && !d.faultLatched then
    let now := nowOf s
    setDrive s slot (fun d => { d with pwren := true, pwrenAt := now })
  else s

/-- A drive whose presence or link returns and that an imported pool lists as FAILED or REMOVED is STALE (R123). -/
def driveReappear (s : State) (slot : Nat) : State :=
  match (driveAt s slot).ident with
  | none => s
  | some i =>
    let listed := s.pools.any (fun p => p.2.members.any (fun m => m.2.uid == i.uniqueId && (m.2.state == .failed || m.2.state == .removed))
      && !(p.2.members.any (fun m => m.2.uid == i.uniqueId && (m.2.state == .active || m.2.state == .evacuating))))
    let st := (driveAt s slot).state
    if listed && (st == .present || st == .failed || st == .removed) && hasLedger (driveAt s slot) then setDrvState s slot .stale else s

/-! ## The chains (R379, R380) -/

/-- The outputs of a chain's slots: PERST_N and PWREN. -/
def chainOuts (s : State) (base : Nat) : List (Bool × Bool) :=
  (List.range 32).map (fun i => (!(driveAt s (base + i)).perst, (driveAt s (base + i)).pwren))

/-- Valid inputs of one slot: loss of presence and a power fault act at once, and where both come together the fault is not latched (R380). -/
def slotInputs (s : State) (slot : Nat) (x : SgIn) : State :=
  let d := driveAt s slot
  let now := nowOf s
  let lost := d.prsnt && x.prsntN
  let fault := !x.pwrfltN && (d.pwrfltN || d.pwren) && !x.prsntN
  let s := setDrive s slot (fun d =>
    { d with prsntN := x.prsntN, prsntSince := if d.prsntN && !x.prsntN then now else d.prsntSince, pwrfltN := x.pwrfltN })
  let s := if fault then failMember (slotPowerOff (setDrive s slot (fun d => { d with faultLatched := true })) slot) slot else s
  if lost then
    let s := failMember (slotPowerOff s slot) slot
    let s := setDrvState (setDrive s slot (fun d => { d with prsnt := false })) slot .empty
    setBit (setDrive s slot (fun d => { d with pool := none, member := none })) .drvEvent 1
  else s

/-- SG_FRAME: the outputs of the previous frame are latched and the inputs captured. A chain whose bit 3 reads 1 in every slot for 3 frames is broken until
3 frames read it 0 in every slot; a frame that reads 1 in every slot, and every frame while broken, leaves the inputs as they were (R379). -/
def execSgFrame (west : Bool) (inputs : List SgIn) (s : State) : Res :=
  .next (
    let base := if west then 32 else 0
    let c := if west then s.chainW else s.chainE
    let ins := (List.range 32).map (fun i => (inputs[i]?).getD { prsntN := true, pwrfltN := true, bit3 := true })
    let ones := ins.all (·.bit3)
    let zerosAll := ins.all (fun x => !x.bit3)
    let outs := if c.broken then c.kept else chainOuts s base
    let s := emit s (.chainOut west outs)
    let onesRun := if ones then min 3 (c.onesRun + 1) else 0
    let zerosRun := if zerosAll then min 3 (c.zerosRun + 1) else 0
    let broken := if c.broken then zerosRun != 3 else onesRun == 3
    let c' : Chain := { onesRun := onesRun, zerosRun := zerosRun, broken := broken, kept := if broken then outs else [] }
    let s := if west then { s with chainW := c' } else { s with chainE := c' }
    if broken || ones then s
    else forAll ins.zipIdx (fun s e => slotInputs s (base + e.2) e.1) s)

/-- PRESENCE_DEBOUNCE: presence has been stable over 50 ms (R380). -/
def execPresenceDebounce (slot : Nat) (s : State) : Res :=
  .next (
    let d := driveAt s slot
    if 64 ≤ slot ∨ d.prsntN = true ∨ d.prsnt = true then s
    else
      let s := setDrive (reach s (d.prsntSince + 50000000)) slot (fun d => { d with prsnt := true })
      let s := setDrvState (setBit s .drvEvent 1) slot .present
      slotPowerOn s slot)

/-- PERST_RELEASE: 100 ms after PWREN, with no power fault (R380) and no lane fault (Table 16.7). -/
def execPerstRelease (slot : Nat) (s : State) : Res :=
  .next (
    let d := driveAt s slot
    if d.prsnt && d.pwren && d.perst && d.pwrfltN && !d.linkFault then
      setDrive (reach s (d.pwrenAt + 100000000)) slot (fun d => { d with perst := false })
    else s)

/-! ## Links -/

/-- A port takes LINK_FAULT: PERST_N asserted, slot power unchanged; a member fails (Table 16.7, R123). -/
def laneFault (s : State) (slot : Nat) : State :=
  let s := driveLinkDown s slot
  let s := setDrive s slot (fun d => { d with perst := true, linkFault := true, degraded := false })
  let st := (driveAt s slot).state
  if st = .member ∨ st = .evacuating then failMember s slot
  else if st = .empty ∨ st = .failed then s else setDrvState s slot .linkFault

/-- Whether a drive port may train: the edge and its group are enabled and on, the slot is powered and out of PERST (Table 17.3). -/
def mayTrain (s : State) (slot : Nat) : Bool :=
  let d := driveAt s slot
  decide (slot < 64) && d.prsnt && d.pwren && !d.perst && flag s .drvCtrl 0 && flag s .drvCtrl (1 + slot / 4) && s.dom.on.getLsbD (8 + slot / 4)

/-- DRIVE_LINK_TRAINING: the lanes are tested, and faults are handled as Table 16.7 states (R381). -/
def execDriveLinkTraining (slot : Nat) (f : LaneFindings) (s : State) : Res :=
  .next (
    if !(mayTrain s slot) then s
    else
      match f.shortTo with
      | some q =>
        let s := setBit (laneFault s slot) .drvEvent 2
        if q < 64 ∧ q ≠ slot then laneFault s q else s
      | none =>
        if f.lane0Bad && f.lane1Bad then setBit (laneFault s slot) .drvEvent 2
        else
          let bad := f.lane0Bad || f.lane1Bad
          let d := driveAt s slot
          let back := d.linkUp || d.downSince.isSome
          let s := { s with clk := { s.clk with drvLock := s.clk.drvLock ||| (1#16 <<< (slot / 4)), ref100 := true } }
          let s := setDrive s slot (fun d =>
            { d with linkUp := true, downSince := none, gen := f.gen, width := if bad then 1 else min 2 f.fdx, degraded := bad
                     reversed := f.reversed || f.lane0Bad, polInv := f.polInv })
          let s := if d.linkUp then s else setBit s .drvEvent 0
          let s := if bad then setBit s .drvEvent 2 else s
          let s := if back then count s (0x780 + slot) else s
          let s := driveReappear s slot
          match (driveAt s slot).pool with
          | some pi => retryPlans s pi
          | none => s)

/-- What a drive's flash holds: what it held when it last stood in a slot of the shelf; of a drive from outside, what another controller wrote there, which is
free (R2, log entry 67). -/
def carriedDrive (s : State) (slot : Nat) (uid : BitVec 64) : Drive × State :=
  let same (d : Drive) : Bool := (d.ident.map (·.uniqueId)) == some uid
  match (driveAt s slot :: (s.drives.filter (fun e => e.1 != slot && !e.2.prsnt)).map (·.2)).find? same with
  | some d => ({ flash := d.flash, sys := d.sys, fills := d.fills, ledger0 := d.ledger0, ledger1 := d.ledger1 }, s)
  | none =>
    let x := Config.foreignFlash uid s.fresh
    ({ flash := x.1.foldl (fun t e => tput t e.1 e.2) [], sys := x.2.1.foldl (fun t e => tput t e.1 e.2) [], ledger0 := x.2.2.1, ledger1 := x.2.2.2 },
      { s with fresh := s.fresh + 1 })

/-- A slot with another drive in it: the slot's own state stays, the drive's records begin anew. -/
def newDrive (d : Drive) : Drive :=
  { state := d.state, prsntN := d.prsntN, prsntSince := d.prsntSince, prsnt := d.prsnt, pwren := d.pwren, pwrenAt := d.pwrenAt, perst := d.perst
    faultLatched := d.faultLatched, setOff := d.setOff, pwrfltN := d.pwrfltN, linkUp := d.linkUp, downSince := d.downSince, gen := d.gen
    width := d.width, reversed := d.reversed, polInv := d.polInv, degraded := d.degraded, linkFault := d.linkFault }

/-- I/O queue pairs that the device creates on a drive: 28, one for each Command Engine and Repair Engine, or as many as the drive offers; and how deep
(R69). -/
def queuePairsOf (i : DriveIdent) : Nat := min 28 i.queuePairs
def queueDepthOf (i : DriveIdent) : Nat := min 1024 i.queueEntries

/-- DRIVE_ENUMERATION: the controller is enabled, Identify read and the I/O queue pairs created (R69, step 9 of Table 13.2). What was outstanding on a member
whose controller is enabled anew is submitted again (log entry 49). -/
def execDriveEnumeration (slot : Nat) (ident : DriveIdent) (s : State) : Res :=
  .next (
    if !(driveAt s slot).linkUp then s
    else
      let (x, s) := carriedDrive s slot ident.uniqueId
      let s := emit s (.nvmeEnable slot)
      let s := setDrive s slot (fun d =>
        let d := if (d.ident.map (·.uniqueId)) = some ident.uniqueId then d else newDrive d
        { d with ident := some ident, metaFmt := if ident.metaBytes = 64 then 64 else 16, flash := x.flash, sys := x.sys, fills := x.fills, ledger0 := x.ledger0
                 ledger1 := x.ledger1, cmds := [], held := d.cmds ++ d.held, cached := d.cached.map (fun x => { x with covered := false }), flushing := none, unflushed := (d.flushing.getD []) ++ d.unflushed
                 queues := queuePairsOf ident, queueDepth := queueDepthOf ident })
      let s := { s with drives := tmap s.drives (fun k d =>
        if k ≠ slot ∧ d.prsnt = false ∧ (d.ident.map (·.uniqueId)) = some ident.uniqueId then
          { d with ident := none, flash := [], sys := [], fills := [], ledger0 := none, ledger1 := none } else d) }
      let s := driveReappear (pumpQueue s slot) slot
      match (driveAt s slot).pool with
      | some pi => retryPlans s pi
      | none => s)

/-- SIDEBAND_READ: an NVMe-MI read of a powered drive while its link is down (R382). -/
def execSidebandRead (slot : Nat) (smart : Smart) (s : State) : Res :=
  .next (
    let d := driveAt s slot
    if d.prsnt && d.pwren && !d.linkUp then
      setDrive s slot (fun d => { d with critWarning := smart.critWarning, pctUsed := smart.pctUsed, tempK := smart.tempK })
    else s)

/-- CRITICAL_WARNING: a SMART report; the triggers of Table 4.6 that rest on it start an evacuation, volatile-memory backup first because it also puts the
drive in flushed mode (R129). -/
def execCriticalWarning (slot : Nat) (smart : Smart) (s : State) : Res :=
  .next (
    if (driveAt s slot).state = .empty then s
    else
      let s := setDrive s slot (fun d => { d with critWarning := smart.critWarning, pctUsed := smart.pctUsed, tempK := smart.tempK })
      match (driveAt s slot).pool.bind (poolAt s) with
      | none => s
      | some p =>
        match [EvacReason.backup, .critical, .wear].find? (evacTrigger s p slot) with
        | some r => startEvac s slot r
        | none => s)

/-- SLOT_POWER: refuses a member (R284); ON clears a latched power fault (R380). -/
def execSlotPower (ch : Nat) (s : State) : Res :=
  .next (driveCmd s ch 0x902 (fun _ => none) (fun s b slot =>
    if held s (.drive slot) then mbxFail s 6 0
    else if (drivePool s slot).isSome then mbxFail s 0x402 0
    else
      match fieldAt b 1 1 with
      | 0 => { s := slotPowerOff (setDrive s slot (fun d => { d with setOff := true })) slot }
      | 1 => { s := slotPowerOn (setDrive s slot (fun d => { d with setOff := false, faultLatched := false })) slot }
      | _ => mbxFail s 5 0))

end Sys2Proof.Machine
end

