-- ==== Sys2Proof/Machine/Boot.lean ====
section
/-! DEFINITION. Starts: what a cold and a warm start lose and keep (R263 to R265, R323 to R325), the rail sequencer (R376, R377), SYS_RST_N (R378), losses of power-good and
of a Glove (R309, R318), THERMTRIP (R386) and Control Core pairs (R270). -/

namespace Sys2Proof.Machine

/-! ## Writes in flight when the core is reset (R77, R378): each may have landed or not (log entries 2, 26) -/

/-- A drive's Writes in flight: block by block, on flash or not; a write of the device's own structures lands whole or not at all (log entry 2). -/
def landWrites (s : State) (slot : Nat) : State :=
  forAll ((driveAt s slot).cmds.filter (fun c => c.op == .write)) (fun s c =>
    let (d, s) := drawNat s
    match writtenBlks s c with
    | none => landSystem s slot c (fun i => d.testBit i)
    | some (pi, band, sb, pos, xs) => putBlks s pi band sb pos ((xs.zipIdx.filter (fun e => d.testBit e.2)).map (·.1))) s

/-- MRAM writes in flight: a record whose write is not verified may be torn. -/
def landRing (s : State) (r : Nat) : State :=
  forAll (ringAt s r).inflight (fun s x =>
    let (d, s) := drawNat s
    if d % 2 = 1 then setRing s r (fun g => { g with slots := tmod g.slots (x.1 % ringN) (fun q => if q.seq = x.1 then { q with crcOk := false } else q) }) else s) s

/-! ## Cold start: what stays -/

/-- A drive through a cold start: the slot is found anew, and flash and the drive's identity stay. -/
def coldDrive (d : Drive) : Drive :=
  { ident := d.ident, metaFmt := d.metaFmt, flash := d.flash, sys := d.sys, fills := d.fills, ledger0 := d.ledger0, ledger1 := d.ledger1 }

/-- A ring through a cold start: directory entry and MRAM slots; in drive-journal mode its records were in DRAM. -/
def coldRing (r : Ring) : Ring := { dir := r.dir, slots := if r.dir.driveJournal then [] else r.slots }

/-- The Hatbox die through a cold start: what stands in the MRAM. -/
def coldHatbox (h : Hatbox) : Hatbox :=
  { rings := tmap h.rings (fun _ r => coldRing r), remap := h.remap, segFailed := h.segFailed, lineWrites := h.lineWrites, segWrites := h.segWrites, spareFree := h.spareFree
    dead := h.dead, driveJournal := h.driveJournal, djCause := h.djCause, boot0 := h.boot0, boot1 := h.boot1, bootStandby := h.bootStandby
    rollback0 := h.rollback0, rollback1 := h.rollback1, nextEventSeq := h.nextEventSeq, pfWarning := h.pfWarning }

/-- The control complex through a cold start: the firmware store with its configuration area (R285 to R288); the event numbering restarts only when the
shelf area cannot be read. -/
def coldControl (s : State) : Control :=
  let c := s.ctl
  { nextEvent := if s.hbx.dead then 1 else s.hbx.nextEventSeq.getD 1, restartedNumbering := s.hbx.dead
    policies := c.policies, policyGen := c.policyGen, configPol := c.configPol
    hosts := c.hosts.map (fun h => { h with host := none, ctrl := none })
    slotA := c.slotA, slotB := c.slotB, recovery := c.recovery, mittenGib := shelfPol s 0x04 }

/-- The core enters reset and everything but the Standby die, the MRAM, the drives' flash and the NOR is lost. Drive links go down (R378). -/
def coreDown (s : State) : State :=
  let s := forAll (s.drives.map (·.1)) (fun s d => loseCache (landWrites s d) d) s
  let s := forAll (s.hbx.rings.map (·.1)) landRing s
  { bank := s.bank.filter (fun e => e.1 / 0x100000 == 0xF0000C)
    drives := tmap s.drives (fun _ d => coldDrive d), hbx := coldHatbox s.hbx, ctl := coldControl s
    stby := s.stby, rails := { s.rails with coreReset := true }
    boot := { cause := s.boot.cause, prevCause := s.boot.prevCause, step := min s.boot.step 2 }
    clk := { now := s.clk.now, lost25 := s.clk.lost25, waitRef := s.clk.waitRef, ddrBad := s.clk.ddrBad, lastTimeAt := s.clk.now }
    out := s.out, fresh := s.fresh, pending := s.pending }

/-- Core reset is released once every rail is good, SYS_RST_N is high and no reference is waited for (R337, R376). -/
def coreRelease (s : State) : State :=
  if s.rails.coreReset && s.rails.pg == 0xFF#8 && s.rails.sysRstN && !s.clk.waitRef && s.boot.halt == 0 then
    { s with rails := { s.rails with coreReset := false }, boot := { s.boot with step := 3 } }
  else s

/-- A cold start with a cause of Table 13.1. It ends an interlock fault (Table 12.3), except that SYS_RST_N leaves the interlock as it is. -/
def coldStart (s : State) (cause : Nat) : State :=
  let s := coreDown s
  let s := { s with boot := { s.boot with cause := cause, step := 2 } }
  let s := if cause = 2 then s
    else
      let clear (g : GloveSt) : GloveSt := { g with failed := g.failed &&& ~~~(0x40#16) }
      { s with stby := { s.stby with faultLatched := false, a := clear s.stby.a, b := clear s.stby.b } }
  coreRelease s

/-! ## Warm start (R263, R325) -/

/-- Whether a pool has a unit that is neither applied nor abandoned, or an intent still open. -/
def poolBusy (p : Pool) : Bool := p.units.any (fun e => (!e.2.applied && e.2.stage != .failed) || e.2.intentOpen)

/-- A pool through a warm start: DRAM keeps it; of what the engines held only the writes of its own structures are left, and those are submitted again. -/
def warmPool (p : Pool) : Pool :=
  { p with units := [], streams := p.streams.map (fun t => { t with recs := [] }), locks := [], folding := false, background := true }

/-- A command for one of the device's own structures. -/
def systemCmd (c : DrvCmd) : Bool :=
  match c.owner with
  | .unit _ _ _ _ => false
  | .hostRead _ _ _ => false
  | .logRec _ _ _ _ _ => false
  | _ => true

/-- A drive through a warm start: its I/O queues are deleted with what is in them, and commands for the device's own structures wait for the new queues (R325). -/
def warmDrive (d : Drive) : Drive :=
  { d with cmds := [], held := (d.cmds ++ d.held).filter systemCmd, unflushed := d.flushing.getD [] ++ d.unflushed, flushing := none
           cached := d.cached.map (fun x => { x with covered := false }) }

/-- A connection through a warm start: its record and error log (R263, R264). -/
def warmConn (k : Conn) : Conn :=
  { id := k.id, hostId := k.hostId, nvme := k.nvme, version := k.version, log := k.log, nextError := k.nextError, readBelow := k.readBelow, authFails := k.authFails }

/-- Steps 3 to 5 of R263 and R325: logs, DREQ and Reset of every queue pair, regions, CLEAN records; then engines, fabric and transport are reset. -/
def warmReset (s : State) (cause : Nat) : State :=
  let s := forAll s.hq.conns (fun s e => forAll (e.2.queues.filter (fun u => u.1 != 0)) (fun s u => loseQueue s e.1 u.1) s) s
  let s := forAll s.rdma.qps (fun s e => toReset (netSend s e.2.lane 1 (.cmDreq e.1)) e.1) s
  let s := forAll (s.pools.filter (fun e => e.2.online && e.2.replayed)) (fun s e =>
    match poolAt s e.1 with
    | some p => sendValid s e.1 (cleanRec s p)
    | none => s) s
  let s := forAll (s.drives.map (·.1)) (fun s d => setDrive (landWrites s d) d warmDrive) s
  let s := halfDown (halfDown s 0) 1
  let s := match s.ctl.activation with
    | some a => endOp { s with ctl := { s.ctl with activation := none } } a.opId 0x604
    | none => s
  let h := s.hq.hold
  let h := if h.active then { h with active := false, lastMs := (nowOf s - h.start) / 1000000 } else h
  let s := { s with fab := {}, par := {}, mc := {}, txWait := [], rdma := { useClock := s.rdma.useClock }
                    hq := { conns := tmap s.hq.conns (fun _ k => warmConn k), hold := h }
                    pools := tmap s.pools (fun _ p => warmPool p)
                    ctl := { s.ctl with mittenGib := shelfPol s 0x04 }
                    boot := { s.boot with step := 3, warm := true, cause := cause, warmStarts := s.boot.warmStarts + 1, quiesce := none
                                          wdogRunning := false, wdogDone := false, wdogWarned := false, dramSelfRefresh := true } }
  let s := { s with bank := s.bank.filter (fun e => !([0xF00000, 0xF00002, 0xF00008].contains (e.1 / 0x100000))) }
  setFld (clearBit (clearBit s .ctlCtrl 0) .hqCtrl 0) .hqEs 2 0 1

/-- The warm start goes on once no started command and no unit is left. -/
def drainCheck (s : State) : State :=
  match s.boot.quiesce with
  | some c => if s.hq.cmds.isEmpty && !(s.pools.any (fun e => poolBusy e.2)) then warmReset s c else s
  | none => s

/-- A warm start begins (R263 step 1): no queue starts a command, unstarted capsules are dropped, EVENT_WAITs end with ABORTED_RESET. -/
def warmStart (s : State) (cause : Nat) : State :=
  if s.rails.coreReset then s
  else
    let s := { s with hq := { s.hq with stopped := true, stopAt := if s.boot.quiesce.isSome then s.hq.stopAt else nowOf s }
                      boot := { s.boot with quiesce := some cause } }
    let s := { s with hq := { s.hq with conns := tmap s.hq.conns (fun _ k => { k with queues := tmap k.queues (fun _ u => { u with ring := [] }) }) } }
    let s := forAll s.hq.cmds (fun s e => if isWaitOp e.2.nvme e.2.queue e.2.e then endWith s e.1 0x41 0 else s) s
    drainCheck s

/-- WARM_START_DRAIN_TIMEOUT: 50 ms after the stop, commands still running end with ABORTED_RESET; with nothing left the warm start goes on at once. -/
def execWarmStartDrainTimeout (s : State) : Res :=
  .next (
    if s.boot.quiesce.isNone then s
    else if s.hq.cmds.isEmpty then drainCheck s
    else
      let s := reach s (s.hq.stopAt + 50000000)
      drainCheck (forAll (s.hq.cmds.map (·.1)) (fun s k => abortCmd s k 0x41) s))

/-- A Control Core pair halts (R270): PAIR_FAULT, its domain off with AUTO_OFF, and a management event. Answers the state. -/
def haltPair (s : State) (pair : Nat) : State :=
  let m : BitVec 2 := 1#2 <<< pair
  let s := { s with ctl := { s.ctl with pairsUp := s.ctl.pairsUp &&& ~~~m, halted := s.ctl.halted ||| m } }
  let s := domOff (setBit s .ctlEvent 0) (48 + pair)
  mgmt (setBit s .pwrEvent 2) 9 pair 0

/-- PAIR_MISMATCH: the pair halts; the device makes a warm start on the other, or a cold start when none is left (R270, R334). -/
def execPairMismatch (pair : Nat) (s : State) : Res :=
  .next (
    if s.rails.coreReset || 2 ≤ pair || !(s.ctl.pairsUp.getLsbD pair) then s
    else
      let s := { s with ctl := if pair = 0 then { s.ctl with mismatch0 := min 0xFFFF (s.ctl.mismatch0 + 1) }
                               else { s.ctl with mismatch1 := min 0xFFFF (s.ctl.mismatch1 + 1) } }
      let s := haltPair (count s 0x7E3) pair
      if s.ctl.pairsUp = 0 then coldStart s 6 else warmStart s 10)

/-- SOFT_RESET: BUSY before level 4, except in Safe Mode (R329, R334). -/
def execSoftReset (ch : Nat) (s : State) : Res :=
  let busy := s.boot.quiesce.isSome || (!s.ctl.safeMode && esLevel s != 4)
  let h := chanAt s ch
  let runs := flag s .ctlCtrl 0 && h.state == .busy && reqOpcode h.req == 0xA00 && !(mbxWaits s h) && reqGen h.req == 0 && !busy
  let s := mbxRow s ch 0xA00 (fun s _ gen => noGen s gen (if busy then mbxFail s 6 0 else { s := s }))
  .next (if runs then warmStart s 8 else s)

/-! ## Rails (R376, R377) -/

/-- An enable is raised. -/
def raiseRail (s : State) (n : Nat) : State :=
  emit { s with rails := { s.rails with en := s.rails.en ||| (1#8 <<< n), enAt := nowOf s } } (.railEn n true)

/-- The rails go off in descending enable order; THERMTRIP_N is let go once they have fallen (R377, R386). -/
def railsOff (s : State) : State :=
  let s := forAll [7, 6, 5, 4, 3, 2, 1, 0] (fun s n => if s.rails.en.getLsbD n then emit s (.railEn n false) else s) s
  let s := if s.rails.thermtrip then emit s (.thermtripN false) else s
  { s with rails := { s.rails with en := 0, pg := 0, thermtrip := false } }

/-- Whether a feed is OK. -/
def anyFeedOk (s : State) : Bool := s.stby.feedA.state == 2 || s.stby.feedB.state == 2

/-- RAIL_SEQUENCE_START: RAIL_EN_0 rises 100 µs after a Glove first took the Crown, or 30 ms after the first Glove became alive with none taken. -/
def execRailSequenceStart (s : State) : Res :=
  .next (
    if s.rails.en ≠ 0 ∨ s.rails.waitFeed = true ∨ s.rails.retryAt.isSome = true then s
    else
      match s.rails.crownFrom, s.rails.aliveFrom with
      | some t, _ => raiseRail (reach s (t + 100000)) 0
      | none, some t => raiseRail (reach s (t + 30000000)) 0
      | none, none => s)

/-- RAIL_PG_RISE: the next enable is raised 1.0 ms later; after the last, core reset is released. -/
def execRailPgRise (rail : Nat) (s : State) : Res :=
  .next (
    if 8 ≤ rail ∨ s.rails.en.getLsbD rail = false ∨ s.rails.pg.getLsbD rail = true then s
    else
      let s := { s with rails := { s.rails with pg := s.rails.pg ||| (1#8 <<< rail) } }
      if rail = 7 then coreRelease s
      else if s.rails.en.getLsbD (rail + 1) then s
      else raiseRail (reach s (nowOf s + 1000000)) (rail + 1))

/-- RAIL_PG_TIMEOUT: no power-good 3 ms after the enable; the rails go off and the sequencer tries again after 1 s. The start that follows has cause
RAIL_FAULT. -/
def execRailPgTimeout (rail : Nat) (s : State) : Res :=
  .next (
    if s.rails.en.getLsbD rail = false ∨ s.rails.pg.getLsbD rail = true then s
    else
      let s := railsOff (coreDown (reach s (s.rails.enAt + 3000000)))
      { s with rails := { s.rails with retryAt := some (nowOf s + 1000000000) }, boot := { s.boot with cause := 4 } })

/-- RAIL_RETRY: 1 s after a failed sequence, while a feed is OK. -/
def execRailRetry (s : State) : Res :=
  .next (
    match s.rails.retryAt with
    | none => s
    | some t =>
      if !(anyFeedOk s) then s
      else
        let s := reach s t
        raiseRail { s with rails := { s.rails with retryAt := none } } 0)

/-- POWER_GOOD_FALL: the acting Glove holds the core in reset and turns the rails off; the cause is POWER_LOSS after a warning, else RAIL_FAULT, and after
THERMTRIP always RAIL_FAULT (R318, R386, Table 13.1). -/
def execPowerGoodFall (rail : Nat) (s : State) : Res :=
  .next (
    if s.rails.pg.getLsbD rail = false ∨ (s.stby.a.alive = false ∧ s.stby.b.alive = false) then s
    else
      let cause := if s.rails.thermtrip then 4 else if s.stby.pfWarned then 3 else 4
      let s := railsOff (coldStart { s with rails := { s.rails with coreReset := true, pg := s.rails.pg &&& ~~~(1#8 <<< rail) } } cause)
      { s with rails := { s.rails with waitFeed := true } })

/-- FEED_OK_RESTART: a feed has been OK for 100 ms; the cold start goes on (R318). -/
def execFeedOkRestart (s : State) : Res :=
  .next (
    let t := match s.stby.feedA.okSince, s.stby.feedB.okSince with
      | some x, some y => some (min x y)
      | some x, none => some x
      | none, y => y
    match s.rails.waitFeed, t with
    | true, some t =>
      let s := reach s (t + 100000000)
      raiseRail { s with rails := { s.rails with waitFeed := false } } 0
    | _, _ => s)

/-! ## SYS_RST_N, THERMTRIP, loss of a Glove -/

/-- SYS_RST_N_ASSERT: held low for 1 µs it holds the core in reset and leaves the rails; during a sequence it only delays the release (R378). It also acts on a
boot ROM that has stopped (R327). -/
def execSysRstNAssert (s : State) : Res :=
  .next (
    if !s.rails.sysRstN then s
    else
      let s := { s with rails := { s.rails with sysRstN := false } }
      if s.rails.coreReset && s.boot.halt == 0 then s else coldStart (reach s (nowOf s + 1000)) 2)

/-- SYS_RST_N_RELEASE: core reset is released when every rail is good (R376). -/
def execSysRstNRelease (s : State) : Res :=
  .next (if s.rails.sysRstN then s else coreRelease { s with rails := { s.rails with sysRstN := true } })

/-- THERMTRIP: a sensor at 125 °C drives THERMTRIP_N low until the core rails have fallen (R386). -/
def execThermtrip (degrees : Int) (s : State) : Res :=
  .next (
    if degrees < 125 ∨ s.rails.coreReset = true ∨ s.rails.thermtrip = true then s
    else emit { s with rails := { s.rails with thermtrip := true } } (.thermtripN true))

/-- GLOVE_LOSS: a standby rail fails. The Glove's gate output falls, the other Glove classifies its feed, and the acting Glove changes. With none left the Standby
die is unpowered: rails and core fall with it, and its registers go (R309, R322, R326). -/
def execGloveLoss (g : Glove) (s : State) : Res :=
  .next (
    if !(gloveAt s g).alive then s
    else
      let s := setGlove s g (fun _ => {})
      let s := interlock s
      let s := setFeed s g (fun f => { f with vOwn := none })
      let s := setFeed s (otherG g) (fun f => { f with vPeer := none })
      if (gloveAt s (otherG g)).alive then reclass (reclass s g) (otherG g)
      else
        let s := railsOff (coreDown s)
        { s with bank := [], stby := {}, rails := {}, boot := { cause := 1 }, hbx := { s.hbx with bootStandby := none } })

end Sys2Proof.Machine
end

