-- ==== Sys2Proof/Machine/Starts.lean ====
section
/-! DEFINITION. The steps of a start (Table 13.2, R326 to R333, R396), the boot watchdog (R328, R330), losses of clocks (R337) and shelf time (R338). -/

namespace Sys2Proof.Machine

/-! ## Images (R289) -/

/-- The bytes of an image slot: 0 A, 1 B, 2 recovery. -/
def slotBytes (c : Control) (slot : Nat) : Bytes := if slot = 0 then c.slotA.bytes else if slot = 1 then c.slotB.bytes else c.recovery.bytes

/-- Bytes of an image slot (Table 10.8). -/
def slotSize (slot : Nat) : Nat := if slot < 2 then 0x3000000 else 0x1C00000

/-- SECURITY_VERSION of an image. -/
def securityVersion (b : Bytes) : Nat := fieldAt b 8 4

/-- What refuses an image: 0x601 SIGNATURE, 0x602 ROLLBACK (R289). -/
def imageBad (s : State) (slot : Nat) : Option Nat :=
  let b := slotBytes s.ctl slot
  let key := fieldAt b 5 1
  let n := fieldAt b 0xC 4
  if !(fieldAt b 0 4 == 0x4D42494D && fieldAt b 4 1 == 1 && decide (key < 4) && !(Config.keyRevoked.getLsbD key)) then some 0x601
  else if sha384 (sub b 0x60 96) ≠ Config.keyHash key then some 0x601
  else if slotSize slot - 4096 < n ∨ b.length < 4096 + n ∨ sha384 (sub b 4096 n) ≠ sub b 0x30 48 then some 0x601
  else if !(ecdsaP384Verify (sub b 0x60 96) (sub b 0 0x100) (sub b 0x100 96)) then some 0x601
  else if securityVersion b < rollbackOf s then some 0x602
  else none

/-! ## BOOT_ROM and IMAGE_CHECK (R327) -/

/-- The slot that C chooses: BOOT_SLOT, the other of A and B, or the recovery image. -/
def slotOfC (r : BootRec) : Nat := if r.attempts ≤ 2 then r.bootSlot else if r.attempts ≤ 5 then 1 - r.bootSlot else 2

/-- Steps 2 and 3 of R327: a slot, C and ATTEMPT_SERIAL raised by one, and the record written. `want` is the slot of an activation. -/
def bootAttempt (s : State) (r : BootRec) (want : Option Nat) : State :=
  let slot := want.getD (slotOfC r)
  let r := { r with attempts := r.attempts + 1, attemptSerial := r.attemptSerial + 1, lastSlot := slot, lastCause := s.boot.cause }
  bootPut { s with boot := { s.boot with slot := slot, attempts := r.attempts, want := none } } r

/-- BOOT_ROM: step 4. Shelf time starts at LAST_TIME + 3 s at a cold start and never runs backward (R338); an attempt that ended by power loss does not
count; the boot watchdog starts (R330). -/
def execBootRom (s : State) : Res :=
  .next (
    if s.rails.coreReset || s.boot.step != 3 then s
    else
      let r := bootRec s
      let s := if s.boot.warm then s
        else
          let (n, s) := drawWord s
          let t := max s.clk.now (r.lastTime + 3000000000)
          setBit { s with ctl := { s.ctl with nonce := n }, clk := { s.clk with now := t, timeLock := true, lastTimeAt := t } } .sepCtrl 1
      let now := nowOf s
      let lower := s.boot.cause = 3 ∨ r.pfSerial = r.attemptSerial
      let s := { s with boot := { s.boot with prevCause := r.lastCause, step := 4, wdogRunning := true, wdogLoad := fld s .clkBootWdog 15 0, wdogFrom := now, wdogWarned := false, wdogDone := false } }
      bootAttempt s (if lower then { r with attempts := r.attempts - 1 } else r) s.boot.want)

/-- IMAGE_CHECK: step 5. A slot that fails R289 raises C to the lowest of 3 and 6 above it and another slot is chosen without a reset; a failed recovery image
stops the boot ROM with a halt code that is free (log entry 2). -/
def execImageCheck (s : State) : Res :=
  .next (
    if s.rails.coreReset || s.boot.step != 4 then s
    else if (imageBad s s.boot.slot).isNone then
      { s with boot := { s.boot with step := 5 }
               ctl := { s.ctl with running := s.boot.slot, bootSlot := (bootRec s).bootSlot, safeMode := s.boot.slot == 2 } }
    else if s.boot.slot = 2 then
      let (d, s) := drawNat s
      let code := d % 255 + 1
      emit { s with boot := { s.boot with halt := code, wdogRunning := false }, rails := { s.rails with coreReset := true } } (.uart code)
    else
      let r := bootRec s
      let s := bootPut s { r with attempts := if r.attempts < 3 then 3 else max 6 r.attempts }
      bootAttempt s (bootRec s) none)

/-! ## START_SELF_TEST (R331, Table 13.5) -/

/-- Units switched off by a failed test. -/
def testOff (s : State) (domains : List Nat) : State := forAll domains domOff s

/-- START_SELF_TEST: step 6. A warm start runs only the rows marked W, and DRAM leaves self-refresh at once when it was trained; when a failure leaves the device unable
to serve, the start ends in a cold start with cause WATCHDOG. The MRAM test decides about drive-journal mode: each pool enters or leaves it as it is
replayed (R104, R105). -/
def execStartSelfTest (faults : SelfTestFaults) (s : State) : Res :=
  .next (
    if s.rails.coreReset || s.boot.step != 5 then s
    else
      let banks := (List.range 8).filter faults.banks.contains
      let slices := (List.range 4).filter faults.slices.contains
      let pars := (List.range 4).filter faults.parity.contains
      let clusters := (List.range 6).filter faults.clusters.contains
      let pairs := (List.range 2).filter faults.pairs.contains
      let s := testOff s (banks.map (32 + ·))
      let s := forAll slices (fun s i => domOff (clearBit s .mcCtrl (4 + i)) (50 + i)) s
      let s := if faults.reseq then clearBit s .qpCtrl 1 else s
      let s := forAll pars (fun s i => clearBit s .parCtrl i) s
      let s := testOff s (clusters.map (40 + ·))
      let s := forAll pairs (fun s i => if s.ctl.pairsUp.getLsbD i then haltPair s i else s) s
      let fails := faults.ctxCache || decide (bufferCells s.dom.on < 65536 + guaranteeSum s + fld s .fabGwCfg 19 0) || pars.length == 4
        || (List.range 6).all (fun c => !(s.dom.on.getLsbD (40 + c))) || s.ctl.pairsUp == 0
      if fails then coldStart s 5
      else if s.boot.warm then
        { s with boot := { s.boot with step := if flag s .pwrCtrl 0 then 7 else 6, dramSelfRefresh := false } }
      else
        let s := { s with boot := { s.boot with step := 6 }, clk := { s.clk with hclkLock := true }
                          hbx := { s.hbx with mramOk := !faults.mram, selftestResult := if faults.mram then 3 else 1 } }
        if faults.mram then journalFlags s 1
        else { s with hbx := { s.hbx with dead := false, driveJournal := false, djCause := 0 } })

/-- DDR_TRAINING_DONE: step 7. DRAM_LOCK is set (R320); a channel that is switched off, or whose PLL lost lock, has no usable DIMM. -/
def execDdrTrainingDone (s : State) : Res :=
  .next (
    if s.rails.coreReset || s.boot.step != 6 then s
    else
      let live := (List.range 8).filter (fun c => s.dom.on.getLsbD (24 + c) && !(s.clk.ddrBad.getLsbD c))
      let s := { s with dimms := live.map (fun c => (c, { type := Config.dimmType c % 3, sizeGib := Config.dimmGib c, rate := Config.dimmRate c }))
                        clk := { s.clk with ddrLock := live.foldl (fun (m : BitVec 8) c => m ||| (1#8 <<< c)) 0 }
                        boot := { s.boot with step := 7, dramSelfRefresh := false } }
      setBit s .pwrCtrl 0)

/-- NETWORK_BRING_UP: step 8. Network and drive edges are calibrated and enabled with the groups that are on, ports are brought up, transport, host queues and mailboxes
enabled: level 1. LINGER of kept connections runs from here (R264). -/
def execNetworkBringUp (s : State) : Res :=
  .next (
    if s.rails.coreReset || s.boot.step != 7 then s
    else
      let nets := (List.range 8).filter (fun g => s.dom.on.getLsbD g)
      let drvs := (List.range 16).filter (fun g => s.dom.on.getLsbD (8 + g))
      let s := forAll nets (fun s g => setBit s .netCtrl (8 + g)) (setBit s .netCtrl 0)
      let s := forAll nets (fun s g => forAll (List.range 8) (fun s i => setBit s (.netPortCtrl (8 * g + i)) 0) s) s
      let s := forAll drvs (fun s g => setBit s .drvCtrl (1 + g)) (setBit s .drvCtrl 0)
      let s := setBit (setBit (setBit s .qpCtrl 0) .hqCtrl 0) .ctlCtrl 0
      let now := nowOf s
      { s with boot := { s.boot with step := 8 }
               clk := { s.clk with netLock := nets.foldl (fun (m : BitVec 8) g => m ||| (1#8 <<< g)) 0
                                   drvLock := drvs.foldl (fun (m : BitVec 16) g => m ||| (1#16 <<< g)) 0 }
               hq := { s.hq with conns := tmap s.hq.conns (fun _ k => if k.queues.isEmpty then { k with lingerFrom := some now } else k) } })

/-! ## LEDGER_READ (R396) -/

/-- One pool of a cold start: mounted on the ring that the directory assigns, else on a free ring with its journal taken from the drive copy. Where it may not be imported
it stands offline (R332), and what R84 or R147 refuses is reported by event 2 with the SEQ or the LBA as its detail: DESIGN CHOICE, the spec gives the report no form
(log entry 69). -/
def autoImport (s : State) (l : Ledger) : State :=
  let odd := formatUnknown s l (metRing s l)
  let refused := odd.isSome || decide (64 < (l.members.filter (fun e => e.2.state == .active || e.2.state == .evacuating)).length)
    || decide (layoutTol l.layout < membersMissing s l)
  let (pick, s) := pickOf s (freePools s)
  match pick with
  | none => s
  | some pi =>
    let (ring, s) := match ringOfId s l.poolId with
      | some r => (some r, s)
      | none =>
        let (f, s) := pickOf s (freeRings s)
        match f with
        | some r => (some r, setDir (assignRing s r l.poolId l.epoch l.hbxBand) r (fun d => { d with driveJournal := true }))
        | none => (none, s)
    match ring with
    | none => s
    | some r =>
      let s := mountPool (setBit (setBit s .hbxCtrl 0) .hbxCtrl (4 + r)) pi r l (readImage s l true (ringAt s r).dir.epoch)
      let s := match odd with
        | some x => mgmt s 2 pi x.2
        | none => s
      if refused then setPool s pi (fun p => { p with online := false, replayed := true, rootsLoaded := true }) else s

/-- The pools whose valid ledger names this device, by identifier. -/
def ownPools (s : State) : List Ledger :=
  let ids := (((s.drives.filter (fun e => e.2.linkUp && e.2.ident.isSome)).map (fun e =>
    ((e.2.ledger0.toList ++ e.2.ledger1.toList).filter (·.valid)).map (·.poolId))).flatten).eraseDups
  (ids.filterMap (bestLedger s)).filter (fun l => ownLedger l && !(s.pools.any (fun p => p.2.id == l.poolId)))

/-- A pool at a warm start: it stands in DRAM, and replay is skipped when its ring ends in a CLEAN record that matches; otherwise the pool is mounted again and replay
runs in full (R100). -/
def warmPoolCheck (s : State) (pi : Nat) : State :=
  match poolAt s pi with
  | none => s
  | some p =>
    if !p.online || ringClean s p then s
    else
      match bestLedger s p.id with
      | some l => mountPool s pi p.ring l (readImage s l true (ringAt s p.ring).dir.epoch)
      | none => s

/-- LEDGER_READ: step 10. On a warm start the commands that waited for the drives' new I/O queues go out (step 9), and the CLEAN check decides about replay. -/
def execLedgerRead (s : State) : Res :=
  .next (
    if s.rails.coreReset || (s.boot.step != 8 && s.boot.step != 9) then s
    else
      let s := if s.boot.warm then forAll (s.pools.map (·.1)) warmPoolCheck (forAll (s.drives.map (·.1)) pumpQueue s) else s
      let s := if s.ctl.safeMode then s else forAll (ownPools s) autoImport s
      { s with boot := { s.boot with step := 10 } })

/-! ## Early Service levels (R332, Table 13.6) -/

/-- The condition of Table 13.6. -/
def levelReady (s : State) (level : Nat) : Bool :=
  let on := s.pools.filter (fun e => e.2.online)
  decide (10 ≤ s.boot.step) && (level != 2 || on.all (fun e => e.2.replayed))
    && (level != 3 || on.all (fun e => (s.volumes.filter (fun v => v.2.pool == e.1)).all (fun v => v.2.rootLoaded)))
    && (level != 4 || on.all (fun e => e.2.rootsLoaded))

/-- HQ_ES.LEVEL raised by one, when its condition holds; every connection learns of it (R255). -/
def esRaise (s : State) (level : Nat) : State :=
  if level ≠ esLevel s + 1 ∨ 4 < level ∨ s.ctl.safeMode = true ∨ levelReady s level = false then cfgReject s .hqEs
  else
    let s := setFld s .hqEs 2 0 level
    let s := if level = 3 then forAll (s.pools.filter (fun e => e.2.online && !e.2.rootsLoaded)) (fun s e => recountLive s e.1) s else s
    let s := { s with boot := { s.boot with step := if level = 4 then 13 else 9 + level } }
    mgmt (postAll s 1 level) 5 0 level

/-- ES_LEVEL_SET. -/
def execEsLevelSet (level : Nat) (s : State) : Res := .next (esRaise s level)

/-! ## Boot watchdog (R328, R330) -/

/-- The count that the boot watchdog was last loaded with, in ns. -/
def wdogLimit (s : State) : Nat := s.boot.wdogLoad * 1000000000

/-- CLK_BOOT_WDOG.DONE: the watchdog stops; with slot A or B running, C returns to 0 and BOOT_SLOT is the running slot (R328). An activation without HOLD
ends: with ACTIVATION_FAILED when another image than its own resumed service (R291, R292). A watchdog that expires by then wins (R334). -/
def wdogDone (s : State) : State :=
  if s.rails.coreReset || s.boot.step < 5 || !s.boot.wdogRunning then s
  else if s.boot.wdogFrom + wdogLimit s ≤ nowOf s then coldStart s 5
  else
    let s := { s with boot := { s.boot with wdogRunning := false, wdogDone := true } }
    let s := if s.ctl.running < 2 then
        bootPut { s with ctl := { s.ctl with bootSlot := s.ctl.running }, boot := { s.boot with attempts := 0 } }
          { bootRec s with attempts := 0, bootSlot := s.ctl.running }
      else s
    match s.boot.actOp with
    | some (op, slot) => endOp { s with boot := { s.boot with actOp := none } } op (if s.ctl.running = slot then 0 else 0x604)
    | none => s

/-- BOOT_WDOG_DONE. -/
def execBootWdogDone (s : State) : Res := .next (wdogDone s)

/-- KICK reloads the count from LIMIT_S; it comes too late for a watchdog that has expired (R330). -/
def wdogKick (s : State) : State :=
  if s.boot.wdogRunning && decide (s.boot.wdogFrom + wdogLimit s ≤ nowOf s) then coldStart s 5
  else if s.boot.wdogRunning then { s with boot := { s.boot with wdogFrom := nowOf s, wdogLoad := fld s .clkBootWdog 15 0, wdogWarned := false } } else s

/-- BOOT_WDOG_KICK. -/
def execBootWdogKick (s : State) : Res := .next (wdogKick s)

/-- WDOG_WARN: 10 s remain. -/
def execWdogWarn (s : State) : Res :=
  .next (
    if !s.boot.wdogRunning || s.boot.wdogWarned then s
    else setBit { reach s (s.boot.wdogFrom + wdogLimit s - 10000000000) with boot := { s.boot with wdogWarned := true } } .clkEvent 0)

/-- WATCHDOG_EXPIRY: a cold start with cause WATCHDOG. -/
def execWatchdogExpiry (s : State) : Res :=
  .next (if s.boot.wdogRunning then coldStart (reach s (s.boot.wdogFrom + wdogLimit s)) 5 else s)

/-! ## Clocks (R337) -/

/-- CLOCK_LOSS: the acting Glove holds the core in reset until the reference is back. -/
def execClockLoss (c : CoreClock) (s : State) : Res :=
  .next (
    if s.rails.pg ≠ 0xFF then s
    else
      let s := coldStart { s with clk := { s.clk with waitRef := true } } 7
      match c with
      | .ref25 => { s with clk := { s.clk with lost25 := true, timeLock := false } }
      | .cclk => { s with clk := { s.clk with cclkLock := false } }
      | .kclk => { s with clk := { s.clk with kclkLock := false } })

/-- REFERENCE_RETURN: the reference has been present for 10 ms. -/
def execReferenceReturn (s : State) : Res :=
  .next (
    if !s.clk.waitRef then s
    else
      let s := reach s (nowOf s + 10000000)
      coreRelease { s with clk := { s.clk with waitRef := false, lost25 := false, cclkLock := true, kclkLock := true } })

/-- LOCK_LOST with its counter for `n` PLLs. -/
def lockLost (s : State) (n : Nat) : State := countBy (setBit s .clkEvent 2) 0x7D8 n

/-- A network group's ports go down. -/
def netGroupDown (s : State) (g : Nat) : State :=
  let s := forAll (List.range 8) (fun s i => fabPortDown (netLink s (8 * g + i) false) (8 * g + i)) s
  { s with clk := { s.clk with netLock := s.clk.netLock &&& ~~~(1#8 <<< g) } }

/-- A drive group's ports go down. -/
def drvGroupDown (s : State) (g : Nat) : State :=
  let s := forAll (List.range 4) (fun s i => driveLinkDown s (4 * g + i)) s
  { s with clk := { s.clk with drvLock := s.clk.drvLock &&& ~~~(1#16 <<< g) } }

/-- LAST_TIME_UPDATE: every 1 s of shelf time the boot record takes the time (Table 13.4). -/
def execLastTimeUpdate (s : State) : Res :=
  .next (
    if s.rails.coreReset then s
    else
      let s := reach s (s.clk.lastTimeAt + 1000000000)
      bootPut { s with clk := { s.clk with lastTimeAt := nowOf s } } (bootRec s))

/-- CLK_TIME_SET: a forward step; a value at or below the time is ignored with CFG_REJECT (R338). The boot watchdog runs on the 25 MHz reference,
which the step does not move (R330). -/
def timeSet (s : State) (v : Word) : State :=
  if v.toNat ≤ nowOf s then cfgReject s .clkTimeSet
  else
    let d := v.toNat - nowOf s
    setBit (reach { s with boot := { s.boot with wdogFrom := s.boot.wdogFrom + d } } v.toNat) .clkEvent 1

/-- TIME_SET. -/
def execTimeSet (value : Word) (s : State) : Res := .next (timeSet s value)

/-- CLK_TIME_ADJ: the frequency correction and a slew, which takes the place of one that still runs (R338). -/
def timeAdj (s : State) (slew ppb : Int) : State :=
  if slew < -1000000000 ∨ 1000000000 < slew ∨ ppb < -500000 ∨ 500000 < ppb then cfgReject s .clkTimeAdj
  else
    bankSet { s with clk := { s.clk with ppb := ppb, slewLeft := slew } } .clkTimeAdj (BitVec.ofInt 64 (ppb % 4294967296))

/-- TIME_ADJ. -/
def execTimeAdj (slewNs freqPpb : Int) (s : State) : Res := .next (timeAdj s slewNs freqPpb)

end Sys2Proof.Machine
end

