-- ==== Sys2Proof/Machine/Firmware.lean ====
section
/-! DEFINITION. The firmware group of mailbox commands (R288 to R290), activation (R291, R292) and the anti-rollback counter. -/

namespace Sys2Proof.Machine

/-! ## The firmware store -/

def slotOf (c : Control) (slot : Nat) : FwSlot := if slot = 0 then c.slotA else if slot = 1 then c.slotB else c.recovery

def setSlot (s : State) (slot : Nat) (f : FwSlot → FwSlot) : State :=
  if slot = 0 then { s with ctl := { s.ctl with slotA := f s.ctl.slotA } }
  else if slot = 1 then { s with ctl := { s.ctl with slotB := f s.ctl.slotB } }
  else { s with ctl := { s.ctl with recovery := f s.ctl.recovery } }

/-- A chunk of a download (R288). -/
def downloadChunk (s : State) (b : Bytes) : MbxOut :=
  let slot := fieldAt b 0 1
  let first := fieldAt b 1 1 % 2 == 1
  let last := fieldAt b 1 1 / 2 % 2 == 1
  let off := fieldAt b 4 4
  let n := fieldAt b 8 4
  if 2 < slot ∨ n = 0 ∨ 4048 < n then mbxFail s 5 0
  else if slot = s.ctl.running then mbxFail s 0x603 0
  else
    let s' := if first then setSlot s slot (fun _ => { downloading := true }) else s
    let f := slotOf s'.ctl slot
    if !f.downloading || off ≠ f.bytes.length || decide (slotSize slot < off + n) then mbxFail s 5 0
    else { s := setSlot s' slot (fun f => { f with bytes := f.bytes ++ sub b 16 n, downloading := !last }), pay := leBytes 4 (off + n) }

/-- FW_DOWNLOAD. -/
def execFwDownload (ch : Nat) (s : State) : Res := .next (mbxRow s ch 0x600 (fun s b gen => noGen s gen (downloadChunk s b)))

/-- FW_VERIFY: the image is checked by R289. -/
def execFwVerify (ch : Nat) (s : State) : Res :=
  .next (mbxRow s ch 0x601 (fun s b gen =>
    let slot := fieldAt b 0 1
    noGen s gen (
      if 2 < slot then mbxFail s 5 0
      else if !(opFree s) then mbxFail s 0xA 0
      else
        let bad := imageBad s slot
        accepted (startOp (setSlot s slot (fun f => { f with valid := bad.isNone })) 0x601 .none (slotVersion (slotOf s.ctl slot)) (some (bad.getD 0))))))

/-- A slot entry of FW_STATUS. -/
def slotEntry (f : FwSlot) : Bytes :=
  pack 48 [(0, 1, if f.valid then 1 else 0), (4, 4, f.bytes.length), (8, 16, leNat (slotVersion f)), (24, 4, securityVersion f.bytes), (28, 1, fieldAt f.bytes 5 1),
    (32, 8, fieldAt f.bytes 0x20 8)]

/-- FW_STATUS. -/
def execFwStatus (ch : Nat) (s : State) : Res :=
  .next (mbxRow s ch 0x603 (fun s _ gen =>
    noGen s gen { s := s, pay := slotEntry s.ctl.slotA ++ slotEntry s.ctl.slotB ++ slotEntry s.ctl.recovery
                                   ++ pack 8 [(0, 1, s.ctl.running), (1, 1, (bootRec s).bootSlot), (4, 4, rollbackOf s)] }))

/-! ## Anti-rollback (R290) -/

/-- A write of CTL_ROLLBACK.RAISE: both copies take a value above the counter; a lower one is ignored with CFG_REJECT. -/
def raiseRollback (s : State) (v : Nat) : State :=
  let cur := rollbackOf s
  if v < cur then cfgReject s .ctlRollback
  else if v = cur then s
  else setBit { s with hbx := { s.hbx with rollback0 := some v, rollback1 := some v } } .ctlEvent 4

/-- ROLLBACK_RAISE. -/
def execRollbackRaise (value : Nat) (s : State) : Res := .next (raiseRollback s (value % 2 ^ 32))

/-- FW_COMMIT: at most the running image's SECURITY_VERSION. -/
def execFwCommit (ch : Nat) (s : State) : Res :=
  .next (mbxRow s ch 0x604 (fun s b gen =>
    let v := fieldAt b 0 4
    noGen s gen (
      if securityVersion (slotBytes s.ctl s.ctl.running) < v then mbxFail s 5 0
      else
        let s := raiseRollback s v
        { s := s, pay := leBytes 4 (rollbackOf s) })))

/-! ## Activation (R291, R292) -/

/-- What refuses FW_ACTIVATE at once (R291 step 1, R334). -/
def activateRefused (s : State) (slot w : Nat) : Option Nat :=
  if 2 ≤ slot ∨ 1500 < w then some 5
  else if s.boot.quiesce.isSome || s.ctl.ops.any (fun e => e.2.state == 1 && [0x602, 0x201, 0x202, 0x206].contains e.2.opcode) then some 6
  else if !s.ctl.safeMode && esLevel s != 4 then some 6
  else if !(opFree s) then some 0xA
  else none

/-- An activation with HOLD begins (R291 step 4). -/
def activateHold (s : State) (slot w : Nat) : MbxOut :=
  let (s, id) := startOp s 0x602 .none [] none
  let s := startHoldFor s (if w = 0 then fld s .hqHold 31 16 else w)
  let s := { s with pools := tmap s.pools (fun _ p => { p with background := false })
                    ctl := { s.ctl with activation := some { slot := slot, opId := id, hold := true, holdFrom := nowOf s, waitFrom := s.ctl.accepted } } }
  accepted (s, id)

/-- An activation without HOLD, or in Safe Mode, asks the boot ROM for its slot; the warm start follows the answer (R291 step 3, R329). -/
def activateWarm (s : State) (slot : Nat) : MbxOut :=
  let (s, id) := startOp s 0x602 .none [] none
  let s := { s with boot := { s.boot with want := some slot, actOp := some (id, slot) } }
  let s := if s.ctl.safeMode then bootPut s { bootRec s with attempts := 0, bootSlot := slot } else s
  accepted (s, id)

/-- FW_ACTIVATE. -/
def execFwActivate (ch : Nat) (s : State) : Res :=
  let t := mbxRow s ch 0x602 (fun s b gen =>
    let slot := fieldAt b 0 1
    let w := fieldAt b 2 2
    noGen s gen (
      match activateRefused s slot w with
      | some st => mbxFail s st 0
      | none =>
        match imageBad s slot with
        | some st => accepted (startOp s 0x602 .none [] (some st))
        | none => if fieldAt b 1 1 % 2 = 1 ∧ s.ctl.safeMode = false then activateHold s slot w else activateWarm s slot))
  .next (if s.boot.want.isNone && t.boot.want.isSome then warmStart t 9 else t)

/-- ACTIVATION_ADOPT: with no started command left, the new image adopts the handover record: background work resumes, the hold is released, and the slot becomes the
boot slot (R291 steps 4 and 5). -/
def execActivationAdopt (s : State) : Res :=
  .next (
    match s.ctl.activation with
    | none => s
    | some a =>
      if !(s.hq.cmds.all (fun e => isWaitOp e.2.nvme e.2.queue e.2.e)) then s
      else
        let s := { s with pools := tmap s.pools (fun _ p => { p with background := true })
                          ctl := { s.ctl with running := a.slot, activation := none } }
        let s := releaseHold s
        let s := bootPut { s with ctl := { s.ctl with bootSlot := a.slot } } { bootRec s with attempts := 0, bootSlot := a.slot, lastSlot := a.slot }
        let s := { s with ctl := { s.ctl with ops := tmod s.ctl.ops a.opId (fun o => { o with result := padTo 16 (leBytes 2 s.hq.hold.lastMs) }) } }
        endOp s a.opId 0)

/-- ACTIVATION_TIMEOUT: the new image has not adopted the record within 10 s; the operation fails and a warm start on the old slot follows (R292). -/
def execActivationTimeout (s : State) : Res :=
  .next (
    match s.ctl.activation with
    | none => s
    | some a =>
      let s := reach s (a.holdFrom + 10000000000)
      warmStart (endOp { s with ctl := { s.ctl with activation := none } } a.opId 0x604) 9)

end Sys2Proof.Machine
end

