-- ==== Sys2Proof/Machine/Sep.lean ====
section
/-! DEFINITION. The PCIe service endpoint: its link, BAR requests, windows, Master Enable, function resets and power states, and interrupts
(R340 to R355). -/

namespace Sys2Proof.Machine

/-! ## Configuration space (R342, Table 14.1). No command of the table reads it; it is what an enumerating host finds -/

/-- A capability that a function presents. -/
inductive PciCap
  | powerManagement | pciExpress | msi | msix | aer | serialNumber | ari | secondary | dataLinkFeature | phy16 | phy32 | phy64 | laneMargining
  deriving DecidableEq, Repr

/-- Capabilities of a function; every other one is unimplemented. -/
def pciCaps (pf : Nat) : List PciCap :=
  [.powerManagement, .pciExpress, .msix, .aer, .serialNumber, .ari]
    ++ (if pf = 0 then [.msi, .secondary, .dataLinkFeature, .phy16, .phy32, .phy64, .laneMargining] else [])

/-- Vendor ID, Device ID, class code, Subsystem Vendor ID, Subsystem ID, Revision ID and Interrupt Pin of a function. -/
def pciIds (pf : Nat) : List Nat :=
  let f := Config.sysIdFuses
  [(f >>> 40).toNat % 65536, if pf = 0 then 0xA640 else 0xA641, 0x088000, (f >>> 24).toNat % 65536, (f >>> 8).toNat % 65536, f.toNat % 256, 0]

/-- Bytes of a BAR pair, 0 where it is absent, and whether it is prefetchable. -/
def pciBar (pf bar : Nat) : Nat × Bool :=
  match pf, bar with
  | 0, 0 => (0x40000, false)
  | 0, 2 => (0x400000000, true)
  | 1, 0 => (0x10000, false)
  | _, _ => (0, false)

/-- MSI-X vectors of a function, and where its table and its pending bit array stand in BAR0. -/
def pciMsix (pf : Nat) : Nat × Nat × Nat := if pf = 0 then (64, 0x30000, 0x38000) else (16, 0x1000, 0x1800)

/-- Device Serial Number: bytes 0 to 7 of DEVICE_ID. -/
def pciSerial : BitVec 64 := Config.uidLo

/-! ## Interrupts held pending (R346, R352) -/

/-- What a function signals once it may issue requests again: its unmasked pending vectors, or PF0's pending message. -/
def sepFlush (s : State) (pf : Nat) : State :=
  let f := sepFn s pf
  if !(fnLive f) then s
  else if f.msix then
    forAll (List.range 64) (fun s v =>
      if (sepFn s pf).pba.getLsbD v && !(vectorMasked (sepFn s pf) v) then
        emit (setSepFn s pf (fun f => { f with pba := f.pba &&& ~~~(1#64 <<< v) })) (.msix pf v)
      else s) s
  else if f.msiPending && !f.msiMasked then
    let s := setSepFn s pf (fun f => { f with msiPending := false })
    if s.sep.intPend = 0 then s else msiSend s
  else s

/-- A write of SEP_PF0_RAISE with RAISE 1: sources 5 to 63 (Table 14.6). -/
def pf0Raise (s : State) (v : Nat) : State := if v < 5 ∨ 64 ≤ v then cfgReject s .sepPf0Raise else pf0Source s v

/-- PF0_RAISE. -/
def execPf0Raise (vector : Nat) (s : State) : Res := .next (pf0Raise s vector)

/-! ## Windows (R347 to R349) -/

/-- The active set of an entry. -/
def winAt (s : State) (e : Nat) : SepWin := (tget s.sep.wins e).getD {}

/-- Bytes that a control word's PAGES_M1 gives. -/
def winBytes (ctrl : Word) : Nat := (bits ctrl 31 16 + 1) * 4096

/-- Regions that a window may name, a DRAM address at or above the installed capacity lying in none (R387): 0 DRAM, 1 Hatbox MRAM, 2 the Map Cache diagnostic window; none otherwise (R349). -/
def winRegion (a n : Nat) : Option Nat :=
  if a + n ≤ Config.installedDramGib * 2 ^ 30 ∧ a + n ≤ 2 ^ 41 then some 0
  else if 0xA0000000000 ≤ a ∧ a + n ≤ 0xA0020000000 then some 1
  else if 0xC0000000000 ≤ a ∧ a + n ≤ 0xC0040000000 then some 2
  else none

/-- Whether the shadow set of an entry may be committed. -/
def winCommitOk (base ctrl : Word) : Bool :=
  (winRegion base.toNat (winBytes ctrl)).any (fun r => r == 0 || !(bit ctrl 2))

/-- A write of 1 to SEP_WIN_COMMIT bit e (R348, R349). -/
def winCommit (s : State) (e : Nat) : State :=
  if 64 ≤ e then s
  else
    let base := bankGet s (.sepWinShdBase e)
    let ctrl := bankGet s (.sepWinShdCtrl e)
    if winCommitOk base ctrl then
      let w := winAt s e
      setBit { s with sep := { s.sep with wins := tput s.sep.wins e { base := base, ctrl := ctrl, version := (w.version + 1) % 256 } } } .sepWinCommit e
    else setBit s .sepEvent 10

/-- WIN_COMMIT. -/
def execWinCommit (entry : Nat) (s : State) : Res := .next (winCommit s entry)

/-- WINDOW_DRAIN_DONE: every TLP of the previous version has finished at its target. -/
def execWindowDrainDone (entry : Nat) (s : State) : Res := .next (if 64 ≤ entry then s else clearBit s .sepWinCommit entry)

/-- A window's image in PF0 BAR0 (Table 14.3). -/
def winImage (s : State) (e : Nat) : Word :=
  let w := winAt s e
  atLo (bits w.ctrl 2 0) 0 ||| atLo (bits w.ctrl 47 40) 8 ||| atLo w.version 16 ||| atLo (bits w.ctrl 31 16) 32

/-! ## Requests -/

/-- A request is treated as an Unsupported Request, with NARROW for a bad size at a register image (R343, R344). -/
def sepUr (s : State) (pf : Nat) (narrow : Bool) : State :=
  let s := if narrow then setBit s .sepEvent 6 else s
  emit (count (setBit s .sepEvent 5) 0x7C0) (.unsupported pf)

/-- Whether a function's BARs accept requests (R353 to R355). -/
def barOpen (s : State) (pf : Nat) : Bool :=
  flag s .sepCtrl 0 && (pf == 0 || flag s .sepCtrl 2) && !(sepFn s pf).flr && !(sepFn s pf).d3

/-- The size rule of a register image (R344). -/
def imageSize (t : Tlp) : Bool :=
  if t.write.isSome then t.off % 8 == 0 && (t.len == 8 || t.len == 4) else (t.len == 8 || t.len == 4) && t.off % t.len == 0

/-- The value that a write of a register image carries: a 4-byte write has a zero upper half. -/
def imageValue (t : Tlp) (b : Bytes) : Word := BitVec.ofNat 64 (leNat (padTo t.len b))

/-- The bytes of a read of a register image. -/
def imageRead (s : State) (pf : Nat) (t : Tlp) (w : Word) : State :=
  emit s (.completion pf (sub (leBytes 8 w.toNat) (t.off % 8) t.len) false)

/-- CTL_MBX_STATE_c (Table 10.16). -/
def mbxStateWord (s : State) (c : Nat) : Word :=
  let h := chanAt s c
  let st := match h.state with
    | .idle => 0
    | .busy => 1
    | .done => 2
  atLo st 16 ||| atLo (h.tag % 65536) 0

/-- HOST_STATUS (Table 14.2). -/
def hostStatus (s : State) : Word :=
  bitIf (flag s .ctlCtrl 0 && flag s .ctlCtrl 1) 0 ||| bitIf s.ctl.safeMode 1 ||| atLo (esLevel s) 8

/-- The register image that holds a PF0 offset; the doorbells read 0. -/
def pf0Image (s : State) (off : Nat) : Option Word :=
  if off < 0x40 then some (if off % 16 < 8 then 0 else mbxStateWord s (off / 16))
  else if off / 8 = 0x1000 / 8 then some (hostStatus s)
  else if off / 8 = 0x1008 / 8 then some s.sep.intPend
  else if 0x20000 ≤ off ∧ off < 0x20200 then some (winImage s ((off - 0x20000) / 8))
  else none

/-- A host write of HOST_INT_PEND: bits are cleared, and PF0's message goes out again while any is left (R346). -/
def intPendWrite (s : State) (v : Word) : State :=
  let s := { s with sep := { s.sep with intPend := s.sep.intPend &&& ~~~v } }
  if s.sep.intPend = 0 then s else msiSend s

/-- A write of a PF0 register image. -/
def pf0ImageWrite (s : State) (off : Nat) (v : Word) : State :=
  if off < 0x40 ∧ off % 16 = 0 then doorbell s (off / 16) (bit v 1) (bit v 0)
  else if off = 0x1008 then intPendWrite s v
  else sepUr s 0 false

/-! ## MSI-X structures -/

/-- An MSI-X entry: address; data and vector control. -/
def msixEntry (f : SepFn) (v : Nat) : Word × Word := (tget f.table v).getD (0, 0x100000000#64)

/-- The table with 8-byte word `i` written; of Vector Control only the mask bit is kept. -/
def msixPut (f : SepFn) (i : Nat) (w : Word) : SepFn :=
  let e := msixEntry f (i / 2)
  { f with table := tput f.table (i / 2) (if i % 2 = 0 then (w, e.2) else (e.1, w &&& 0x1FFFFFFFF#64)) }

/-- An 8-byte word of the table. -/
def msixWord (f : SepFn) (i : Nat) : Word := if i % 2 = 0 then (msixEntry f (i / 2)).1 else (msixEntry f (i / 2)).2

/-- 4- and 8-byte aligned accesses, as PCIe allows at the MSI-X structures. -/
def msixSize (t : Tlp) : Bool := (t.len == 8 || t.len == 4) && t.off % t.len == 0

/-- A request to a function's MSI-X table, `rel` bytes into it. With a size that PCIe leaves undefined a read returns free bytes and a write leaves free
words (log entries 2, 15). A mask lifted sends what is pending. -/
def msixAccess (s : State) (pf rel : Nat) (t : Tlp) : State :=
  let i := rel / 8
  match t.write with
  | none =>
    if msixSize t then emit s (.completion pf (sub (leBytes 8 (msixWord (sepFn s pf) i).toNat) (rel % 8) t.len) false)
    else
      let (b, s) := drawBytes s t.len
      emit s (.completion pf b false)
  | some b =>
    if msixSize t then
      let w := overlay (leBytes 8 (msixWord (sepFn s pf) i).toNat) (rel % 8) (padTo t.len b)
      sepFlush (setSepFn s pf (fun f => msixPut f i (BitVec.ofNat 64 (leNat (w.take 8))))) pf
    else
      forAll (List.range ((rel + t.len - 1) / 8 + 1 - i)) (fun s k =>
        let (w, s) := drawWord s
        setSepFn s pf (fun f => msixPut f (i + k) w)) s

/-- A request to a pending bit array: read-only. -/
def pbaAccess (s : State) (pf rel : Nat) (t : Tlp) : State :=
  if t.write.isSome then sepUr s pf false
  else if msixSize t then emit s (.completion pf (sub (leBytes 8 (sepFn s pf).pba.toNat) rel t.len) false)
  else
    let (b, s) := drawBytes s t.len
    emit s (.completion pf b false)

/-! ## BAR0 -/

/-- A poisoned write is discarded, and Poisoned TLP Received logged (R347). -/
def poisonedWrite (s : State) (t : Tlp) : Bool × State := if t.write.isSome && t.poisoned then (true, setBit s .sepEvent 8) else (false, s)

/-- A request to PF0 BAR0 (Table 14.2). -/
def pf0Bar0 (s : State) (t : Tlp) : State :=
  if 0x10000 ≤ t.off ∧ t.off < 0x18000 then
    let c := (t.off - 0x10000) / 0x2000
    let o := (t.off - 0x10000) % 0x2000
    if o % 0x1000 + t.len > 0x1000 then sepUr s 0 false
    else
      match t.write with
      | none =>
        let h := chanAt s c
        emit s (.completion 0 (if o < 0x1000 then sparseRead h.reqBuf o t.len else sparseRead h.respBuf (o - 0x1000) t.len) false)
      | some b => if o < 0x1000 then setChan s c (fun h => { h with reqBuf := sparseWrite h.reqBuf o (padTo t.len b) }) else sepUr s 0 false
  else if 0x30000 ≤ t.off ∧ t.off + t.len ≤ 0x30400 then msixAccess s 0 (t.off - 0x30000) t
  else if 0x38000 ≤ t.off ∧ t.off + t.len ≤ 0x38008 then pbaAccess s 0 (t.off - 0x38000) t
  else
    match pf0Image s t.off with
    | none => sepUr s 0 false
    | some w =>
      if !(imageSize t) then sepUr s 0 true
      else
        match t.write with
        | none => imageRead s 0 t w
        | some b => pf0ImageWrite s t.off (imageValue t b)

/-- PF1's ring registers (Table 14.5). -/
def pf1Image (s : State) (off : Nat) : Option Word :=
  match off / 8 with
  | 0 => some s.sep.ringBase
  | 1 => some (atLo 20480 32 ||| atLo (s.sep.slots % 2 ^ 31) 1 ||| bitIf s.sep.ringEn 0)
  | 2 => some (atLo s.sep.head 0)
  | 3 => some (atLo s.sep.tail 0)
  | 4 => some (atLo s.sep.dropped 0)
  | _ => none

/-- A write of a PF1 register: RING_BASE and SLOTS change only while EN is 0, SLOTS is 2 to 65,536, and a write against that is ignored with
CFG_REJECT (R355). -/
def pf1Write (s : State) (off : Nat) (v : Word) : State :=
  match off / 8 with
  | 0 =>
    let b := v &&& ~~~0xFFF#64
    if s.sep.ringEn && b != s.sep.ringBase then setBit s .sepEvent 10 else { s with sep := { s.sep with ringBase := b } }
  | 1 =>
    let n := bits v 31 1
    if n ≠ s.sep.slots ∧ (s.sep.ringEn = true ∨ n < 2 ∨ 65536 < n) then setBit s .sepEvent 10
    else { s with sep := { s.sep with slots := n, ringEn := bit v 0 } }
  | 2 => { s with sep := { s.sep with head := bits v 31 0 } }
  | _ => sepUr s 1 false

/-- A request to PF1 BAR0 (R350). -/
def pf1Bar0 (s : State) (t : Tlp) : State :=
  if 0x1000 ≤ t.off ∧ t.off + t.len ≤ 0x1100 then msixAccess s 1 (t.off - 0x1000) t
  else if 0x1800 ≤ t.off ∧ t.off + t.len ≤ 0x1808 then pbaAccess s 1 (t.off - 0x1800) t
  else
    match pf1Image s t.off with
    | none => sepUr s 1 false
    | some w =>
      if !(imageSize t) then sepUr s 1 true
      else
        match t.write with
        | none => imageRead s 1 t w
        | some b => pf1Write s t.off (imageValue t b)

/-- BAR0_REQUEST. -/
def execBar0Request (pf : Nat) (tlp : Tlp) (s : State) : Res :=
  .next (
    if !s.sep.linkUp || 2 ≤ pf then s
    else if !(barOpen s pf) then sepUr s pf false
    else
      let p := poisonedWrite s tlp
      if p.1 then p.2 else if pf = 0 then pf0Bar0 s tlp else pf1Bar0 s tlp)

/-! ## BAR2 (R347) -/

/-- What an entry's active version answers a TLP: its internal address, or none for an Unsupported Request. -/
def winTranslate (s : State) (t : Tlp) : Option Nat :=
  let w := winAt s (t.off / 0x10000000)
  let o := t.off % 0x10000000
  if t.off < 0x400000000 ∧ bit w.ctrl 0 = true ∧ o + t.len ≤ winBytes w.ctrl ∧ bit w.ctrl (if t.write.isSome then 2 else 1) = true then
    some (w.base.toNat + o)
  else none

/-- The bytes a window read fetches: DRAM, the Map Cache arrays as stored, or the MRAM (log entry 16). -/
def winFetch (s : State) (a n : Nat) : State × Bytes :=
  match winRegion a n with
  | some 1 => mramRead s (a - 0xA0000000000) n
  | some 2 => (s, (List.range n).map (fun i =>
      let o := a + i - 0xC0000000000
      BitVec.ofNat 8 ((diagRead s (o / 8 * 8)).toNat / 256 ^ (o % 8))))
  | _ => (s, memReads s.mem a n)

/-- BAR2_REQUEST. -/
def execBar2Request (tlp : Tlp) (eccError : Bool) (s : State) : Res :=
  .next (
    if !s.sep.linkUp then s
    else if !(barOpen s 0) then sepUr s 0 false
    else
      match winTranslate s tlp with
      | none => sepUr s 0 false
      | some a =>
        let dram := winRegion a tlp.len == some 0
        if dram && s.boot.dramSelfRefresh then sepUr s 0 false
        else
          match tlp.write with
          | some b =>
            let p := poisonedWrite s tlp
            if p.1 then p.2 else store s a (padTo tlp.len b)
          | none =>
            let bad := eccError && winRegion a tlp.len != some 2
            let s := if bad && dram then dramError s a 2 else s
            let (s, b) := winFetch s a tlp.len
            emit s (.completion 0 b bad))

/-! ## Link (R340, R341) -/

/-- The endpoint's functions reset with the link, as PCIe says of a hot reset (log entry 15): Mover channels halt, and no completion will come. -/
def sepFnReset (s : State) : State :=
  let s := busMasterOff (busMasterOff s 1) 2
  let s := { s with mov := tmap s.mov (fun _ ch => { ch with late := 0 }) }
  { s with sep := { s.sep with pf0 := {}, pf1 := {}, intPend := 0, ringBase := 0, slots := 0, ringEn := false, head := 0, tail := 0, dropped := 0 } }

/-- The link goes down. -/
def sepDown (s : State) : State :=
  let s := if s.sep.linkUp then setBit s .sepEvent 0 else s
  let s := sepFnReset s
  { s with sep := { s.sep with linkUp := false, speed := 0, width := 0 } }

/-- SEP_LINK_TRAINING: from step 4 on, with LINK_EN set, and 20 ms after SEP_PERST_N was let go, which comes after it was last asserted. -/
def execSepLinkTraining (speed width : Nat) (s : State) : Res :=
  .next (
    if s.rails.coreReset || s.boot.step < 4 || s.sep.linkUp || !(flag s .sepCtrl 1) || !(s.dom.on.getLsbD 60)
        || speed == 0 || 6 < speed || !([1, 2, 4, 8].contains width) then s
    else
      let s := match s.sep.perstAt with
        | some t => reach s (t + 20000000)
        | none => s
      setBit { s with sep := { s.sep with linkUp := true, speed := speed, width := width }, clk := { s.clk with sepLock := true } } .sepEvent 0)

/-- SEP_LINK_DOWN: the link goes down, or SEP_PERST_N is asserted. -/
def execSepLinkDown (perst : Bool) (s : State) : Res :=
  .next (
    let s := if perst then { s with sep := { s.sep with perstAt := some (nowOf s) } } else s
    if s.sep.linkUp || perst then sepDown s else s)

/-! ## Master Enable, function-level reset, power states (R352 to R354) -/

/-- MASTER_ENABLE_CLEAR. -/
def execMasterEnableClear (pf : Nat) (s : State) : Res :=
  .next (
    if 2 ≤ pf || !(sepFn s pf).me then s
    else busMasterOff (setBit (setSepFn s pf (fun f => { f with me := false })) .sepEvent (1 + pf)) (pf + 1))

/-- MASTER_ENABLE_SET: sources kept pending are signalled. -/
def execMasterEnableSet (pf : Nat) (s : State) : Res :=
  .next (
    if 2 ≤ pf || !s.sep.linkUp || (sepFn s pf).flr || (pf == 1 && !(flag s .sepCtrl 2)) then s
    else sepFlush (setSepFn s pf (fun f => { f with me := true })) pf)

/-- Channels 0 to 3 return to IDLE; commands already accepted go on under keys of their own, and their responses are discarded (R273). -/
def chansReset (s : State) : State :=
  forAll [0, 1, 2, 3] (fun s c =>
    let h := chanAt s c
    let s := if h.state == .busy then
        { s with ctl := { s.ctl with chans := tput s.ctl.chans ((freeKey s.ctl.chans 8 (2 ^ 32)).getD 8) h } }
      else s
    setChan s c (fun h => { h with state := .idle, req := [] })) s

/-- FUNCTION_LEVEL_RESET. -/
def execFunctionLevelReset (pf : Nat) (s : State) : Res :=
  .next (
    if 2 ≤ pf || !s.sep.linkUp || (pf == 1 && !(flag s .sepCtrl 2)) then s
    else
      let s := busMasterOff s (pf + 1)
      let s := if (sepFn s pf).me then setBit s .sepEvent (1 + pf) else s
      let s := count (setBit (setSepFn s pf (fun _ => { flr := true })) .sepEvent (3 + pf)) 0x7C2
      if pf = 0 then chansReset { s with sep := { s.sep with intPend := 0 } }
      else { s with sep := { s.sep with ringBase := 0, slots := 0, ringEn := false, head := 0, tail := 0, dropped := 0 } })

/-- FLR_READY. -/
def execFlrReady (pf : Nat) (s : State) : Res := .next (if 2 ≤ pf then s else setSepFn s pf (fun f => { f with flr := false }))

/-- D3HOT_ENTRY: Master Enable counts as 0, so channels halt as R352 says (log entry 15). -/
def execD3hotEntry (pf : Nat) (s : State) : Res :=
  .next (
    if 2 ≤ pf || !s.sep.linkUp || (sepFn s pf).flr || (sepFn s pf).d3 || (pf == 1 && !(flag s .sepCtrl 2)) then s
    else busMasterOff (setSepFn s pf (fun f => { f with d3 := true })) (pf + 1))

/-- D0_RETURN: the function keeps its state. -/
def execD0Return (pf : Nat) (s : State) : Res :=
  .next (if 2 ≤ pf then s else sepFlush (setSepFn s pf (fun f => { f with d3 := false })) pf)

/-! ## Losses of lock (R337) -/

/-- A DRAM channel PLL: the DIMM becomes unusable and the device makes a cold start. -/
def ddrLockLost (s : State) (c : Nat) : State :=
  if 8 ≤ c then s
  else coldStart { s with clk := { s.clk with ddrBad := s.clk.ddrBad ||| (1#8 <<< c), ddrLock := s.clk.ddrLock &&& ~~~(1#8 <<< c) } } 7

/-- The HCLK PLL: as for a Hatbox die that stops answering (R104). -/
def hclkLost (s : State) : State :=
  let s := { s with clk := { s.clk with hclkLock := false } }
  if s.hbx.dead then s else enterDriveJournal (setBit { s with hbx := { s.hbx with dead := true } } .hbxEvent 6) 3

/-- PLL_LOCK_LOST. -/
def execPllLockLost (p : Pll) (s : State) : Res :=
  .next (
    if s.rails.coreReset then s
    else
      let nets := (List.range 8).filter (fun g => s.clk.netLock.getLsbD g)
      let drvs := (List.range 16).filter (fun g => s.clk.drvLock.getLsbD g)
      match p with
      | .net g => if nets.contains g then lockLost (netGroupDown s g) 1 else s
      | .drv g => if drvs.contains g then lockLost (drvGroupDown s g) 1 else s
      | .dram c => if s.clk.ddrLock.getLsbD c then lockLost (ddrLockLost s c) 1 else s
      | .hclk => if s.clk.hclkLock then lockLost (hclkLost s) 1 else s
      | .sep => if s.clk.sepLock then lockLost (sepDown { s with clk := { s.clk with sepLock := false } }) 1 else s
      | .net156 =>
        if !s.clk.ref156 then s
        else lockLost (forAll nets netGroupDown (setBit { s with clk := { s.clk with ref156 := false } } .clkEvent 3)) nets.length
      | .ref100 =>
        if !s.clk.ref100 then s
        else lockLost (forAll drvs drvGroupDown (setBit { s with clk := { s.clk with ref100 := false } } .clkEvent 3)) drvs.length)

end Sys2Proof.Machine
end

