-- ==== Sys2Proof/Machine/Telemetry.lean ====
section
/-! DEFINITION. Counters, snapshots, dumps and sampling (R357 to R367), and PF1's host ring (R350). -/

namespace Sys2Proof.Machine

/-! ## Counters -/

/-- Whether a counter has an event in Table 15.1. -/
def counterKnown (n : Nat) : Bool :=
  [(0x000, 0x1EA), (0x200, 0x400), (0x480, 0x488), (0x500, 0x558), (0x580, 0x586), (0x5C0, 0x5EC), (0x600, 0x613), (0x640, 0x64F), (0x680, 0x68B),
    (0x6C0, 0x7C5), (0x7C8, 0x7CC), (0x7D0, 0x7D2), (0x7D8, 0x7D9), (0x7E0, 0x7E4), (0x7F0, 0x7F3)].any (fun r => decide (r.1 ≤ n ∧ n < r.2))
    || (decide (0x400 ≤ n ∧ n < 0x480) && decide (n % 16 ≤ 10))

/-- COUNTER_WRAP: the event of a counter presents a value of up to 15; past 2⁴⁸ − 1 the counter wraps (R358, R359). -/
def execCounterWrap (counter value : Nat) (s : State) : Res :=
  .next (if counterKnown counter && decide (value ≤ 15) then countBy s counter value else s)

/-- A counter's word in a dump (Table 15.2). -/
def ctrWord (t : Tab Ctr) (n : Nat) : Nat :=
  let c := ctrOf t n
  c.value % 2 ^ 48 + (if c.ovf then 2 ^ 48 else 0) + (if c.edge then 2 ^ 49 else 0) + (if c.chain then 2 ^ 50 else 0) + (if ctrHigh t n then 2 ^ 51 else 0)

/-- COUNTER_READ: its own snapshot, in a third buffer (R363). -/
def execCounterRead (ch : Nat) (s : State) : Res :=
  .next (mbxRow s ch 0x801 (fun s b gen =>
    let first := fieldAt b 0 2
    let n := fieldAt b 2 2
    noGen s gen (
      if n = 0 ∨ 500 < n ∨ 2048 < first + n then mbxFail s 5 0
      else { s := s, pay := leBytes 8 (nowOf s) ++ ((List.range n).map (fun i => leBytes 8 (ctrWord s.tel.ctrs (first + i)))).flatten })))

/-! ## Snapshots (R360, R361) -/

/-- Triggers are missed. -/
def missTriggers (s : State) (n : Nat) : State :=
  if n = 0 then s
  else countBy (setBit { s with tel := { s.tel with missed := s.tel.missed + n, missedSince := s.tel.missedSince + n } } .telEvent 1) 0x7F1 n

/-- A trigger: a snapshot into the first free buffer, or a miss while both are in use or DRAM is in self-refresh. `trigger` bit 0 periodic, bit 1
manual. -/
def snapshot (s : State) (trigger : Nat) : State :=
  match [0, 1].find? (fun i => !(thas s.tel.bufs i)) with
  | none => missTriggers s 1
  | some i =>
    if s.boot.dramSelfRefresh then missTriggers s 1
    else
      let toDram := flag s .telCtrl 0
      let toPf1 := flag s .telDumpCfg 32
      let d : Dump :=
        { seq := s.tel.dumpSeq, trigger := trigger, period := fld s .telDumpCfg 13 0, time := nowOf s, missed := s.tel.missedSince, ctrs := s.tel.ctrs
          dramLeft := toDram, pf1Left := toPf1 }
      let s := { s with tel := { s.tel with dumpSeq := s.tel.dumpSeq + 1, missedSince := 0
                                            bufs := if toDram || toPf1 then tput s.tel.bufs i d else s.tel.bufs } }
      count s 0x7F0

/-- PERIOD_MS in ns. -/
def dumpPeriod (s : State) : Nat := fld s .telDumpCfg 13 0 * 1000000

/-- SNAPSHOT_PERIODIC: at the next multiple of the period; when shelf time has passed several, one snapshot is taken and the others are missed. -/
def execSnapshotPeriodic (s : State) : Res :=
  .next (
    let p := dumpPeriod s
    if p = 0 then s
    else
      let k := s.tel.lastPeriodic / p
      let s := reach s ((k + 1) * p)
      let now := nowOf s / p
      let s := missTriggers { s with tel := { s.tel with lastPeriodic := now * p } } (now - k - 1)
      snapshot s 1)

/-- A manual snapshot; one that meets a period multiple not yet taken makes one snapshot with it (R361). -/
def snapCmd (s : State) : State :=
  let p := dumpPeriod s
  if p ≠ 0 ∧ s.tel.lastPeriodic / p < nowOf s / p then
    let k := s.tel.lastPeriodic / p
    let now := nowOf s / p
    snapshot (missTriggers { s with tel := { s.tel with lastPeriodic := now * p } } (now - k - 1)) 3
  else snapshot s 2

/-- SNAP: a write of SNAP to TEL_SNAP_CMD. -/
def execSnap (s : State) : Res := .next (snapCmd s)

/-- A write of TEL_DUMP_CFG: multiples of a new period count from here. -/
def dumpCfg (s : State) (period : Nat) (toPf1 : Bool) : State :=
  let s := bankSet s .telDumpCfg (atLo period 0 ||| bitIf toPf1 32)
  { s with tel := { s.tel with lastPeriodic := nowOf s } }

/-- DUMP_CONFIG. -/
def execDumpConfig (ch : Nat) (s : State) : Res :=
  .next (mbxRow s ch 0x802 (fun s b gen =>
    noGen s gen (if 10000 < fieldAt b 0 4 then mbxFail s 5 0 else { s := dumpCfg s (fieldAt b 0 4) (fieldAt b 4 1 % 2 == 1) })))

/-- SAMPLE_CONFIG. -/
def execSampleConfig (ch : Nat) (s : State) : Res :=
  .next (mbxRow s ch 0x803 (fun s b gen =>
    let cn := fieldAt b 0 4
    let fn := fieldAt b 4 4
    noGen s gen (
      if (0 < cn ∧ cn < 16) ∨ 2 ^ 24 ≤ cn ∨ 2 ^ 24 ≤ fn then mbxFail s 5 0
      else { s := setFld (setFld s .telSampleCfg 23 0 cn) .fabSampleCfg 23 0 fn })))

/-! ## Dumps (R362) -/

/-- A dump of Table 15.2. -/
def dumpBytes (d : Dump) : Bytes :=
  let head := pack 60 [(0, 4, 0x54454C44), (4, 1, 4), (5, 1, d.trigger), (6, 2, d.period), (8, 8, d.seq), (16, 8, d.time), (24, 4, d.missed)]
  let body := ((List.range 2048).map (fun n => leBytes 8 (ctrWord d.ctrs n))).flatten
  head ++ leBytes 4 (crc32c (head ++ body)).toNat ++ body

/-- A buffer with a write finished; it is free once both are. -/
def dumpDone (s : State) (i : Nat) (dram : Bool) : State :=
  match tget s.tel.bufs i with
  | none => s
  | some d =>
    let d := if dram then { d with dramLeft := false } else { d with pf1Left := false }
    { s with tel := { s.tel with bufs := if d.dramLeft || d.pf1Left then tput s.tel.bufs i d else tdel s.tel.bufs i } }

/-- DUMP_WRITE_COMPLETE: the dump is in its slot of the DRAM dump ring; with TEL_CTRL.ENABLE cleared since, it is not written (R362, R367). -/
def execDumpWriteComplete (buffer : Nat) (s : State) : Res :=
  .next (
    match tget s.tel.bufs buffer with
    | none => s
    | some d =>
      if !d.dramLeft || s.boot.dramSelfRefresh then s
      else if !(flag s .telCtrl 0) then dumpDone s buffer true
      else dumpDone (setBit (store s ((bankGet s .telAreaBase).toNat + d.seq % 256 * 20480) (dumpBytes d)) .telEvent 0) buffer true)

/-- PF1_DUMP_WRITE: the oldest dump for PF1 goes into the host ring, TAIL rises and vector 0 is sent; with no free slot it is dropped and vector 1 sent;
with EN or Master Enable 0 it does not enter the ring (R350, R352). -/
def execPf1DumpWrite (s : State) : Res :=
  .next (
    match (sortBy (fun a b => decide (a.2.seq ≤ b.2.seq)) (s.tel.bufs.filter (fun e => e.2.pf1Left))).head? with
    | none => s
    | some (i, d) =>
      if !s.sep.ringEn then dumpDone s i false
      else if !(fnLive s.sep.pf1) then count (dumpDone s i false) 0x7C4
      else if (s.sep.tail + 2 ^ 32 - s.sep.head) % 2 ^ 32 < s.sep.slots then
        let s := emit s (.hostWrite 1 (s.sep.ringBase.toNat + s.sep.tail % s.sep.slots * 20480) (dumpBytes d) false)
        let s := { s with sep := { s.sep with tail := (s.sep.tail + 1) % 2 ^ 32 } }
        msixVector (count (dumpDone s i false) 0x7C3) 1 0
      else
        let s := { s with sep := { s.sep with dropped := min (2 ^ 32 - 1) (s.sep.dropped + 1) } }
        msixVector (count (dumpDone s i false) 0x7C4) 1 1)

/-! ## Frame samples (R192, R366) -/

/-- A frame sample record: Table 6.7 and the frame's first 128 bytes. -/
def frameSampleBytes (r : FrameSample) : Bytes :=
  let h := pack 28 [(0, 8, r.time), (8, 1, r.port), (9, 1, if r.egress then 1 else 0), (10, 2, r.len), (12, 1, r.disposition), (13, 1, r.captured.length),
    (16, 4, r.cmd), (20, 4, r.seq), (24, 4, r.sampleSeq)]
  h ++ leBytes 4 (crc32c h).toNat ++ padTo 128 r.captured

/-- FRAME_SAMPLE_EXPORT: the control complex takes the oldest record that port 158 holds and writes it into the frame sample ring. -/
def execFrameSampleExport (s : State) : Res :=
  .next (
    match s.fab.samples with
    | [] => s
    | r :: rest =>
      let s := { s with fab := { s.fab with samples := rest } }
      if flag s .telCtrl 0 && !s.boot.dramSelfRefresh then
        store s ((bankGet s .telAreaBase).toNat + 0xC00000 + r.sampleSeq % 65536 * 160) (frameSampleBytes r)
      else s)

end Sys2Proof.Machine
end

