-- ==== Sys2Proof/Machine/RegRead.lean ====
section
/-! DEFINITION. What a read of a register returns (Tables 3.11 to 17.4): stored bits, and read-only fields computed from the state. -/

namespace Sys2Proof.Machine

/-- A count of at most `top` in bits from `lo` up. -/
def capAt (v top lo : Nat) : Word := atLo (min v top) lo

/-! ## Fabric and Parity Units (Tables 6.9, 6.15 to 6.19) -/

/-- FAB_PORT_STATUS_p; RATE in whole GB/s. -/
def fabPortStatus (s : State) (p : Nat) : Word :=
  atLo (portClass p) 61 ||| capAt (portRate2 s p / 2) 1023 51 ||| capAt (occupancy s p) (2 ^ 20 - 1) 21 ||| capAt (brimUse s p) (2 ^ 20 - 1) 1
    ||| bitIf (!(portUp s p)) 0

/-- FAB_STATUS: free Brim cells and gather-window cells in use, 16 to a page. -/
def fabStatus (s : State) : Word := capAt (brimFree s) (2 ^ 20 - 1) 32 ||| capAt (16 * pagesUsed s) (2 ^ 20 - 1) 0

/-- PAR_STATUS. -/
def parStatus (s : State) : Word :=
  (List.range 4).foldl (fun w u => w ||| atLo (s.par.accs.filter (fun e => e.1 / 512 == u)).length (10 * u)) 0#64

/-- Mode code of Table 6.6. -/
def accModeCode (m : AccMode) : Nat :=
  match m with
  | .full => 0
  | .delta => 1
  | .solve => 2

/-- PAR_ACC_STATE of the selected accumulator. -/
def parAccState (s : State) : Word :=
  match tget s.par.accs (fld s .parAccSel 10 0) with
  | none => 0
  | some a =>
    bitIf true 63 ||| bitIf a.poisoned 62 ||| atLo (accModeCode a.bind.mode) 59 ||| capAt a.seen (2 ^ 20 - 1) 20 ||| capAt a.expected (2 ^ 20 - 1) 0

/-! ## Network and transport (Tables 7.14 to 7.24) -/

/-- A byte with one bit per priority of a port. -/
def prioBits (p : NetPort) (f : PfcPrio → Bool) (lo : Nat) : Word :=
  (List.range 8).foldl (fun w i => w ||| bitIf (f ((tget p.prios i).getD {})) (lo + i)) 0#64

/-- Speed code of a port's link. -/
def speedCode (s : State) (lane : Nat) : Nat :=
  let g := portGBs s lane
  if !(netPortAt s lane).link then 0 else if 200 ≤ g then 4 else if 100 ≤ g then 3 else if 50 ≤ g then 2 else 1

/-- NET_PORT_STATUS_l; 0 where the lane starts no port. -/
def netPortStatus (s : State) (lane : Nat) : Word :=
  if portWidth s lane = 0 then 0
  else
    let p := netPortAt s lane
    prioBits p (fun x => x.pausedFrom.isSome && decide (nowOf s < x.pausedUntil)) 56 ||| prioBits p (fun x => x.xoffFrom.isSome) 48
      ||| atLo (portWidth s lane) 44 ||| atLo (speedCode s lane) 40 ||| prioBits p (fun x => x.egressWdAt.isSome) 32
      ||| prioBits p (fun x => x.ingressWdAt.isSome) 24 ||| bitIf p.fecLock 3 ||| bitIf p.pcsLock 2 ||| bitIf p.anDone 1 ||| bitIf p.link 0

/-- NET_PTP_TXTS_TAG after the read has popped. -/
def ptpTag (s : State) : Word := bitIf s.net.popValid 63 ||| atLo (s.net.popPort % 64) 56 ||| atLo (s.net.popTag % 65536) 0

/-- QP_STATUS. -/
def qpStatus (s : State) : Word :=
  atLo (s.rdma.qps.filter (fun e => e.2.state != .reset)).length 47 ||| capAt (pinnedCount s) 8191 34 ||| capAt (reseqUsed s) (2 ^ 17 - 1) 17
    ||| capAt (cachedCount s) (2 ^ 14 - 1) 0

/-- QP_REVOKE_STATUS. -/
def qpRevokeStatus (s : State) : Word := atLo (s.rdma.lastRevokeKey % 2 ^ 32) 32 ||| bitIf s.rdma.revokeTimedOut 1 ||| bitIf (revokeBusy s) 0

/-- State code of Table 7.5. -/
def qpCode (q : QpState) : Nat :=
  match q with
  | .reset => 0
  | .init => 1
  | .rtr => 2
  | .rts => 3
  | .sqd => 4
  | .error => 5

/-- QP_CTX_STATE of the selected queue pair. -/
def qpCtxState (s : State) : Word :=
  match qpAt s (fld s .qpCtxSel 15 0) with
  | none => 0
  | some q =>
    atLo (qpCode q.state) 61 ||| bitIf q.cached 60 ||| bitIf (q.cached && qpPinned q) 59 ||| bitIf q.sprayed 58 ||| capAt (q.rxPaths - 1) 7 55
      ||| atLo (q.epsn % 2 ^ 24) 24 ||| atLo (q.nextPsn % 2 ^ 24) 0

/-! ## Host queues (Tables 8.18, 8.20) -/

/-- HQ_HOLD. -/
def hqHoldWord (s : State) : Word :=
  let h := s.hq.hold
  let ms := if h.active then (nowOf s - h.start) / 1000000 else h.lastMs
  capAt ms 65535 32 ||| atLo (fld s .hqHold 31 16) 16 ||| bitIf h.exceeded 1 ||| bitIf h.active 0

/-- HQ_STATUS. -/
def hqStatus (s : State) : Word :=
  capAt s.hq.cmds.length (2 ^ 19 - 1) 32 ||| capAt s.hq.conns.length 2047 17
    ||| capAt ((s.hq.conns.map (fun e => e.2.queues.length)).sum) (2 ^ 17 - 1) 0

/-- STATE of a queue (Table 8.20). -/
def queueCode (s : State) (k : Conn) (u : Queue) : Nat :=
  if u.lost then 5 else if k.resetCid.isSome then 4 else if u.frozen then 2 else if s.hq.hold.active then 3 else 1

/-- The selected queue. -/
def selQueue (s : State) : Option (Conn × Queue) :=
  match connAt s (fld s .hqQueueSel 25 16), queueAt s (fld s .hqQueueSel 25 16) (fld s .hqQueueSel 5 0) with
  | some k, some u => some (k, u)
  | _, _ => none

/-- HQ_QUEUE_STATE. -/
def hqQueueState (s : State) : Word :=
  match selQueue s with
  | none => 0
  | some (k, u) =>
    atLo (queueCode s k u) 61 ||| capAt (queueCmds s (fld s .hqQueueSel 25 16) (fld s .hqQueueSel 5 0)).length 8191 48 ||| capAt u.ring.length 65535 32
      ||| capAt u.entries 65535 16 ||| atLo (if k.nvme then 0 else k.version % 256) 8 ||| capAt u.icd 255 0

/-- HQ_QUEUE_SEQ. -/
def hqQueueSeq (s : State) : Word :=
  match selQueue s with
  | none => 0
  | some (_, u) => atLo (u.started % 2 ^ 32) 32 ||| atLo (u.subSeq % 2 ^ 32) 0

/-! ## Map and Map Cache (Tables 5.11 to 5.18) -/

/-- MAP_STATUS. -/
def mapStatus (s : State) : Word :=
  capAt (s.volumes.filter (fun e => e.2.ckpt.isSome)).length 15 32 ||| capAt ((s.volumes.map (fun e => dirtyNodes e.2)).sum) (2 ^ 31 - 1) 1 ||| bitIf (s.pools.any (fun e => e.2.areaStall)) 0

/-- MC_STATUS. -/
def mcStatus (s : State) : Word :=
  atLo (s.mc.cuff.filter (fun e => e.2.valid)).length 32 ||| capAt ((s.mc.wtq.map (fun e => e.2.length)).foldl max 0) 255 24
    ||| bitIf (!(flag s .mcCtrl 0) && s.mc.wtq.all (fun e => e.2.isEmpty)) 0

/-- MC_RANGE_STATUS. -/
def mcRangeStatus (s : State) : Word :=
  atLo (s.mc.lastTag % 256) 24 ||| atLo (((s.mc.rangeQ.head?).map (·.tag)).getD 0 % 256) 16 ||| capAt (s.mc.rangeQ.length - 1) 7 1
    ||| bitIf (!s.mc.rangeQ.isEmpty) 0

/-- MC_RANGE_COUNT. -/
def mcRangeCount (s : State) : Word := capAt s.mc.skipped 65535 48 ||| capAt s.mc.dropped 65535 32 ||| capAt s.mc.affected (2 ^ 32 - 1) 0

/-- MC_ECC_LOG. -/
def mcEccLog (s : State) : Word :=
  bitIf s.mc.eccValid 63 ||| atLo (s.mc.eccKind % 4) 56 ||| atLo (s.mc.eccSyndrome % 256) 48 ||| atLo (s.mc.eccLine % 2 ^ 35) 6

/-- MC_ERR_COUNT. -/
def mcErrCount (s : State) : Word := capAt s.mc.lockRefused 65535 48 ||| capAt s.mc.tagParity 65535 32 ||| capAt s.mc.uncorrected 65535 16 ||| capAt s.mc.corrected 65535 0

/-! ## Hatbox (Tables 3.12 to 3.18) -/

/-- One bit per ring. -/
def ringBits (s : State) (f : Ring → Bool) (lo : Nat) : Word := (List.range 4).foldl (fun w r => w ||| bitIf (f (ringAt s r)) (lo + r)) 0#64

/-- HBX_STATUS. -/
def hbxStatus (s : State) : Word :=
  capAt s.hbx.spareFree 255 32 ||| ringBits s (·.stalled) 12 ||| ringBits s (·.lagStalled) 8 ||| ringBits s (fun r => freeBelow r (fld s .hbxRingCfg 7 0)) 4
    ||| bitIf (s.hbx.rings.any (fun e => !e.2.remapBusy.isEmpty)) 2 ||| bitIf s.hbx.driveJournal 1 ||| bitIf s.hbx.mramOk 0

/-- HBX_SELFTEST. -/
def hbxSelftest (s : State) : Word := capAt s.hbx.selftestFailed 255 8 ||| atLo (s.hbx.selftestResult % 4) 2 ||| bitIf s.hbx.selftestBusy 1

/-- Writes of the lines of a physical segment. -/
def segLines (h : Hatbox) (g : Nat) : List Nat := (h.lineWrites.filter (fun e => e.1 / 16384 == g)).map (·.2)

/-- HBX_WEAR_DATA of the selected segment: its state, the physical segment that holds it, and the mean writes of that segment's lines. -/
def hbxWear (s : State) : Word :=
  let g := fld s .hbxWearSel 8 0
  let h := s.hbx
  let st := if h.segFailed.contains g then (if thas h.remap g then 2 else 3) else if (spareSegments h).contains g then 1 else 0
  atLo st 60 ||| atLo (physOf h g % 512) 48 ||| capAt ((segLines h (physOf h g)).sum / 16384 + (tget h.segWrites (physOf h g)).getD 0) (2 ^ 48 - 1) 0

/-- HBX_POOL_COPIED_n. -/
def ringCopied (s : State) (r : Nat) : Nat := ((poolOfRing s r).map (fun e => e.2.copy.copied)).getD 0

/-! ## Movers (Tables 11.6 to 11.9) -/

/-- MOV_STATUS. -/
def movStatus (s : State) : Word :=
  atLo (s.mov.filter (fun e => e.2.state == .halted)).length 32 ||| atLo (s.mov.filter (fun e => e.2.state == .running)).length 0

/-- MOV_CH_CTRL_c. -/
def movChCtrl (s : State) (c : Nat) : Word := atLo (movAt s c).prio 8 ||| bitIf (movAt s c).arm 3

/-- MOV_CH_STATUS_c. -/
def movChStatus (s : State) (c : Nat) : Word :=
  let h := movAt s c
  let st := match h.state with
    | .idle => 0
    | .running => 1
    | .halted => 2
  atLo st 62 ||| atLo (h.err % 16) 58 ||| bitIf h.shadowBusy 57 ||| bitIf h.fromShadow 56 ||| atLo (h.completed % 65536) 32 ||| atLo (h.lastTag % 65536) 16

/-- MOV_SHD_CTRL_c. -/
def movShdCtrl (s : State) (c : Nat) : Word :=
  let d := (movAt s c).shadow
  atLo (d.length % 2 ^ 32) 32 ||| atLo (d.tag % 65536) 16 ||| atLo (d.flags % 65536) 0

/-- Leading bytes of the current or halted descriptor written. -/
def movDone (s : State) (c : Nat) : Nat :=
  let h := movAt s c
  if h.state = .running then ((h.jobs.head?).map (·.written)).getD h.bytesDone else h.bytesDone

/-! ## Drive ports (Table 17.3) -/

/-- DRV_PORT_STATUS_d. -/
def drvPortStatus (s : State) (slot : Nat) : Word :=
  let d := driveAt s slot
  (if d.linkUp then atLo (d.gen % 16) 12 ||| atLo (d.width % 16) 8 else 0#64) ||| bitIf d.reversed 7 ||| bitIf d.polInv 6 ||| bitIf d.degraded 5
    ||| bitIf d.linkFault 4 ||| bitIf d.prsnt 3 ||| bitIf d.pwren 2 ||| bitIf d.perst 1 ||| bitIf d.linkUp 0

/-! ## Endpoint (Tables 14.6, 14.8) -/

/-- SEP_STATUS. -/
def sepStatus (s : State) : Word :=
  let p := s.sep
  atLo (p.speed % 16) 28 ||| atLo (p.width % 16) 24 ||| bitIf p.pf1.d3 9 ||| bitIf p.pf0.d3 8 ||| bitIf p.pf1.flr 7 ||| bitIf p.pf0.flr 6
    ||| bitIf p.pf1.msix 5 ||| bitIf p.pf0.msix 4 ||| bitIf p.pf0.msi 3 ||| bitIf p.pf1.me 2 ||| bitIf p.pf0.me 1 ||| bitIf p.linkUp 0

/-- SEP_WIN_ACT_CTRL_e. -/
def winActCtrl (s : State) (e : Nat) : Word := atLo (winAt s e).version 56 ||| ((winAt s e).ctrl &&& 0xFFFFFFFFFFFFFF#64)

/-! ## Telemetry (Tables 15.6, 15.8) -/

/-- TEL_STATUS. -/
def telStatus (s : State) : Word :=
  atLo (s.tel.dumpSeq % 2 ^ 32) 32 ||| capAt s.tel.missed 65535 16 ||| bitIf (thas s.tel.bufs 1) 1 ||| bitIf (thas s.tel.bufs 0) 0

/-- TEL_CTR_CFG_n. -/
def telCtrCfg (s : State) (n : Nat) : Word :=
  let c := ctrOf s.tel.ctrs n
  bitIf c.ovf 8 ||| bitIf c.chain 1 ||| bitIf c.edge 0

/-! ## Gloves, domains, clocks (Tables 12.6 to 12.9, 13.9, 13.10) -/

/-- GLV_STATUS. -/
def glvStatus (s : State) : Word :=
  let b := s.stby
  atLo (holderOf s) 18 ||| atLo (modeOf s) 16 ||| bitIf (linkOk s) 15 ||| bitIf b.b.alive 13 ||| bitIf b.a.alive 12 ||| atLo (b.feedB.state % 16) 8
    ||| atLo (b.feedA.state % 16) 4 ||| bitIf b.feedB.fb 3 ||| bitIf b.outB 2 ||| bitIf b.feedA.fb 1 ||| bitIf b.outA 0

/-- GLV_FEED_x. -/
def glvFeed (s : State) (x : Glove) : Word :=
  let f := feedAt s x
  capAt (if fld s .glvImonCfg 15 0 = 0 then 0 else f.current) 65535 48 ||| atLo (voltField (gloveAt s (otherG x)).alive f.vPeer) 32
    ||| atLo (voltField (gloveAt s x).alive f.vOwn) 16 ||| atLo (f.state % 16) 12

/-- CLK_STATUS. -/
def clkStatus (s : State) : Word :=
  let c := s.clk
  atLo c.ddrLock.toNat 40 ||| atLo c.netLock.toNat 32 ||| atLo c.drvLock.toNat 16 ||| bitIf c.sepLock 5 ||| bitIf c.timeLock 4 ||| bitIf c.hclkLock 3
    ||| bitIf c.kclkLock 2 ||| bitIf c.cclkLock 1 ||| bitIf (c.ref156 && c.ref100) 0

/-- CLK_RESET_CAUSE. -/
def clkResetCause (s : State) : Word :=
  let b := s.boot
  capAt b.warmStarts 65535 48 ||| atLo (b.halt % 256) 40 ||| capAt b.attempts 255 32 ||| atLo (b.slot % 4) 24 ||| atLo (b.prevCause % 256) 8
    ||| atLo (b.cause % 256) 0

/-- Seconds the boot watchdog has left, in whole seconds begun. -/
def wdogRemain (s : State) : Nat :=
  if s.boot.wdogDone then 0
  else if s.boot.wdogRunning then (wdogLimit s - (nowOf s - s.boot.wdogFrom) + 999999999) / 1000000000
  else fld s .clkBootWdog 15 0

/-! ## Control complex (Tables 10.11 to 10.16) -/

/-- CTL_STATUS. -/
def ctlStatus (s : State) : Word :=
  (List.range 8).foldl (fun w c => w ||| bitIf ((chanAt s c).state != .idle) (16 + c)) 0#64 ||| atLo (s.ctl.running % 4) 10 ||| bitIf s.ctl.safeMode 9
    ||| bitIf s.ctl.activation.isSome 8 ||| atLo s.ctl.pairsUp.toNat 0

/-- CTL_PAIR_STATUS. -/
def ctlPairStatus (s : State) : Word := atLo s.ctl.halted.toNat 32 ||| capAt s.ctl.mismatch1 65535 16 ||| capAt s.ctl.mismatch0 65535 0

/-- SYS_DECODE_LOG. -/
def decodeLog (s : State) : Word := bitIf s.decValid 63 ||| capAt s.decCount 127 56 ||| atLo (s.decSrc % 256) 48 ||| atLo (s.decAddr % 2 ^ 48) 0

/-! ## Reads -/

/-- What a read of a register returns, in the state that the read leaves. -/
def regView (s : State) (r : Reg) : Word :=
  match r with
  | .fabStatus => fabStatus s
  | .fabPortStatus p => fabPortStatus s p
  | .netPtpTxtsTag => ptpTag s
  | .netPtpTxtsTime => atLo s.net.popTime 0
  | .netPortCtrl l => if portWidth s l = 0 then 0 else bankGet s r
  | .netPortStatus l => netPortStatus s l
  | .netPortMac l => if portWidth s l = 0 then 0 else bankGet s r
  | .qpStatus => qpStatus s
  | .qpRevokeStatus => qpRevokeStatus s
  | .qpCtxState => qpCtxState s
  | .hqHold => hqHoldWord s
  | .hqStatus => hqStatus s
  | .hqQueueState => hqQueueState s
  | .hqQueueSeq => hqQueueSeq s
  | .mapStatus => mapStatus s
  | .mcStatus => mcStatus s
  | .mcRangeStatus => mcRangeStatus s
  | .mcRangeCount => mcRangeCount s
  | .mcEccLog => mcEccLog s
  | .mcErrCount => mcErrCount s
  | .hbxStatus => hbxStatus s
  | .hbxSelftest => hbxSelftest s
  | .hbxWearData => hbxWear s
  | .hbxPoolHead n => atLo (ringAt s n).head 0
  | .hbxPoolTail n => atLo (ringAt s n).tail 0
  | .hbxPoolCopied n => atLo (ringCopied s n) 0
  | .hbxPoolEpoch n => atLo ((ringAt s n).epoch % 2 ^ 32) 0
  | .movStatus => movStatus s
  | .movShdSrc c => atLo (movAt s c).shadow.src 0
  | .movShdDst c => atLo (movAt s c).shadow.dst 0
  | .movShdCtrl c => movShdCtrl s c
  | .movShdNext c => atLo (movAt s c).shadow.next 0
  | .movChCtrl c => movChCtrl s c
  | .movChStatus c => movChStatus s c
  | .movChCur c => atLo ((movAt s c).cur % 2 ^ 48) 0
  | .movChCrc c => (movAt s c).crcFinal
  | .movChProgress c => capAt (movDone s c) (2 ^ 32 - 1) 0
  | .parStatus => parStatus s
  | .parAccState => parAccState s
  | .drvPortStatus d => drvPortStatus s d
  | .sepStatus => sepStatus s
  | .sepWinActBase e => (winAt s e).base
  | .sepWinActCtrl e => winActCtrl s e
  | .telStatus => telStatus s
  | .telCtrCfg n => telCtrCfg s n
  | .telCtr n => atLo ((ctrOf s.tel.ctrs n).value % 2 ^ 48) 0
  | .glvStatus => glvStatus s
  | .glvFeedA => glvFeed s .a
  | .glvFeedB => glvFeed s .b
  | .glvSelftest => atLo (s.stby.testCycles % 2 ^ 32) 32 ||| atLo s.stby.b.failed.toNat 16 ||| atLo s.stby.a.failed.toNat 0
  | .glvOsc => capAt s.stby.b.oscKhz 65535 16 ||| capAt s.stby.a.oscKhz 65535 0
  | .pwrDomainState => atLo s.dom.on.toNat 0
  | .pwrDomainBusy => atLo s.dom.busy.toNat 0
  | .clkStatus => clkStatus s
  | .clkResetCause => clkResetCause s
  | .clkBootWdog => capAt (wdogRemain s) 65535 32 ||| bankGet s r
  | .clkTime => atLo (nowOf s) 0
  | .ctlStatus => ctlStatus s
  | .ctlMctpCfg => atLo Config.ianaFuses.toNat 32 ||| atLo (s.ctl.eid % 256) 0
  | .ctlRollback => atLo (rollbackOf s % 2 ^ 32) 0
  | .ctlPairStatus => ctlPairStatus s
  | .ctlMbxState c => mbxStateWord s c
  | .sysId => atLo Config.sysIdFuses.toNat 8 ||| 4#64
  | .sysUidLo => Config.uidLo
  | .sysUidHi => Config.uidHi
  | .sysKeyRevoke => atLo Config.keyRevoked.toNat 0
  | .sysDecodeLog => decodeLog s
  | _ => bankGet s r

/-- A read of a register; one of NET_PTP_TXTS_TAG pops the transmit stamp FIFO (Table 7.14). -/
def regRead (s : State) (r : Reg) : State × Word :=
  let s := if r = .netPtpTxtsTag then popStamp s else s
  (s, regView s r)

/-! ## Accesses by address (R5, R387, R388) -/

/-- The mailbox buffer that holds an access: channel, whether the response buffer, offset (R5, R271). -/
def mbxBuffer (addr len : Nat) : Option (Nat × Bool × Nat) :=
  if 0xF0000E80000 ≤ addr ∧ addr < 0xF0000E90000 then
    let o := (addr - 0xF0000E80000) % 0x2000
    if o % 0x1000 + len ≤ 0x1000 then some ((addr - 0xF0000E80000) / 0x2000, decide (0x1000 ≤ o), o % 0x1000) else none
  else none

/-- Whether an access lies wholly in DRAM that is installed, in the cell buffer, or in the Map Cache diagnostic window, in that order 0, 1, 2; 3 the
Hatbox MRAM; none otherwise. -/
def memRegion (addr len : Nat) : Option Nat :=
  if addr + len ≤ Config.installedDramGib * 2 ^ 30 ∧ addr + len ≤ 2 ^ 41 then some 0
  else if 0x80000000000 ≤ addr ∧ addr + len ≤ 0x8000C000000 then some 1
  else if 0xC0000000000 ≤ addr ∧ addr + len ≤ 0xC0040000000 then some 2
  else if 0xA0000000000 ≤ addr ∧ addr + len ≤ 0xA0020000000 then some 3
  else none

/-- A read of the internal address map by a master at a fabric port: mailbox buffers and memory in any size, registers as aligned 64-bit quantities;
anything else reads as 0 and is logged (R5, R388). -/
def busReads (s : State) (src addr len : Nat) : State × Bytes :=
  match mbxBuffer addr len, memRegion addr len, regOfAddr addr with
  | some (c, resp, o), _, _ =>
    let h := chanAt s c
    (s, sparseRead (if resp then h.respBuf else h.reqBuf) o len)
  | none, some 2, _ => if len = 8 ∧ addr % 8 = 0 then (s, leBytes 8 (diagRead s (addr - 0xC0000000000)).toNat) else winFetch s addr len
  | none, some 3, _ => mramRead s (addr - 0xA0000000000) len
  | none, some _, _ => (s, memReads s.mem addr len)
  | none, none, some r =>
    if len = 8 then
      let x := regRead s r
      (x.1, leBytes 8 x.2.toNat)
    else (undecoded s src addr, zeros len)
  | none, none, none => (undecoded s src addr, zeros len)

end Sys2Proof.Machine
end

