-- ==== Sys2Proof/Machine/RegWrite.lean ====
section
/-! DEFINITION. A write of a register (R6, R7): range and write conditions of the register tables, the stored bits, and the effects of the registers that
have any; accesses by address (R5, R387, R388); REG_READ, REG_WRITE and SELF_TEST (R277, R281). -/

namespace Sys2Proof.Machine

/-! ## Conditions -/

/-- A number from `lo` to `hi`. -/
def within (v lo hi : Nat) : Bool := decide (lo ≤ v ∧ v ≤ hi)

/-- A field whose condition for writing is `c`: a write that keeps its value always passes (DEDUCED). -/
def keepOr (s : State) (r : Reg) (v : Word) (hi lo : Nat) (c : Bool) : Bool := fld s r hi lo == bits v hi lo || c

/-- Whether the Brim keeps 65,536 cells (R181). -/
def brimKept (s : State) (guaranteed gw : Nat) : Bool := decide (guaranteed + gw + 65536 ≤ bufferCells s.dom.on)

/-- Widths and alignment of a PORT_START (R195): each port a power of two of lanes, at a multiple of its width, and none of one lane at 100 Gb/s. -/
def portStartOk (start : Nat) (slow : Bool) : Bool :=
  let at_ (o : Nat) : Bool := start / 2 ^ o % 2 == 1
  at_ 0 && (List.range 8).all (fun o =>
    if at_ o then
      let w := ((List.range (8 - o)).find? (fun i => i != 0 && at_ (o + i))).getD (8 - o)
      [1, 2, 4, 8].contains w && o % w == 0 && !(slow && w == 1)
    else true)

/-- GiB areas lie within installed DRAM. -/
def areaFits (baseGib gib : Nat) : Bool := decide (baseGib + gib ≤ Config.installedDramGib)

/-- Range and condition checks of the register tables for a write of `v`. -/
def cfgOk (s : State) (r : Reg) (v : Word) : Bool :=
  match r with
  | .fabBrimCfg => (List.range 5).all (fun i => decide (bits v (4 * i + 3) (4 * i) ≤ 10))
  | .fabGwCfg => keepOr s r v 19 0 (!(flag s .fabCtrl 0) && brimKept s (guaranteeSum s) (bits v 19 0))
  | .fabWrrCfg => (List.range 4).all (fun i => decide (1 ≤ bits v (8 * i + 7) (8 * i)))
  | .fabPortCtrl p =>
    within (bits v 31 16) 1 4096 && keepOr s r v 31 16 (!(portUp s p) && brimKept s (guaranteeSum s - guarantee s p + 16 * bits v 31 16) (fld s .fabGwCfg 19 0))
  | .parTimeoutCfg => within (bits v 15 0) 1 1000
  | .netPfcCfg => decide (bits v 15 0 < bits v 31 16) && decide (bits v 31 16 ≤ 4096)
  | .netWdogCfg => within (bits v 47 32) 100 60000
  | .netGroupCfg g =>
    portStartOk (bits v 7 0) (bit v 8) && keepOr s r v 8 0 ((List.range 8).all (fun i => portWidth s (8 * g + i) == 0 || !(flag s (.netPortCtrl (8 * g + i)) 0)))
  | .netPortCtrl _ => within (bits v 63 50) 1518 9216
  | .qpCtrl => within (bits v 11 8) 1 8
  | .qpCtxBase => keepOr s r v 40 24 (!(flag s .qpCtrl 0))
  | .qpAckCfg => within (bits v 31 27) 8 20 && within (bits v 23 16) 1 64 && decide (100 ≤ bits v 15 0)
  | .qpCcCfg =>
    decide (1 ≤ bits v 63 56) && decide (1 ≤ bits v 55 48) && within (bits v 47 32) 1 2000 && within (bits v 31 16) (bits v 15 0) 2000 && decide (1 ≤ bits v 15 0)
  | .qpRegionCfg => within (bits v 31 16) 1 10000 && within (bits v 15 0) 1 (windowPages s)
  | .hqCtrl => [0x10, 0x20, 0x30, 0x31, 0x32, 0x33].contains (bits v 15 8) && keepOr s r v 0 0 (!(bit v 0) || decide (fld s .hqAreaSize 8 0 ≠ 0))
  | .hqAreaBase => keepOr s r v 40 30 (!(flag s .hqCtrl 0))
  | .hqAreaSize => within (bits v 8 0) 1 256 && areaFits (fld s .hqAreaBase 40 30) (bits v 8 0) && keepOr s r v 8 0 (!(flag s .hqCtrl 0))
  | .hqLimitCfg =>
    decide (1 ≤ bits v 63 56) && within (bits v 46 32) 1 16384 && within (bits v 22 16) 2 64 && decide (bits v 15 13 ≤ 4) && within (bits v 12 0) 16 4096
  | .hqHold => within (bits v 31 16) 1 1500
  | .mapCtrl => keepOr s r v 0 0 (!(bit v 0) || decide (fld s .mapAreaSize 10 0 ≠ 0))
  | .mapAreaSize => within (bits v 10 0) 8 1536 && areaFits (fld s .mapAreaBase 40 30) (bits v 10 0) && keepOr s r v 10 0 (!(flag s .mapCtrl 0))
  | .mapCkptCfg => within (bits v 51 48) 1 8 && within (bits v 47 32) 100 60000 && decide (1024 ≤ bits v 31 0)
  | .mcCtrl => keepOr s r v 7 4 (!(flag s .mcCtrl 0)) && keepOr s r v 1 1 (!(flag s .mcCtrl 0))
  | .mcRangeLines =>
    let lo := fld s .mapAreaBase 40 30 * 2 ^ 24
    let a := fld s .mcRangeBase 40 6
    decide (1 ≤ bits v 31 0) && decide (lo ≤ a) && decide (a + bits v 31 0 ≤ lo + fld s .mapAreaSize 10 0 * 2 ^ 24)
  | .mcRangeCmd => decide (bits v 2 0 ≤ 5)
  | .hbxLagCfg => within (bits v 59 48) 1 500 && decide (bits v 31 16 < bits v 15 0) && decide (bits v 15 0 < bits v 47 32) && decide (bits v 47 32 ≤ 2000)
  | .hbxRingCfg => decide (bits v 15 8 < bits v 7 0)
  | .hbxPoolHead n => !(flag s .hbxCtrl (4 + n))
  | .movCtrl =>
    within (bits v 23 8) 1 10000 && (List.range 2).all (fun h => keepOr s r v (1 + h) (1 + h) (s.mov.all (fun e => movHalf e.1 != h || e.2.state != .running)))
  | .movChCtrl _ => !(bit v 3 && bit v 4)
  | .sepCtrl => keepOr s r v 2 2 (!(flag s .sepCtrl 1))
  | .sepWinShdCtrl _ => decide (bits v 47 40 ≤ 5)
  | .telAreaBase => keepOr s r v 40 25 (!(flag s .telCtrl 0))
  | .telDumpCfg => decide (bits v 13 0 ≤ 10000)
  | .telSampleCfg => decide (bits v 23 0 = 0 ∨ 16 ≤ bits v 23 0)
  | .telCtrCfg n => !(bit v 1) || (n != 0x7FF && !(ctrOf s.tel.ctrs (n + 1)).chain && !(n != 0 && (ctrOf s.tel.ctrs (n - 1)).chain))
  | .glvFeedCfg =>
    decide (3000 ≤ bits v 63 48) && decide (bits v 63 48 < bits v 31 16) && within (bits v 47 32) 5500 7200 && within (bits v 31 16) 3600 5400
      && decide (1 ≤ bits v 15 8) && decide (10 ≤ bits v 7 0)
  | .clkBootWdog => within (bits v 15 0) 60 3600
  | .ctlInbandCfg => decide (1024 ≤ bits v 15 0) && bits v 15 0 != 4791
  | _ => true

/-! ## Effects -/

/-- The stored bits after a write. -/
def putStored (s : State) (r : Reg) (v sets clears : Word) : State :=
  let i := regInfo r
  if i.rw ||| i.w1c ||| i.w1s = 0 then s else bankSet s r (accessWrite i (bankGet s r) v sets clears)

/-- Lanes whose link may no longer be up lose it (Tables 7.10, 7.17). -/
def dropLinks (s : State) (lanes : List Nat) : State := forAll lanes (fun s l => if portWidth s l = 0 ∨ linkAllowed s l = true then s else netLink s l false) s

/-- A signed field of 32 bits. -/
def signed32 (n : Nat) : Int := if n < 2 ^ 31 then n else (n : Int) - 2 ^ 32

/-- MOV_CH_CTRL_c: PRIORITY, STOP, CLEAR, ARM, DISARM. -/
def movChWrite (s : State) (c : Nat) (v : Word) : State :=
  let s := setMov s c (fun ch => { ch with prio := bits v 9 8 })
  let s := if bit v 1 then stopCh s c else s
  let s := if bit v 2 then clearCh s c else s
  let s := if bit v 3 then armCh s c false else s
  if bit v 4 then disarmCh s c else s

/-- TEL_CTR_CFG_n: EDGE and CHAIN are written, OVF is cleared by 1. -/
def ctrCfgWrite (s : State) (n : Nat) (v sets : Word) : State :=
  let c := ctrOf s.tel.ctrs n
  { s with tel := { s.tel with ctrs := tput s.tel.ctrs n { c with edge := bit v 0, chain := bit v 1, ovf := (c.ovf && !(bit v 8)) || bit sets 8 } } }

/-- The effect of a write that passes its checks. -/
def regPut (s : State) (r : Reg) (v sets clears : Word) : State :=
  let put (s : State) : State := putStored s r v sets clears
  match r with
  | .fabPortCtrl p => put (if portUp s p && !(bit v 0) then fabPortDown s p else s)
  | .netCtrl => dropLinks (put s) (List.range 64)
  | .netPortCtrl l => if portWidth s l = 0 then s else dropLinks (put s) [l]
  | .netPortMac l => if portWidth s l = 0 then s else put s
  | .netGidSel => gidSelect s v
  | .netGidAttr => gidCommit s v
  | .qpRevokeCmd => if bit v 32 then revokeStart s (bits v 31 0) else s
  | .hqEs => if bits v 2 0 = esLevel s then s else esRaise s (bits v 2 0)
  | .hqHold =>
    let s := put s
    let s := if bit v 4 then releaseHold s else s
    if bit v 3 then startHold s else s
  | .mcCtrl => put (if flag s .mcCtrl 0 && !(bit v 0) then mcDisable s else s)
  | .mcRangeCmd => rangeCmd s (bits v 2 0) (bits v 23 16) (bit v 8)
  | .mcEccLog => { s with mc := { s.mc with eccValid := (s.mc.eccValid && !(bit v 63)) || bit sets 63 } }
  | .hbxCtrl => if bit v 8 then forceJournal (put s) else put s
  | .hbxSelftest => if bit v 0 then hbxTestStart s else s
  | .hbxPoolHead n => setRing s n (fun q => { q with head := v.toNat })
  | .hbxPoolTail n => tailWrite s n v
  | .hbxPoolEpoch n => setRing s n (fun q => { q with epoch := bits v 31 0 })
  | .movShdSrc c => shadowPut s c 0 v
  | .movShdDst c => shadowPut s c 1 v
  | .movShdCtrl c => shadowPut s c 2 v
  | .movShdNext c => shadowPut s c 3 v
  | .movChCtrl c => movChWrite s c v
  | .movChStatus c => setMov s c (fun ch => { ch with shadowBusy := (ch.shadowBusy && !(bit v 57)) || bit sets 57 })
  | .sepPf0Raise => if bit v 8 then pf0Raise s (bits v 5 0) else s
  | .sepWinCommit =>
    let s := bankSet s .sepWinCommit (bankGet s .sepWinCommit &&& ~~~clears)
    forAll ((List.range 64).filter (fun e => bit v e)) winCommit s
  | .telDumpCfg => dumpCfg s (bits v 13 0) (bit v 32)
  | .telSnapCmd => if bit v 0 then snapCmd s else s
  | .telCtrCfg n => ctrCfgWrite s n v sets
  | .glvCrownCmd => if bit v 0 then crownCmd s (if bit v 1 then .b else .a) else s
  | .pwrDomainReq => domainRequest s v
  | .clkBootWdog =>
    let s := put s
    let s := if bit v 16 then wdogKick s else s
    if bit v 17 then wdogDone s else s
  | .clkTimeSet => timeSet s v
  | .clkTimeAdj => timeAdj s (signed32 (bits v 63 32)) (signed32 (bits v 31 0))
  | .ctlRollback => raiseRollback s (bits v 63 32)
  | .ctlMbxDoorbell c => doorbell s c (bit v 1) (bit v 0)
  | .sysDecodeLog =>
    let kept := s.decValid && !(bit v 63)
    { s with decValid := kept || bit sets 63, decCount := if kept then s.decCount else if bit sets 63 then 1 else if bit v 63 then 0 else s.decCount }
  | _ => put s

/-- A write that is ignored still leaves the bits that the device itself sets and clears in the same cycle (R7). -/
def deviceBits (s : State) (r : Reg) (sets clears : Word) : State :=
  match r with
  | .telCtrCfg n =>
    if bit sets 8 then { s with tel := { s.tel with ctrs := tput s.tel.ctrs n { ctrOf s.tel.ctrs n with ovf := true } } } else s
  | _ =>
    let i := regInfo r
    if (sets &&& i.w1c) ||| (clears &&& i.w1s) = 0 then s else bankSet s r ((bankGet s r ||| (sets &&& i.w1c)) &&& ~~~(clears &&& i.w1s))

/-- The event that a shadow write of a committing window entry sets (R348); none for any other register. -/
def shadowBusy (s : State) (r : Reg) : Bool :=
  match r with
  | .sepWinShdBase e => flag s .sepWinCommit e
  | .sepWinShdCtrl e => flag s .sepWinCommit e
  | _ => false

/-- Whether a register is one of a lane that starts no port, whose writes are ignored (Table 7.17). -/
def laneAbsent (s : State) (r : Reg) : Bool :=
  match r with
  | .netPortCtrl l => portWidth s l == 0
  | .netPortMac l => portWidth s l == 0
  | _ => false

/-- A write of a register. -/
def regWrite (s : State) (r : Reg) (v sets clears : Word) : State :=
  if laneAbsent s r then s
  else if shadowBusy s r then setBit s .sepEvent 9
  else if cfgOk s r v then regPut s r v sets clears
  else cfgReject (deviceBits s r sets clears) r

/-! ## Accesses by address (R5, R387, R388) -/

/-- Bytes written over the Map Cache diagnostic window, which takes aligned 64-bit words. -/
def diagBytes (s : State) (off : Nat) (b : Bytes) : State :=
  forAll b.zipIdx (fun s p =>
    let o := off + p.2
    diagWrite s (o / 8 * 8) (BitVec.ofNat 64 (leNat (overlay (leBytes 8 (diagRead s (o / 8 * 8)).toNat) (o % 8) [p.1])))) s

/-- A write of `size` bytes, the number `v` in little-endian order, by a master at a fabric port: mailbox buffers and memory in any size, registers as aligned
64-bit quantities; anything else has no effect and is logged (R5, R388). MRAM bytes that nothing structured names are not kept (log entry 16). -/
def busWrite (s : State) (src addr size v : Nat) (sets clears : Word) : State :=
  let b := leBytes size v
  match mbxBuffer addr size, memRegion addr size with
  | some (c, resp, o), _ =>
    setChan s c (fun h => if resp then { h with respBuf := sparseWrite h.respBuf o b } else { h with reqBuf := sparseWrite h.reqBuf o b })
  | none, some 2 => if size = 8 ∧ addr % 8 = 0 then diagWrite s (addr - 0xC0000000000) (BitVec.ofNat 64 v) else diagBytes s (addr - 0xC0000000000) b
  | none, some 3 => s
  | none, some _ => store s addr b
  | none, none =>
    match regOfAddr addr with
    | some r => if size = 8 then regWrite s r (BitVec.ofNat 64 v) sets clears else undecoded s src addr
    | none => undecoded s src addr

/-- REGISTER_WRITE: an internal write of any size. `sets` are W1C bits that the device sets in the same cycle and `clears` W1S bits that it
clears in it (R7). -/
def execRegisterWrite (src addr size value : Nat) (sets clears : Word) (s : State) : Res :=
  .next (busWrite s src addr size value sets clears)

/-! ## Diagnostics commands -/

/-- Register values of REG_READ, in rising order of address. -/
def readRegs (s : State) (addr : Nat) : Nat → State × Bytes
  | 0 => (s, [])
  | n + 1 =>
    let (s, w) := busReads s 158 addr 8
    let (s, b) := readRegs s (addr + 8) n
    (s, w ++ b)

/-- REG_READ: up to 500 values, read by the control complex at fabric port 158. -/
def execRegRead (ch : Nat) (s : State) : Res :=
  .next (mbxRow s ch 0xA01 (fun s b gen =>
    let n := fieldAt b 8 2
    noGen s gen (
      if n = 0 ∨ 500 < n then mbxFail s 5 0
      else
        let (s, out) := readRegs s (fieldAt b 0 8) n
        { s := s, pay := out })))

/-- The bits of an address that a write keeps outside its mask: the RW fields of a register, and whole words elsewhere. -/
def keptBits (addr : Nat) : Word :=
  match regOfAddr addr with
  | some r => (regInfo r).rw
  | none => BitVec.allOnes 64

/-- REG_WRITE: a write under MASK, of a register whose other RW fields keep their values and whose other bits are written as 0. -/
def execRegWrite (ch : Nat) (s : State) : Res :=
  .next (mbxRow s ch 0xA02 (fun s b gen =>
    let addr := fieldAt b 0 8
    let value := BitVec.ofNat 64 (fieldAt b 8 8)
    let mask := BitVec.ofNat 64 (fieldAt b 16 8)
    noGen s gen (
      let old := match regOfAddr addr with
        | some r => regView s r
        | none => BitVec.ofNat 64 (leNat (busReads { s with decValid := true } 158 addr 8).2)
      let s := busWrite s 158 addr 8 ((value &&& mask) ||| (old &&& keptBits addr &&& ~~~mask)).toNat 0 0
      let now := match regOfAddr addr with
        | some r => regView s r
        | none => BitVec.ofNat 64 (leNat (busReads s 158 addr 8).2)
      { s := s, pay := leBytes 8 now.toNat })))

/-- SELF_TEST: the Hatbox spare segments (bit 0) and the lockstep compare (bit 1) are tested as an operation; the DETAIL of its result is not
given (log entry 2). -/
def execSelfTest (ch : Nat) (fail : Bool) (s : State) : Res :=
  .next (mbxRow s ch 0xA03 (fun s b gen =>
    noGen s gen (
      if 4 ≤ fieldAt b 0 1 then mbxFail s 5 0
      else if !(opFree s) then mbxFail s 0xA 0
      else
        let (d, s) := drawWord s
        accepted (startOp s 0xA03 .none (pack 16 [(0, 1, if fail then 1 else 0), (8, 8, d.toNat)]) (some 0)))))

end Sys2Proof.Machine
end

