-- ==== Sys2Proof/Machine/Health.lean ====
section
/-! DEFINITION. HEALTH_REPORT (R368, Table 15.5). -/

namespace Sys2Proof.Machine

/-- Whether an instant lies in the previous 24 whole one-hour windows (R368). -/
def inDay (s : State) (t : Nat) : Bool :=
  let h := nowOf s / 3600000000000
  let k := t / 3600000000000
  decide (k < h ∧ h ≤ k + 24)

/-- A figure of 32 bits, saturating. -/
def cap32 (n : Nat) : Nat := min n (2 ^ 32 - 1)

/-- A mean or rate in whole units. -/
def wholeOf (r : Rat) : Nat := cap32 (r.floor.toNat)

/-- Whether a drive is stalled now: its oldest outstanding command is older than the p99 of its direction (R118). -/
def stalledNow (s : State) (d : Drive) : Bool :=
  d.cmds.any (fun c =>
    let l := if c.op = .read then d.rd else d.wr
    l.p99 != 0 && decide (l.p99 < nowOf s - c.submitAt))

/-- The drive report. -/
def driveReport (s : State) (slot : Nat) : Bytes :=
  let d := if (driveAt s slot).state = .empty then {} else driveAt s slot
  let last := d.lastMedia.getD (0, 0, 0)
  pack 65 [(0, 1, slot), (1, 1, drvCode d.state), (2, 1, d.pool.getD 0xFF), (3, 1, d.member.getD 0xFF), (4, 1, d.critWarning.toNat), (5, 1, d.pctUsed),
    (6, 2, d.tempK), (8, 4, cap32 d.mediaCount), (12, 4, (d.mediaTimes.filter (inDay s)).length), (16, 4, cap32 d.timeoutCount), (20, 1, d.evacReason),
    (21, 1, (if d.flushed then 1 else 0) + (if stalledNow s d then 2 else 0) + (if d.reversed then 4 else 0) + (if d.degraded then 8 else 0)),
    (22, 1, if d.linkUp then d.gen + 16 * d.width else 0), (24, 4, wholeOf d.rd.mean), (28, 4, cap32 d.rd.p99), (32, 4, wholeOf d.wr.mean), (36, 4, cap32 d.wr.p99),
    (40, 4, wholeOf d.rd.rate), (44, 4, wholeOf d.wr.rate), (48, 8, last.1), (56, 8, last.2.1), (64, 1, last.2.2)]

/-- Highest write count of a line of an in-use physical segment (R106): writes of the line alone and of the whole segment. -/
def maxWrites (h : Hatbox) : Nat :=
  let live (g : Nat) : Bool := !(h.segFailed.contains g) && !((spareSegments h).contains g)
  let whole (g : Nat) : Nat := (tget h.segWrites g).getD 0
  (h.lineWrites.filter (fun e => live (e.1 / 16384))).foldl (fun m e => max m (e.2 + whole (e.1 / 16384)))
    ((h.segWrites.filter (fun e => live e.1)).foldl (fun m e => max m e.2) 0)

/-- Age in µs of the oldest record of a ring that is not on every copy member. -/
def copyLagUs (s : State) (r : Nat) : Nat :=
  match poolOfRing s r with
  | some (_, p) => ((oldestUncopied p (ringAt s r)).map (fun t => (nowOf s - t) / 1000)).getD 0
  | none => 0

/-- The Hatbox report; wear against the rated 10^11 writes per line (Table 3.10). -/
def hatboxReport (s : State) : Bytes :=
  let h := s.hbx
  pack 48 ([(0, 1, if h.driveJournal then 1 else 0), (1, 1, if h.driveJournal then h.djCause else 0), (2, 1, h.spareFree), (3, 1, h.selftestResult),
    (4, 4, cap32 (maxWrites h / 100000)), (8, 8, maxWrites h), (16, 4, cap32 h.remaps), (20, 4, cap32 h.verifyFails)]
    ++ (List.range 4).map (fun r => (24 + 2 * r, 2, 1000 * ringFree (ringAt s r) / ringN))
    ++ (List.range 4).map (fun r => (32 + 4 * r, 4, cap32 (copyLagUs s r))))

/-- The DRAM report of a channel. -/
def dramReport (s : State) (c : Nat) (d : Dimm) : Bytes :=
  let day (corr : Bool) : Nat := (d.errTimes.filter (fun e => e.2 == corr && inDay s e.1)).length
  pack 57 [(0, 1, c), (1, 1, d.type), (4, 4, d.sizeGib), (8, 4, d.rate), (16, 8, d.corrected), (24, 8, d.uncorrected), (32, 4, day true), (36, 4, day false),
    (40, 8, d.lastAddr), (48, 8, d.lastTime), (56, 1, d.lastKind)]

/-- REPAIR_PER_MILLE. -/
def repairPerMille (p : Pool) : Nat :=
  let left := lackingStripes p false
  if left = 0 ∨ p.repairTotal = 0 then (if left = 0 then 1000 else 0) else (p.repairTotal - left) * 1000 / p.repairTotal

/-- Members of a pool in a state. -/
def membersIn (p : Pool) (st : MemberState) : Nat := (p.members.filter (fun e => e.2.state == st)).length

/-- The pool report. -/
def poolReport (s : State) (p : Pool) : Bytes :=
  pack 64 [(0, 1, p.state), (1, 1, (if p.lossOverflow then 1 else 0) + (if p.copy.exposed then 2 else 0) + (if p.raCapped then 4 else 0)),
    (2, 1, membersIn p .failed), (3, 1, membersIn p .evacuating), (4, 4, repairPerMille p), (8, 8, lackingStripes p true), (16, 8, lackingStripes p false),
    (24, 2, p.f4), (26, 2, wholeOf p.share), (28, 4, wholeOf (readAroundT s p / 1000)), (32, 4, p.watermark),
    (36, 4, if p.logReserveSlots = 0 then 0 else 1000 * p.logHeld / p.logReserveSlots), (40, 8, p.parityFixed), (48, 8, p.mirrorFixed),
    (56, 8, p.lossHead - p.lossAcked)]

/-- The report of a KIND and INDEX; `none` where INDEX names nothing. -/
def healthReport (s : State) (kind i : Nat) : Option Bytes :=
  match kind with
  | 1 => if i < 64 then some (driveReport s i) else none
  | 2 => some (feedPayload s)
  | 3 => some (hatboxReport s)
  | 4 => (tget s.dimms i).bind (fun d => if d.type = 0 then none else some (dramReport s i d))
  | _ => (poolNamed s i).map (poolReport s)

/-- HEALTH_REPORT. -/
def execHealthReport (ch : Nat) (s : State) : Res :=
  .next (mbxRow s ch 0x800 (fun s b gen =>
    let kind := fieldAt b 0 1
    noGen s gen (
      if kind = 0 ∨ 5 < kind then mbxFail s 5 0
      else
        match healthReport s kind (fieldAt b 1 1) with
        | some r => { s := s, pay := r }
        | none => mbxFail s 0xB 0)))

end Sys2Proof.Machine
end

