-- ==== Sys2Proof/Machine/Dispatch.lean ====
section
/-! DEFINITION. What each command does: one arm per command, each one call of its meaning. -/

namespace Sys2Proof.Machine

/-- The effect of a command on everything but the queue. -/
def exec (i : Instr) (s : State) : Host.Outcome State Fault Refusal :=
  match i with
  | .registerWrite src addr size value sets clears => Sys2Proof.Machine.execRegisterWrite src addr size value sets clears s
  | .netLinkChange lane up => Sys2Proof.Machine.execNetLinkChange lane up s
  | .arpRequest lane target srcMac => Sys2Proof.Machine.execArpRequest lane target srcMac s
  | .neighbourSolicitation lane target srcMac => Sys2Proof.Machine.execNeighbourSolicitation lane target srcMac s
  | .echoRequest lane target v6 payload => Sys2Proof.Machine.execEchoRequest lane target v6 payload s
  | .ptpMessage lane frame => Sys2Proof.Machine.execPtpMessage lane frame s
  | .controlFrame lane lldp target frame => Sys2Proof.Machine.execControlFrame lane lldp target frame s
  | .pfcFrame lane enabled quanta => Sys2Proof.Machine.execPfcFrame lane enabled quanta s
  | .badFrame lane fault cutUnit => Sys2Proof.Machine.execBadFrame lane fault cutUnit s
  | .unreliableDatagram lane qpn => Sys2Proof.Machine.execUnreliableDatagram lane qpn s
  | .xon lane prio => Sys2Proof.Machine.execXon lane prio s
  | .pfcStormEgress lane prio => Sys2Proof.Machine.execPfcStormEgress lane prio s
  | .pfcStormIngress lane prio => Sys2Proof.Machine.execPfcStormIngress lane prio s
  | .pfcWatchdogRestore lane prio egress => Sys2Proof.Machine.execPfcWatchdogRestore lane prio egress s
  | .ptpTxtsPop => Sys2Proof.Machine.execPtpTxtsPop s
  | .gidSelect value => Sys2Proof.Machine.execGidSelect value s
  | .gidCommit value => Sys2Proof.Machine.execGidCommit value s
  | .cmReq r => Sys2Proof.Machine.execCmReq r s
  | .cmRtu qp => Sys2Proof.Machine.execCmRtu qp s
  | .cmDreq qp => Sys2Proof.Machine.execCmDreq qp s
  | .cmDrep qp => Sys2Proof.Machine.execCmDrep qp s
  | .sqdTimeout qp => Sys2Proof.Machine.execSqdTimeout qp s
  | .errorStateTimeout qp => Sys2Proof.Machine.execErrorStateTimeout qp s
  | .sendPacket p => Sys2Proof.Machine.execSendPacket p s
  | .rdmaWritePacket p => Sys2Proof.Machine.execRdmaWritePacket p s
  | .readResponsePacket p => Sys2Proof.Machine.execReadResponsePacket p s
  | .ackPacket qp psn => Sys2Proof.Machine.execAckPacket qp psn s
  | .sequenceErrorNak qp psn => Sys2Proof.Machine.execSequenceErrorNak qp psn s
  | .rnrNak qp psn timerNs => Sys2Proof.Machine.execRnrNak qp psn timerNs s
  | .errorNak qp code => Sys2Proof.Machine.execErrorNak qp code s
  | .invalidRequest qp psn => Sys2Proof.Machine.execInvalidRequest qp psn s
  | .contextFetchDone qp ok => Sys2Proof.Machine.execContextFetchDone qp ok s
  | .ackCoalesceTimer qp => Sys2Proof.Machine.execAckCoalesceTimer qp s
  | .retransmissionTimeout qp => Sys2Proof.Machine.execRetransmissionTimeout qp s
  | .rnrTimer qp => Sys2Proof.Machine.execRnrTimer qp s
  | .resequenceGapTimeout qp => Sys2Proof.Machine.execResequenceGapTimeout qp s
  | .readResponseGapTimeout qp => Sys2Proof.Machine.execReadResponseGapTimeout qp s
  | .pathProbe qp path => Sys2Proof.Machine.execPathProbe qp path s
  | .baseWindowRoll qp => Sys2Proof.Machine.execBaseWindowRoll qp s
  | .qpRevoke rkey => Sys2Proof.Machine.execQpRevoke rkey s
  | .revokeTimeout region => Sys2Proof.Machine.execRevokeTimeout region s
  | .capsule conn queue => Sys2Proof.Machine.execCapsule conn queue s
  | .flush conn queue => Sys2Proof.Machine.execFlush conn queue s
  | .write conn queue => Sys2Proof.Machine.execWrite conn queue s
  | .read conn queue => Sys2Proof.Machine.execRead conn queue s
  | .writeZeroes conn queue => Sys2Proof.Machine.execWriteZeroes conn queue s
  | .deallocate conn queue => Sys2Proof.Machine.execDeallocate conn queue s
  | .identify conn => Sys2Proof.Machine.execIdentify conn s
  | .getErrorLog conn => Sys2Proof.Machine.execGetErrorLog conn s
  | .restartQueue conn => Sys2Proof.Machine.execRestartQueue conn s
  | .restartComplete conn queue => Sys2Proof.Machine.execRestartComplete conn queue s
  | .regionRegister conn => Sys2Proof.Machine.execRegionRegister conn s
  | .regionRelease conn => Sys2Proof.Machine.execRegionRelease conn s
  | .reset conn => Sys2Proof.Machine.execReset conn s
  | .resetTimeout conn => Sys2Proof.Machine.execResetTimeout conn s
  | .authSend conn msg => Sys2Proof.Machine.execAuthSend conn msg s
  | .authReceive conn => Sys2Proof.Machine.execAuthReceive conn s
  | .authTimeout conn => Sys2Proof.Machine.execAuthTimeout conn s
  | .eventWait conn => Sys2Proof.Machine.execEventWait conn s
  | .disconnect conn => Sys2Proof.Machine.execDisconnect conn s
  | .commandCompletion cmd => Sys2Proof.Machine.execCommandCompletion cmd s
  | .connectionLingerExpiry conn => Sys2Proof.Machine.execConnectionLingerExpiry conn s
  | .writeCapWindow => Sys2Proof.Machine.execWriteCapWindow s
  | .holdStart => Sys2Proof.Machine.execHoldStart s
  | .holdRelease => Sys2Proof.Machine.execHoldRelease s
  | .holdWindowEnd => Sys2Proof.Machine.execHoldWindowEnd s
  | .nvmfConnect conn queue hostId hostNqn => Sys2Proof.Machine.execNvmfConnect conn queue hostId hostNqn s
  | .propertyGet conn => Sys2Proof.Machine.execPropertyGet conn s
  | .propertySet conn => Sys2Proof.Machine.execPropertySet conn s
  | .authenticationSend conn msg => Sys2Proof.Machine.execAuthenticationSend conn msg s
  | .authenticationReceive conn => Sys2Proof.Machine.execAuthenticationReceive conn s
  | .nvmfDisconnect conn queue => Sys2Proof.Machine.execNvmfDisconnect conn queue s
  | .nvmfIdentify conn => Sys2Proof.Machine.execNvmfIdentify conn s
  | .getLogPage conn => Sys2Proof.Machine.execGetLogPage conn s
  | .setFeatures conn => Sys2Proof.Machine.execSetFeatures conn s
  | .getFeatures conn => Sys2Proof.Machine.execGetFeatures conn s
  | .asynchronousEventRequest conn => Sys2Proof.Machine.execAsynchronousEventRequest conn s
  | .keepAlive conn => Sys2Proof.Machine.execKeepAlive conn s
  | .keepAliveExpiry conn => Sys2Proof.Machine.execKeepAliveExpiry conn s
  | .abort conn => Sys2Proof.Machine.execAbort conn s
  | .nvmfFlush conn queue => Sys2Proof.Machine.execNvmfFlush conn queue s
  | .nvmfWrite conn queue => Sys2Proof.Machine.execNvmfWrite conn queue s
  | .nvmfRead conn queue => Sys2Proof.Machine.execNvmfRead conn queue s
  | .nvmfWriteZeroes conn queue => Sys2Proof.Machine.execNvmfWriteZeroes conn queue s
  | .datasetManagement conn queue ranges => Sys2Proof.Machine.execDatasetManagement conn queue ranges s
  | .stripeAllocate pool wseq => Sys2Proof.Machine.execStripeAllocate pool wseq s
  | .pullReadIssue pool wseq => Sys2Proof.Machine.execPullReadIssue pool wseq s
  | .driveWriteIssue pool wseq pos => Sys2Proof.Machine.execDriveWriteIssue pool wseq pos s
  | .driveCellRead port pool wseq pos block => Sys2Proof.Machine.execDriveCellRead port pool wseq pos block s
  | .cellReadTimeout port => Sys2Proof.Machine.execCellReadTimeout port s
  | .nvmeWriteComplete slot cid status => Sys2Proof.Machine.execNvmeWriteComplete slot cid status s
  | .nvmeReadComplete slot cid status blocks => Sys2Proof.Machine.execNvmeReadComplete slot cid status blocks s
  | .nvmeFlushSubmit slot => Sys2Proof.Machine.execNvmeFlushSubmit slot s
  | .nvmeFlushComplete slot => Sys2Proof.Machine.execNvmeFlushComplete slot s
  | .headerRingWrite pool => Sys2Proof.Machine.execHeaderRingWrite pool s
  | .logRecordIssue pool stream => Sys2Proof.Machine.execLogRecordIssue pool stream s
  | .writeAck pool wseq => Sys2Proof.Machine.execWriteAck pool wseq s
  | .undeliveredNotice pool wseq target reason => Sys2Proof.Machine.execUndeliveredNotice pool wseq target reason s
  | .foldStripe pool bad => Sys2Proof.Machine.execFoldStripe pool bad s
  | .foldWatermarkAdjust pool => Sys2Proof.Machine.execFoldWatermarkAdjust pool s
  | .reclaimBand pool bad => Sys2Proof.Machine.execReclaimBand pool bad s
  | .bandFree pool band => Sys2Proof.Machine.execBandFree pool band s
  | .stripeLockGrant pool wseq bad => Sys2Proof.Machine.execStripeLockGrant pool wseq bad s
  | .inplaceWriteIssue pool wseq => Sys2Proof.Machine.execInplaceWriteIssue pool wseq s
  | .intentClose pool wseq => Sys2Proof.Machine.execIntentClose pool wseq s
  | .rotationStep vol bad => Sys2Proof.Machine.execRotationStep vol bad s
  | .hatboxRecordAccept ring => Sys2Proof.Machine.execHatboxRecordAccept ring s
  | .mramWriteComplete ring seq ok => Sys2Proof.Machine.execMramWriteComplete ring seq ok s
  | .remapCopyDone ring => Sys2Proof.Machine.execRemapCopyDone ring s
  | .watermark ring => Sys2Proof.Machine.execWatermark ring s
  | .journalPageIssue pool => Sys2Proof.Machine.execJournalPageIssue pool s
  | .lagStall pool => Sys2Proof.Machine.execLagStall pool s
  | .copyMemberEvict pool member => Sys2Proof.Machine.execCopyMemberEvict pool member s
  | .epochOpen pool reason => Sys2Proof.Machine.execEpochOpen pool reason s
  | .epochCommit pool => Sys2Proof.Machine.execEpochCommit pool s
  | .hatboxDieFault => Sys2Proof.Machine.execHatboxDieFault s
  | .forceDriveJournal => Sys2Proof.Machine.execForceDriveJournal s
  | .hbxSelftestStart => Sys2Proof.Machine.execHbxSelftestStart s
  | .hbxSelftestDone failed => Sys2Proof.Machine.execHbxSelftestDone failed s
  | .poolTailAdvance ring value => Sys2Proof.Machine.execPoolTailAdvance ring value s
  | .replay pool bad => Sys2Proof.Machine.execReplay pool bad s
  | .readAroundTimer cmd block => Sys2Proof.Machine.execReadAroundTimer cmd block s
  | .latencyWindow => Sys2Proof.Machine.execLatencyWindow s
  | .driveCommandTimeout slot cid => Sys2Proof.Machine.execDriveCommandTimeout slot cid s
  | .driveLinkDownTimeout slot => Sys2Proof.Machine.execDriveLinkDownTimeout slot s
  | .controllerFatalStatus slot => Sys2Proof.Machine.execControllerFatalStatus slot s
  | .controllerResetTimeout slot => Sys2Proof.Machine.execControllerResetTimeout slot s
  | .repairStripe pool bad => Sys2Proof.Machine.execRepairStripe pool bad s
  | .repairPaceAdjust pool => Sys2Proof.Machine.execRepairPaceAdjust pool s
  | .latencyDriftWindow => Sys2Proof.Machine.execLatencyDriftWindow s
  | .evacuationStart slot reason => Sys2Proof.Machine.execEvacuationStart slot reason s
  | .evacBand slot bad => Sys2Proof.Machine.execEvacBand slot bad s
  | .scrubStripe pool band stripe bad => Sys2Proof.Machine.execScrubStripe pool band stripe bad s
  | .bandConvert pool band bad => Sys2Proof.Machine.execBandConvert pool band bad s
  | .checkpointStart vol => Sys2Proof.Machine.execCheckpointStart vol s
  | .checkpointRoot vol => Sys2Proof.Machine.execCheckpointRoot vol s
  | .checkpointFree vol => Sys2Proof.Machine.execCheckpointFree vol s
  | .leafPageIn vol low => Sys2Proof.Machine.execLeafPageIn vol low s
  | .nodeRebuild vol low flashOk => Sys2Proof.Machine.execNodeRebuild vol low flashOk s
  | .mapCacheLoad requester addr ecc => Sys2Proof.Machine.execMapCacheLoad requester addr ecc s
  | .mapCacheStore addr bytes => Sys2Proof.Machine.execMapCacheStore addr bytes s
  | .mapCacheFill addr => Sys2Proof.Machine.execMapCacheFill addr s
  | .writeThroughDrain slice => Sys2Proof.Machine.execWriteThroughDrain slice s
  | .invalidate tag spareLocked => Sys2Proof.Machine.execInvalidate tag spareLocked s
  | .prefetch tag => Sys2Proof.Machine.execPrefetch tag s
  | .lock tag => Sys2Proof.Machine.execLock tag s
  | .unlock tag => Sys2Proof.Machine.execUnlock tag s
  | .verify tag => Sys2Proof.Machine.execVerify tag s
  | .rangeOpComplete eccs => Sys2Proof.Machine.execRangeOpComplete eccs s
  | .cacheDisable => Sys2Proof.Machine.execCacheDisable s
  | .diagWindowAccess off write => Sys2Proof.Machine.execDiagWindowAccess off write s
  | .cellAdmission input cell => Sys2Proof.Machine.execCellAdmission input cell s
  | .cellDepart port ecc => Sys2Proof.Machine.execCellDepart port ecc s
  | .fabricPortDown port => Sys2Proof.Machine.execFabricPortDown port s
  | .accumulatorBind b => Sys2Proof.Machine.execAccumulatorBind b s
  | .accumulatorCell acc position offset isNew poison payload => Sys2Proof.Machine.execAccumulatorCell acc position offset isNew poison payload s
  | .accumulatorTimeout acc => Sys2Proof.Machine.execAccumulatorTimeout acc s
  | .pairMismatch pair => Sys2Proof.Machine.execPairMismatch pair s
  | .doorbellRing ch => Sys2Proof.Machine.execDoorbellRing ch s
  | .doorbellAck ch => Sys2Proof.Machine.execDoorbellAck ch s
  | .operationEnd opId => Sys2Proof.Machine.execOperationEnd opId s
  | .entdaa addr => Sys2Proof.Machine.execEntdaa addr s
  | .mctpMessage endpoint tag request => Sys2Proof.Machine.execMctpMessage endpoint tag request s
  | .setEndpointId eid => Sys2Proof.Machine.execSetEndpointId eid s
  | .getEndpointId => Sys2Proof.Machine.execGetEndpointId s
  | .getMctpVersionSupport => Sys2Proof.Machine.execGetMctpVersionSupport s
  | .getMessageTypeSupport => Sys2Proof.Machine.execGetMessageTypeSupport s
  | .getVendorDefinedMessageSupport => Sys2Proof.Machine.execGetVendorDefinedMessageSupport s
  | .inbandDatagram lane source port payload => Sys2Proof.Machine.execInbandDatagram lane source port payload s
  | .mailboxIdentify ch => Sys2Proof.Machine.execMailboxIdentify ch s
  | .getOperation ch => Sys2Proof.Machine.execGetOperation ch s
  | .getEvents ch => Sys2Proof.Machine.execGetEvents ch s
  | .poolCreate ch => Sys2Proof.Machine.execPoolCreate ch s
  | .poolImport ch bad => Sys2Proof.Machine.execPoolImport ch bad s
  | .poolExport ch => Sys2Proof.Machine.execPoolExport ch s
  | .poolDelete ch => Sys2Proof.Machine.execPoolDelete ch s
  | .poolQuery ch => Sys2Proof.Machine.execPoolQuery ch s
  | .poolSet ch => Sys2Proof.Machine.execPoolSet ch s
  | .poolConvert ch => Sys2Proof.Machine.execPoolConvert ch s
  | .lossRead ch => Sys2Proof.Machine.execLossRead ch s
  | .lossAck ch => Sys2Proof.Machine.execLossAck ch s
  | .volumeCreate ch => Sys2Proof.Machine.execVolumeCreate ch s
  | .volumeDelete ch => Sys2Proof.Machine.execVolumeDelete ch s
  | .volumeSet ch => Sys2Proof.Machine.execVolumeSet ch s
  | .volumeQuery ch => Sys2Proof.Machine.execVolumeQuery ch s
  | .volumeAccess ch => Sys2Proof.Machine.execVolumeAccess ch s
  | .driveInventory ch => Sys2Proof.Machine.execDriveInventory ch s
  | .driveAdmit ch formatOk => Sys2Proof.Machine.execDriveAdmit ch formatOk s
  | .driveFail ch => Sys2Proof.Machine.execDriveFail ch s
  | .driveEvacuate ch => Sys2Proof.Machine.execDriveEvacuate ch s
  | .driveRelease ch => Sys2Proof.Machine.execDriveRelease ch s
  | .policyGet ch => Sys2Proof.Machine.execPolicyGet ch s
  | .policySet ch => Sys2Proof.Machine.execPolicySet ch s
  | .fwDownload ch => Sys2Proof.Machine.execFwDownload ch s
  | .fwVerify ch => Sys2Proof.Machine.execFwVerify ch s
  | .fwActivate ch => Sys2Proof.Machine.execFwActivate ch s
  | .activationAdopt => Sys2Proof.Machine.execActivationAdopt s
  | .activationTimeout => Sys2Proof.Machine.execActivationTimeout s
  | .fwStatus ch => Sys2Proof.Machine.execFwStatus ch s
  | .fwCommit ch => Sys2Proof.Machine.execFwCommit ch s
  | .kekSession ch => Sys2Proof.Machine.execKekSession ch s
  | .kekSessionLapse session => Sys2Proof.Machine.execKekSessionLapse session s
  | .kekLoad ch => Sys2Proof.Machine.execKekLoad ch s
  | .keyLoad ch => Sys2Proof.Machine.execKeyLoad ch s
  | .keyRotate ch => Sys2Proof.Machine.execKeyRotate ch s
  | .keyUnload ch => Sys2Proof.Machine.execKeyUnload ch s
  | .hostSecretSet ch => Sys2Proof.Machine.execHostSecretSet ch s
  | .inbandSecretSet ch => Sys2Proof.Machine.execInbandSecretSet ch s
  | .healthReport ch => Sys2Proof.Machine.execHealthReport ch s
  | .counterRead ch => Sys2Proof.Machine.execCounterRead ch s
  | .dumpConfig ch => Sys2Proof.Machine.execDumpConfig ch s
  | .sampleConfig ch => Sys2Proof.Machine.execSampleConfig ch s
  | .feedStatus ch => Sys2Proof.Machine.execFeedStatus ch s
  | .crownHandover ch => Sys2Proof.Machine.execCrownHandover ch s
  | .slotPower ch => Sys2Proof.Machine.execSlotPower ch s
  | .softReset ch => Sys2Proof.Machine.execSoftReset ch s
  | .regRead ch => Sys2Proof.Machine.execRegRead ch s
  | .regWrite ch => Sys2Proof.Machine.execRegWrite ch s
  | .selfTest ch fail => Sys2Proof.Machine.execSelfTest ch fail s
  | .rollbackRaise value => Sys2Proof.Machine.execRollbackRaise value s
  | .shadowWrite ch reg value => Sys2Proof.Machine.execShadowWrite ch reg value s
  | .shadowArm ch withDisarm => Sys2Proof.Machine.execShadowArm ch withDisarm s
  | .disarm ch => Sys2Proof.Machine.execDisarm ch s
  | .stop ch => Sys2Proof.Machine.execStop ch s
  | .stopDrained ch => Sys2Proof.Machine.execStopDrained ch s
  | .clear ch => Sys2Proof.Machine.execClear ch s
  | .shadowHandOver ch => Sys2Proof.Machine.execShadowHandOver ch s
  | .nextFetch ch ok => Sys2Proof.Machine.execNextFetch ch ok s
  | .moverReadGrant half => Sys2Proof.Machine.execMoverReadGrant half s
  | .moverDataReturn ch r => Sys2Proof.Machine.execMoverDataReturn ch r s
  | .descriptorComplete ch => Sys2Proof.Machine.execDescriptorComplete ch s
  | .gloveAlive g => Sys2Proof.Machine.execGloveAlive g s
  | .feedConversion g va vb imonA imonB faultNA faultNB fbA fbB => Sys2Proof.Machine.execFeedConversion g va vb imonA imonB faultNA faultNB fbA fbB s
  | .feedStateChange feed => Sys2Proof.Machine.execFeedStateChange feed s
  | .gloveFrameSend g => Sys2Proof.Machine.execGloveFrameSend g s
  | .gloveFrameReceive g valid periodNs => Sys2Proof.Machine.execGloveFrameReceive g valid periodNs s
  | .linkLost g => Sys2Proof.Machine.execLinkLost g s
  | .linkUp g => Sys2Proof.Machine.execLinkUp g s
  | .leaseExpiry g => Sys2Proof.Machine.execLeaseExpiry g s
  | .crownWaitExpiry g => Sys2Proof.Machine.execCrownWaitExpiry g s
  | .gateFbTimeout feed => Sys2Proof.Machine.execGateFbTimeout feed s
  | .gateReraise feed => Sys2Proof.Machine.execGateReraise feed s
  | .interlockConflict => Sys2Proof.Machine.execInterlockConflict s
  | .conflictClear => Sys2Proof.Machine.execConflictClear s
  | .deadTimeExpiry => Sys2Proof.Machine.execDeadTimeExpiry s
  | .senseWireTest g stepMv => Sys2Proof.Machine.execSenseWireTest g stepMv s
  | .adcReferenceTest g errPerMille => Sys2Proof.Machine.execAdcReferenceTest g errPerMille s
  | .adcAgreementTest => Sys2Proof.Machine.execAdcAgreementTest s
  | .oscTimebaseTest g khz => Sys2Proof.Machine.execOscTimebaseTest g khz s
  | .standbyRailTest g mv => Sys2Proof.Machine.execStandbyRailTest g mv s
  | .interlockTest stage1Passes stage2Passes => Sys2Proof.Machine.execInterlockTest stage1Passes stage2Passes s
  | .crownCmdHandover dest => Sys2Proof.Machine.execCrownCmdHandover dest s
  | .powerGoodFall rail => Sys2Proof.Machine.execPowerGoodFall rail s
  | .feedOkRestart => Sys2Proof.Machine.execFeedOkRestart s
  | .domainRequest value => Sys2Proof.Machine.execDomainRequest value s
  | .domainSwitch => Sys2Proof.Machine.execDomainSwitch s
  | .domainPowerGoodTimeout domain => Sys2Proof.Machine.execDomainPowerGoodTimeout domain s
  | .railSequenceStart => Sys2Proof.Machine.execRailSequenceStart s
  | .railPgRise rail => Sys2Proof.Machine.execRailPgRise rail s
  | .railPgTimeout rail => Sys2Proof.Machine.execRailPgTimeout rail s
  | .railRetry => Sys2Proof.Machine.execRailRetry s
  | .sysRstNAssert => Sys2Proof.Machine.execSysRstNAssert s
  | .sysRstNRelease => Sys2Proof.Machine.execSysRstNRelease s
  | .bootRom => Sys2Proof.Machine.execBootRom s
  | .imageCheck => Sys2Proof.Machine.execImageCheck s
  | .startSelfTest faults => Sys2Proof.Machine.execStartSelfTest faults s
  | .ddrTrainingDone => Sys2Proof.Machine.execDdrTrainingDone s
  | .networkBringUp => Sys2Proof.Machine.execNetworkBringUp s
  | .driveEnumeration slot ident => Sys2Proof.Machine.execDriveEnumeration slot ident s
  | .ledgerRead => Sys2Proof.Machine.execLedgerRead s
  | .mapRootLoad vol => Sys2Proof.Machine.execMapRootLoad vol s
  | .esLevelSet level => Sys2Proof.Machine.execEsLevelSet level s
  | .warmStartDrainTimeout => Sys2Proof.Machine.execWarmStartDrainTimeout s
  | .bootWdogDone => Sys2Proof.Machine.execBootWdogDone s
  | .bootWdogKick => Sys2Proof.Machine.execBootWdogKick s
  | .wdogWarn => Sys2Proof.Machine.execWdogWarn s
  | .watchdogExpiry => Sys2Proof.Machine.execWatchdogExpiry s
  | .clockLoss c => Sys2Proof.Machine.execClockLoss c s
  | .referenceReturn => Sys2Proof.Machine.execReferenceReturn s
  | .pllLockLost p => Sys2Proof.Machine.execPllLockLost p s
  | .lastTimeUpdate => Sys2Proof.Machine.execLastTimeUpdate s
  | .timeSet value => Sys2Proof.Machine.execTimeSet value s
  | .timeAdj slewNs freqPpb => Sys2Proof.Machine.execTimeAdj slewNs freqPpb s
  | .sepLinkTraining speed width => Sys2Proof.Machine.execSepLinkTraining speed width s
  | .bar0Request pf tlp => Sys2Proof.Machine.execBar0Request pf tlp s
  | .bar2Request tlp eccError => Sys2Proof.Machine.execBar2Request tlp eccError s
  | .masterEnableClear pf => Sys2Proof.Machine.execMasterEnableClear pf s
  | .functionLevelReset pf => Sys2Proof.Machine.execFunctionLevelReset pf s
  | .flrReady pf => Sys2Proof.Machine.execFlrReady pf s
  | .d3hotEntry pf => Sys2Proof.Machine.execD3hotEntry pf s
  | .winCommit entry => Sys2Proof.Machine.execWinCommit entry s
  | .windowDrainDone entry => Sys2Proof.Machine.execWindowDrainDone entry s
  | .pf0Raise vector => Sys2Proof.Machine.execPf0Raise vector s
  | .pf1DumpWrite => Sys2Proof.Machine.execPf1DumpWrite s
  | .counterWrap counter value => Sys2Proof.Machine.execCounterWrap counter value s
  | .snapshotPeriodic => Sys2Proof.Machine.execSnapshotPeriodic s
  | .snap => Sys2Proof.Machine.execSnap s
  | .dumpWriteComplete buffer => Sys2Proof.Machine.execDumpWriteComplete buffer s
  | .frameSampleExport => Sys2Proof.Machine.execFrameSampleExport s
  | .sgFrame west inputs => Sys2Proof.Machine.execSgFrame west inputs s
  | .presenceDebounce slot => Sys2Proof.Machine.execPresenceDebounce slot s
  | .perstRelease slot => Sys2Proof.Machine.execPerstRelease slot s
  | .driveLinkTraining slot f => Sys2Proof.Machine.execDriveLinkTraining slot f s
  | .sidebandRead slot smart => Sys2Proof.Machine.execSidebandRead slot smart s
  | .thermtrip degrees => Sys2Proof.Machine.execThermtrip degrees s
  | .gloveLoss g => Sys2Proof.Machine.execGloveLoss g s
  | .criticalWarning slot smart => Sys2Proof.Machine.execCriticalWarning slot smart s
  | .cmRej qp => Sys2Proof.Machine.execCmRej qp s
  | .sepLinkDown perst => Sys2Proof.Machine.execSepLinkDown perst s
  | .masterEnableSet pf => Sys2Proof.Machine.execMasterEnableSet pf s
  | .d0Return pf => Sys2Proof.Machine.execD0Return pf s
  | .completionTimeout ch => Sys2Proof.Machine.execCompletionTimeout ch s

end Sys2Proof.Machine
end

