-- ==== Sys2Proof/Machine/Tick.lean ====
section
/-! DEFINITION. What one CCLK cycle without a command does (log entry 6): shelf time advances under its correction and slew (R338), events of
STATE kind count (R358), and cells that wait at their sources are offered again (R181). -/

namespace Sys2Proof.Machine

/-- Thirds of 10^-9 ns in one ns: CCLK is 1.5 GHz, so a cycle is 2/3 ns. -/
def tickUnit : Nat := 3000000000

/-- Shelf time after one cycle: 2/3 ns, corrected by FREQ_PPB and slewed at 500 ppm (R338). -/
def tickTime (c : Clocks) : Clocks :=
  let dir : Int := if 0 < c.slewLeft then 1 else if c.slewLeft < 0 then -1 else 0
  let acc := c.frac + 2 * (1000000000 + c.ppb + dir * 500000).toNat
  let slewed := c.slewFrac + (if dir = 0 then 0 else 1000000)
  let whole := decide ((tickUnit : Int) ≤ slewed)
  { c with now := c.now + acc / tickUnit, frac := acc % tickUnit
           slewLeft := if whole then c.slewLeft - dir else c.slewLeft
           slewFrac := if dir = 0 then 0 else if whole then slewed - tickUnit else slewed }

/-- The counters of STATE kind whose condition holds (Table 15.1). -/
def stateEvents (s : State) : List Nat :=
  ((List.range 160).filter (fun p => brimUse s p != 0)).map (0x140 + ·)
    ++ (s.net.ports.filter (fun e => e.2.prios.any (fun q => q.2.pausedFrom.isSome && decide (nowOf s < q.2.pausedUntil)))).map (0x340 + ·.1)
    ++ (s.net.ports.filter (fun e => e.2.prios.any (fun q => q.2.xoffFrom.isSome))).map (0x380 + ·.1)
    ++ (if s.hq.hold.active then [0x554] else [])
    ++ (if s.hq.conns.any (fun e => logStalled s e.1) then [0x556] else [])
    ++ (if s.pools.any (fun e => e.2.areaStall) then [0x583] else [])
    ++ ((List.range 4).filter (fun i => decide (128 ≤ (wtq s i).length))).map (0x5D4 + ·)
    ++ ((List.range 4).filter (fun r => (ringAt s r).lagStalled)).map (0x608 + ·)
    ++ ((List.range 4).filter (fun r => (ringAt s r).stalled)).map (0x60C + ·)
    ++ (if s.hbx.driveJournal then [0x612] else [])

/-- A cycle in which a STATE event holds: counted by level, or by edge where it did not hold in the cycle before (R358). -/
def stateCount (s : State) (n : Nat) : State :=
  if (ctrOf s.tel.ctrs n).edge && s.tel.stateOn.contains n then s else countBy s n 1

/-- One CCLK cycle. Shelf time stands while the 25 MHz reference is lost; nothing happens while the core has no power or no CCLK. -/
def tick (s : State) : State :=
  if s.rails.pg ≠ 0xFF ∨ s.clk.cclkLock = false then s
  else
    let s := if s.clk.lost25 then s else { s with clk := tickTime s.clk }
    let on := stateEvents s
    let s := forAll on stateCount s
    netDrain (retryWaiting { s with tel := { s.tel with stateOn := on } })

end Sys2Proof.Machine
end

