-- ==== Sys2Proof/Machine/Package.lean ====
section
/-! DEFINITION. The package: what each of the 5,184 balls carries (R370 to R373, Tables 16.2 and 16.3) and the supplies of Table 16.4. No command reads
or changes it: it is the fixed map from balls to the signals that the commands are events of. -/

namespace Sys2Proof.Machine

/-- A supply rail (Table 16.4). -/
inductive Rail
  | vddCore | vddEdge | vddSram | avddSer | avddPll | vddqDdr | vddHbx | vddIo | vddStbyA | vddStbyB
  deriving DecidableEq, Repr

/-- Which signal of a lane a ball carries. -/
inductive LaneSig
  | txp | txn | rxp | rxn
  deriving DecidableEq, Repr

/-- What a ball carries. -/
inductive Ball
  /-- Ground. -/
  | vss
  /-- A supply. -/
  | supply (rail : Rail)
  /-- A reserved ball, left unconnected by the board. -/
  | reserved (k : Nat)
  /-- A signal of a network lane, North or South. -/
  | net (south : Bool) (lane : Nat) (sig : LaneSig)
  /-- A signal of a drive die-lane, East or West. -/
  | drv (west : Bool) (lane : Nat) (sig : LaneSig)
  /-- Signal `pos` of subchannel A or B of a DDR channel, in the order of R373. -/
  | ddr (channel : Nat) (subB : Bool) (pos : Nat)
  /-- A signal of a corner field, by its name. -/
  | pin (name : String)
  deriving DecidableEq, Repr

/-- Nominal voltage, operating range, maximum current in mV and mA, and the balls of a rail (Table 16.4). -/
def supplyFigures : Rail → Nat × Nat × Nat × Nat × Nat
  | .vddCore => (750, 728, 772, 290000, 336)
  | .vddEdge => (750, 728, 772, 85000, 164)
  | .vddSram => (850, 825, 875, 40000, 56)
  | .avddSer => (900, 882, 918, 70000, 172)
  | .avddPll => (1200, 1176, 1224, 2000, 6)
  | .vddqDdr => (1100, 1067, 1133, 20000, 192)
  | .vddHbx => (1800, 1746, 1854, 3000, 12)
  | .vddIo => (1800, 1710, 1890, 1000, 8)
  | .vddStbyA => (3300, 3135, 3465, 150, 4)
  | .vddStbyB => (3300, 3135, 3465, 150, 4)

/-- RAIL_EN_n's rail; the standby rails come from the feeds (Table 16.4). -/
def railOfEnable (n : Nat) : Option Rail :=
  [Rail.vddCore, .vddEdge, .vddSram, .avddSer, .avddPll, .vddqDdr, .vddHbx, .vddIo][n]?

/-- Numbered pins `name0` to `name(n-1)`. -/
def numbered (name : String) (n : Nat) : List Ball := (List.range n).map (fun k => .pin (name ++ toString k))

/-- Pins of given names. -/
def pins (names : List String) : List Ball := names.map .pin

/-- The NW corner's balls in order (Table 16.3). -/
def cornerNW : List Ball :=
  List.replicate 4 (.supply .vddStbyA) ++ List.replicate 4 (.supply .vddStbyB)
    ++ pins ["FEED_A_SENSE", "FEED_A_IMON", "FEED_A_FAULT_N", "GATE_A_EN", "GATE_A_FB", "FEED_B_SENSE", "FEED_B_IMON", "FEED_B_FAULT_N", "GATE_B_EN",
             "GATE_B_FB", "SYS_RST_N"]
    ++ numbered "RAIL_EN_" 8 ++ numbered "RAIL_PG_" 8

/-- The NE corner's balls in order (Table 16.3). -/
def cornerNE : List Ball :=
  let pair (a b : String) : List Ball := (List.range 8).flatMap (fun k => pins [a ++ toString k, b ++ toString k])
  pair "SEP_TXP_" "SEP_TXN_" ++ pair "SEP_RXP_" "SEP_RXN_" ++ pins ["SEP_REFCLK_P", "SEP_REFCLK_N", "SEP_PERST_N"]
    ++ List.replicate 8 (.supply .avddSer)

/-- The SW corner's balls in order (Table 16.3). -/
def cornerSW : List Ball :=
  pins ["XSPI_CLK", "XSPI_CS_N", "XSPI_DQS", "XSPI_RESET_N"] ++ numbered "XSPI_DQ_" 8
    ++ pins ["MI3C_SCL", "MI3C_SDA", "UART_TX", "UART_RX", "JTAG_TCK", "JTAG_TMS", "JTAG_TDI", "JTAG_TDO", "JTAG_TRST_N"]
    ++ numbered "GPIO_" 32
    ++ pins ["SG_E_CLK", "SG_E_LOAD", "SG_E_DOUT", "SG_E_DIN", "SG_W_CLK", "SG_W_LOAD", "SG_W_DOUT", "SG_W_DIN"]
    ++ (List.range 4).flatMap (fun k => pins ["SB_I3C_" ++ toString k ++ "_SCL", "SB_I3C_" ++ toString k ++ "_SDA"])
    ++ pins ["DDR_SPD_SCL", "DDR_SPD_SDA"] ++ numbered "DDR_RESET_N_" 8 ++ numbered "DDR_ALERT_N_" 8
    ++ pins ["THERMTRIP_N", "THERM_DP", "THERM_DN"] ++ List.replicate 8 (.supply .vddIo)

/-- The SE corner's balls in order (Table 16.3). -/
def cornerSE : List Ball :=
  pins ["SYS_REFCLK_25M", "NET_REFCLK_N_P", "NET_REFCLK_N_N", "NET_REFCLK_S_P", "NET_REFCLK_S_N", "DRV_REFCLK_E_P", "DRV_REFCLK_E_N",
        "DRV_REFCLK_W_P", "DRV_REFCLK_W_N"]
    ++ List.replicate 6 (.supply .avddPll) ++ List.replicate 12 (.supply .vddHbx) ++ (List.range 8).map .reserved

/-- A ball of a network field, from the field's outer edge: `depth` 1 at the edge to 10 (R371, R372). -/
def netBall (south : Bool) (depth col : Nat) : Ball :=
  let lane := (List.range 32).find? (fun n => 15 + n + n / 2 == col)
  let sig : Option LaneSig := match depth with
    | 2 => some .txp
    | 3 => some .txn
    | 7 => some .rxp
    | 8 => some .rxn
    | _ => none
  if depth = 5 then .supply .avddSer
  else if depth = 10 then .supply .vddEdge
  else match lane, sig with
    | some n, some g => .net south n g
    | _, _ => .vss

/-- A ball of a drive field, `col` counted from the outer edge, 1 to 10 (R371, R372). -/
def drvBall (west : Bool) (row col : Nat) : Ball :=
  let port := (List.range 32).find? (fun p => 15 + p + p / 4 == row)
  let at' : Option (Nat × LaneSig) := match col with
    | 1 => some (0, .txp)
    | 2 => some (0, .txn)
    | 3 => some (1, .txp)
    | 4 => some (1, .txn)
    | 7 => some (0, .rxp)
    | 8 => some (0, .rxn)
    | 9 => some (1, .rxp)
    | 10 => some (1, .rxn)
    | _ => none
  if row ≤ 13 then .supply .avddSer
  else if 60 ≤ row then .supply .vddEdge
  else match port, at' with
    | some p, some (j, g) => .drv west (2 * p + j) g
    | _, _ => .vss

/-- A ball of a DDR channel field: `major` is the 1-based place in the direction of 12, `minor` in the direction of 16, where each fourth is no signal
(R373). -/
def ddrBall (channel major minor : Nat) : Ball :=
  if minor % 4 = 0 then .vss
  else
    let k := (major - 1) * 12 + (minor - 1 - minor / 4)
    .ddr channel (decide (72 ≤ k)) (k % 72)

/-- The signal of a place in a subchannel (R373), without the index's leading zeros. -/
def ddrSignal (pos : Nat) : String × Nat :=
  if pos < 32 then ("DQ", pos)
  else if pos < 40 then ("CB", pos - 32)
  else if pos < 60 then (if pos % 2 = 0 then "DQS_T" else "DQS_C", (pos - 40) / 2)
  else if pos < 67 then ("DCA", pos - 60)
  else if pos = 67 then ("DPAR", 0)
  else if pos < 70 then ("DCS_N", pos - 68)
  else if pos = 70 then ("DCK_T", 0)
  else ("DCK_C", 0)

/-- Whether a DDR channel field spans these 16 rows or columns, and the 1-based place in it. -/
def ddrBand (x : Nat) : Option (Nat × Nat) :=
  if 11 ≤ x ∧ x ≤ 26 then some (0, x - 10)
  else if 29 ≤ x ∧ x ≤ 44 then some (1, x - 28)
  else if 47 ≤ x ∧ x ≤ 62 then some (2, x - 46)
  else none

/-- What the ball at a row and a column carries, both counted from 1 (R370 to R373). -/
def ballAt (row col : Nat) : Ball :=
  let corner (l : List Ball) (r c : Nat) : Ball := (l[(r - 1) * 10 + (c - 1)]?).getD .vss
  let gap : Ball := if (row + col) % 2 = 1 then .supply .vddqDdr else .vss
  if row ≤ 10 then
    if col ≤ 10 then corner cornerNW row col
    else if 63 ≤ col then corner cornerNE row (73 - col)
    else netBall false row col
  else if 63 ≤ row then
    if col ≤ 10 then corner cornerSW (73 - row) col
    else if 63 ≤ col then corner cornerSE (73 - row) (73 - col)
    else netBall true (73 - row) col
  else if col ≤ 10 then drvBall true row col
  else if 63 ≤ col then drvBall false row (73 - col)
  else if row ≤ 22 then
    match ddrBand col with
    | some (k, c) => ddrBall k (row - 10) c
    | none => gap
  else if 51 ≤ row then
    match ddrBand col with
    | some (k, c) => ddrBall (4 + k) (row - 50) c
    | none => gap
  else if col ≤ 22 then
    if 29 ≤ row ∧ row ≤ 44 then ddrBall 3 (col - 10) (row - 28) else gap
  else if 51 ≤ col then
    if 29 ≤ row ∧ row ≤ 44 then ddrBall 7 (col - 50) (row - 28) else gap
  else if (row + col) % 2 = 1 then
    .supply (if row = 23 ∨ row = 24 ∨ row = 49 ∨ row = 50 then .vddSram else .vddCore)
  else .vss

/-- Balls of a row that satisfy a test. -/
def rowCount (p : Ball → Bool) (row : Nat) : Nat := ((List.range 72).filter (fun c => p (ballAt row (c + 1)))).length

/-- Balls of the package that satisfy a test. -/
def ballCount (p : Ball → Bool) : Nat := ((List.range 72).map (fun r => rowCount p (r + 1))).sum

/-- A ball that carries a signal. -/
def Ball.isSignal : Ball → Bool
  | .vss | .supply _ | .reserved _ => false
  | .net .. | .drv .. | .ddr .. | .pin _ => true

end Sys2Proof.Machine
end

