-- ==== Sys2Proof/Safety.lean ====
section
/-! DEFINITION. What the statements speak of: which parts of the device a command leaves as they were, the conditions that must hold in every
state, and when a command finds the device ready for it. -/

namespace Sys2Proof.Machine.Safety

/-- The groups of commands by what they may change. -/
inductive Group where
  | edge  -- network edge, fabric and Parity Units
  | transport  -- transport and connections
  | queuePairs  -- timers and windows of queue pairs, QP_REVOKE, CM_RTU
  | hosts  -- host commands
  | hostWindows  -- host windows
  | writes  -- the write path and drive commands
  | driveCommands  -- drive commands of the write path
  | upkeep  -- folding, replay, repair and the map
  | adjustments  -- checkpoint starts, folding and repair pace
  | journal  -- the Hatbox journal
  | ringUpkeep  -- the ring and its self-test
  | mapCache  -- the Map Cache
  | movers  -- the Data Movers
  | mailbox  -- mailbox channels, health and keys
  | channels  -- mailbox channels and health
  | objects  -- pool, volume, drive and firmware requests
  | queries  -- object requests that start no work of the write path
  | telemetry  -- telemetry
  | feeds  -- feeds and Gloves
  | bays  -- drive slots and power domains
  | slotSteps  -- single steps of a slot or a domain
  | starts  -- ES_LEVEL_SET
  | startSteps  -- steps of a start, rails and clocks
  | endpoint  -- the service endpoint
  | registers  -- REGISTER_WRITE and REG_WRITE
  | diagnostics  -- REG_READ and SELF_TEST
  | restarts  -- what may restart the device
deriving DecidableEq, Repr

/-- The group of a command. -/
def groupOf : Instr → Group
  | .netLinkChange _ _ | .arpRequest _ _ _ | .neighbourSolicitation _ _ _ | .echoRequest _ _ _ _ | .ptpMessage _ _ | .controlFrame _ _ _ _
  | .pfcFrame _ _ _ | .unreliableDatagram _ _ | .xon _ _ | .pfcStormEgress _ _ | .pfcStormIngress _ _ | .pfcWatchdogRestore _ _ _
  | .ptpTxtsPop | .gidSelect _ | .gidCommit _ | .cellAdmission _ _ | .cellDepart _ _ | .accumulatorBind _ | .accumulatorCell _ _ _ _ _ _ => .edge
  | .badFrame _ _ _ | .cmReq _ | .cmDreq _ | .cmDrep _ | .sqdTimeout _ | .errorStateTimeout _ | .sendPacket _ | .rdmaWritePacket _
  | .readResponsePacket _ | .ackPacket _ _ | .sequenceErrorNak _ _ | .rnrNak _ _ _ | .errorNak _ _ | .invalidRequest _ _
  | .contextFetchDone _ _ | .retransmissionTimeout _ | .revokeTimeout _ | .cmRej _ => .transport
  | .cmRtu _ | .ackCoalesceTimer _ | .rnrTimer _ | .resequenceGapTimeout _ | .readResponseGapTimeout _ | .pathProbe _ _ | .baseWindowRoll _
  | .qpRevoke _ => .queuePairs
  | .capsule _ _ | .flush _ _ | .write _ _ | .read _ _ | .writeZeroes _ _ | .deallocate _ _ | .identify _ | .getErrorLog _
  | .restartQueue _ | .restartComplete _ _ | .regionRegister _ | .regionRelease _ | .reset _ | .resetTimeout _ | .authSend _ _
  | .authReceive _ | .authTimeout _ | .eventWait _ | .disconnect _ | .commandCompletion _ | .connectionLingerExpiry _ | .holdStart
  | .holdRelease | .nvmfConnect _ _ _ _ | .propertyGet _ | .propertySet _ | .authenticationSend _ _ | .authenticationReceive _
  | .nvmfDisconnect _ _ | .nvmfIdentify _ | .getLogPage _ | .setFeatures _ | .getFeatures _ | .asynchronousEventRequest _ | .keepAlive _
  | .keepAliveExpiry _ | .abort _ | .nvmfFlush _ _ | .nvmfWrite _ _ | .nvmfRead _ _ | .nvmfWriteZeroes _ _ | .datasetManagement _ _ _ => .hosts
  | .writeCapWindow | .holdWindowEnd => .hostWindows
  | .stripeAllocate _ _ | .cellReadTimeout _ | .nvmeWriteComplete _ _ _ | .nvmeReadComplete _ _ _ _ | .nvmeFlushComplete _ | .writeAck _ _
  | .undeliveredNotice _ _ _ _ | .stripeLockGrant _ _ _ | .inplaceWriteIssue _ _ | .readAroundTimer _ _ | .driveCommandTimeout _ _
  | .driveLinkDownTimeout _ | .controllerFatalStatus _ | .controllerResetTimeout _ | .accumulatorTimeout _ => .writes
  | .pullReadIssue _ _ | .driveWriteIssue _ _ _ | .driveCellRead _ _ _ _ _ | .nvmeFlushSubmit _ | .headerRingWrite _ | .logRecordIssue _ _
  | .intentClose _ _ | .latencyWindow => .driveCommands
  | .foldStripe _ _ | .reclaimBand _ _ | .bandFree _ _ | .rotationStep _ _ | .replay _ _ | .repairStripe _ _ | .latencyDriftWindow
  | .evacuationStart _ _ | .evacBand _ _ | .scrubStripe _ _ _ _ | .bandConvert _ _ _ | .checkpointRoot _ | .leafPageIn _ _
  | .nodeRebuild _ _ _ | .mapRootLoad _ => .upkeep
  | .foldWatermarkAdjust _ | .repairPaceAdjust _ | .checkpointStart _ | .checkpointFree _ => .adjustments
  | .hatboxRecordAccept _ | .mramWriteComplete _ _ _ | .journalPageIssue _ | .copyMemberEvict _ _ | .epochOpen _ _ | .epochCommit _
  | .hatboxDieFault | .forceDriveJournal => .journal
  | .remapCopyDone _ | .watermark _ | .lagStall _ | .hbxSelftestStart | .hbxSelftestDone _ | .poolTailAdvance _ _ => .ringUpkeep
  | .mapCacheLoad _ _ _ | .mapCacheStore _ _ | .mapCacheFill _ | .writeThroughDrain _ | .invalidate _ _ | .prefetch _ | .lock _ | .unlock _
  | .verify _ | .rangeOpComplete _ | .cacheDisable | .diagWindowAccess _ _ => .mapCache
  | .fabricPortDown _ | .shadowWrite _ _ _ | .shadowArm _ _ | .disarm _ | .stop _ | .stopDrained _ | .clear _ | .shadowHandOver _
  | .nextFetch _ _ | .moverReadGrant _ | .moverDataReturn _ _ | .descriptorComplete _ | .completionTimeout _ => .movers
  | .keyLoad _ | .keyRotate _ => .mailbox
  | .doorbellRing _ | .doorbellAck _ | .entdaa _ | .mctpMessage _ _ _ | .setEndpointId _ | .getEndpointId | .getMctpVersionSupport
  | .getMessageTypeSupport | .getVendorDefinedMessageSupport | .inbandDatagram _ _ _ _ | .mailboxIdentify _ | .getOperation _
  | .getEvents _ | .kekSession _ | .kekSessionLapse _ | .kekLoad _ | .keyUnload _ | .hostSecretSet _ | .inbandSecretSet _ | .healthReport _ => .channels
  | .operationEnd _ | .poolCreate _ | .poolImport _ _ | .poolSet _ | .lossAck _ | .volumeCreate _ | .volumeDelete _ | .volumeSet _
  | .volumeAccess _ | .driveAdmit _ _ | .driveFail _ | .driveEvacuate _ | .activationAdopt => .objects
  | .poolExport _ | .poolDelete _ | .poolQuery _ | .poolConvert _ | .lossRead _ | .volumeQuery _ | .driveInventory _ | .driveRelease _
  | .policyGet _ | .policySet _ | .fwDownload _ | .fwVerify _ | .fwStatus _ | .fwCommit _ | .rollbackRaise _ => .queries
  | .counterRead _ | .dumpConfig _ | .sampleConfig _ | .pf1DumpWrite | .counterWrap _ _ | .snapshotPeriodic | .snap | .dumpWriteComplete _
  | .frameSampleExport => .telemetry
  | .feedStatus _ | .crownHandover _ | .gloveAlive _ | .feedConversion _ _ _ _ _ _ _ _ _ | .feedStateChange _ | .gloveFrameSend _
  | .gloveFrameReceive _ _ _ | .linkLost _ | .linkUp _ | .leaseExpiry _ | .crownWaitExpiry _ | .gateFbTimeout _ | .gateReraise _
  | .interlockConflict | .conflictClear | .deadTimeExpiry | .senseWireTest _ _ | .adcReferenceTest _ _ | .adcAgreementTest
  | .oscTimebaseTest _ _ | .standbyRailTest _ _ | .interlockTest _ _ | .crownCmdHandover _ => .feeds
  | .domainSwitch | .domainPowerGoodTimeout _ | .driveEnumeration _ _ | .sgFrame _ _ | .driveLinkTraining _ _ | .criticalWarning _ _ => .bays
  | .slotPower _ | .domainRequest _ | .presenceDebounce _ | .perstRelease _ | .sidebandRead _ _ => .slotSteps
  | .esLevelSet _ => .starts
  | .feedOkRestart | .railSequenceStart | .railPgRise _ | .railRetry | .sysRstNRelease | .bootRom | .imageCheck | .ddrTrainingDone
  | .networkBringUp | .ledgerRead | .bootWdogDone | .bootWdogKick | .wdogWarn | .referenceReturn | .lastTimeUpdate | .timeSet _
  | .timeAdj _ _ | .thermtrip _ => .startSteps
  | .sepLinkTraining _ _ | .bar0Request _ _ | .bar2Request _ _ | .masterEnableClear _ | .functionLevelReset _ | .flrReady _ | .d3hotEntry _
  | .winCommit _ | .windowDrainDone _ | .pf0Raise _ | .sepLinkDown _ | .masterEnableSet _ | .d0Return _ => .endpoint
  | .registerWrite _ _ _ _ _ _ | .regWrite _ => .registers
  | .regRead _ | .selfTest _ _ => .diagnostics
  | .pairMismatch _ | .fwActivate _ | .activationTimeout | .softReset _ | .powerGoodFall _ | .railPgTimeout _ | .sysRstNAssert
  | .startSelfTest _ | .warmStartDrainTimeout | .watchdogExpiry | .clockLoss _ | .pllLockLost _ | .gloveLoss _ => .restarts

/-- SYS_DECODE_LOG as it was. -/
def keepsDecodeLog (s t : State) : Prop :=
  t.decValid = s.decValid ∧ t.decCount = s.decCount ∧ t.decSrc = s.decSrc ∧ t.decAddr = s.decAddr

/-- Every stored register as it was but those picked. -/
def keepsRegsBut (p : Reg → Bool) (s t : State) : Prop :=
  ∀ r, (∀ q, p q = true → regAddr r ≠ regAddr q) → bankGet t r = bankGet s r

/-- The part of every state that steps keep in order: memory in canonical form, the undecoded-access count and every counter inside its
field, and no more than 1,024 management events (R286, R357, R388). -/
def inv (s : State) : Bool :=
  memWf s.mem && decide (s.decCount ≤ 127) && s.tel.ctrs.all (fun e => decide (e.2.value < 2 ^ 48)) && decide (s.ctl.events.length ≤ 1024)

/-- A counter that counts by ones without wrapping: it is no high half of a chain and lies below its largest value (R357 to R359). -/
def counts (s : State) (n : Nat) : Bool := !(ctrHigh s.tel.ctrs n) && decide ((ctrOf s.tel.ctrs n).value + 1 < 2 ^ 48)

/-- The boot watchdog does not run or has not expired (R330). -/
def wdogInTime (s : State) : Bool := !(s.boot.wdogRunning) || decide (nowOf s < s.boot.wdogFrom + s.boot.wdogLoad * 1000000000)

/-- The value of a counter. -/
def counted (s : State) (n : Nat) : Nat := (ctrOf s.tel.ctrs n).value

/-- A packet that arrives for a queue pair runs at once: its port's link is up, the engine is enabled, no watchdog drops it,
its state takes the packet, and its context is cached with nothing waiting for it (R205, R206). -/
def packetRuns (s : State) (i : Nat) (request : Bool) : Bool :=
  match qpAt s i with
  | some q =>
    (netPortAt s q.lane).link && flag s .qpCtrl 0 && (q.state == .rts || q.state == .sqd || (q.state == .rtr && request))
      && q.cached && q.waiting.isEmpty && decide (q.lane < 64) && !((List.range 8).any (ingressDrops s q.lane))
  | none => false

/-- The rate of a queue pair holds no data back now: congestion control is off, or what was sent has had its time (R216). -/
def paceFree (s : State) (q : Qp) : Bool := !(flag s .qpCtrl 2) || decide (q.paceAt ≤ nowOf s)

/-- What a sequence-error NAK leaves unacknowledged, since it acknowledges what precedes its PSN, and the retries then left: all of them again
where it acknowledged something (R209). -/
def nakLeft (q : Qp) (psn : Nat) : List TxMsg := q.unacked.filter (fun m => !(psnGe (psnAdd psn (2 ^ 24 - 1)) (psnAdd m.psn (m.packets - 1))))
def nakRetries (q : Qp) (psn : Nat) : Nat := if (nakLeft q psn).length = q.unacked.length then q.retryLeft else q.retryCount

/-- The head of a queue is a command that `op` picks, of the queue's protocol and version, and it may start (R237, R240, R252). -/
def headReady (s : State) (c q : Nat) (nvme : Bool) (op : SubEntry → Bool) : Bool :=
  match connAt s c, headOf s c q with
  | some k, some h => k.nvme == nvme && op h.e && opKnown k q h.e && !(logStalled s c) && mayStart s c q
  | _, _ => false

/-- The state in which that head has started, and its command slot (R240). -/
def started (s : State) (c q : Nat) : State := (startHead s c q).1
def slotOf (s : State) (c q : Nat) : Nat := (startHead s c q).2

/-- An admin command of MSP that may start and that the checks before its own let pass: the connection is authenticated where that is
required, no reserved bit is set, and its data mode is the command's (R237, R257). -/
def adminReady (s : State) (c op mode : Nat) : Bool :=
  headReady s c 0 false (fun e => e.opcode == op && e.reservedOk && e.dataMode == mode)
    && (((connAt s c).map (fun k => !(authPending s k))).getD false)

/-- An admin or Fabrics command of NVMe-oF that may start on a queue that has had its Connect (R258, R259). -/
def nvReady (s : State) (c q : Nat) (op : SubEntry → Bool) : Bool :=
  headReady s c q true op && nvConnected s c q && (((connAt s c).map (fun k => !(authPending s k))).getD false)

/-- A request of a mailbox channel that its row executes now: the complex is enabled, the channel holds a request with that opcode and no
generation, nothing older holds it up, and Safe Mode lets its group run (R272 to R274). -/
def mbxReady (s : State) (ch op : Nat) : Bool :=
  flag s .ctlCtrl 0 && (chanAt s ch).state == .busy && reqOpcode (chanAt s ch).req == op && reqGen (chanAt s ch).req == 0
    && !(mbxWaits s (chanAt s ch)) && !(s.ctl.safeMode && !(safeGroup (op / 256)))

/-- The payload of a channel's request. -/
def payOf (s : State) (ch : Nat) : Bytes := reqPay (chanAt s ch).req

end Sys2Proof.Machine.Safety
end

