-- ==== Sys2Proof/Certificates/Slice0/Obligations.lean ====
section
/-! DEFINITION. The statements for the provers. -/

open Sys2Proof Sys2Proof.Machine

/-- What the network edge does on a link change and with the frames it answers itself. Rests on R196, R197, R198, Table 7.2. -/
def Obligations.NetworkLinkAndAnswers : Prop :=
  -- a link that comes up
  (∀ (lane : Nat) (s : State),
    lane < 64 → (netPortAt s lane).link = false → linkAllowed s lane = true →
      ∃ t, exec (.netLinkChange lane true) s = .next t ∧ (netPortAt t lane).link = true ∧ flag t .netEvent 0 = true) ∧
  -- ARP
  (∀ (lane : Nat) (target : BitVec 128) (mac : BitVec 48) (s : State),
    lane < 64 → (netPortAt s lane).link = true → isV4 target = true → portGid s lane target = true →
      ∃ t, exec (.arpRequest lane target mac) s = .next t ∧ t.out = .arpReply lane target (portMac s lane) :: s.out) ∧
  -- neighbour solicitation
  (∀ (lane : Nat) (target : BitVec 128) (mac : BitVec 48) (s : State),
    lane < 64 → (netPortAt s lane).link = true → isV4 target = false → portGid s lane target = true →
      ∃ t, exec (.neighbourSolicitation lane target mac) s = .next t ∧ t.out = .neighbourAdvert lane target (portMac s lane) :: s.out) ∧
  -- echo within 1,000 a second
  (∀ (lane : Nat) (target : BitVec 128) (v6 : Bool) (payload : Bytes) (s : State),
    (netPortAt s lane).link = true → isV4 target = !v6 → portGid s lane target = true →
    (rateWindow (netPortAt s lane).echoWin (nowOf s) 1000).2 = true → lane < 64 →
      ∃ t, exec (.echoRequest lane target v6 payload) s = .next t ∧ t.out = .echoReply lane target payload :: s.out) ∧
  -- PTP, with the stamp of its reception
  (∀ (lane : Nat) (frame : Bytes) (s : State),
    (netPortAt s lane).link = true →
      ∃ t, exec (.ptpMessage lane frame) s = .next t ∧ t.out = .toControl lane (nowOf s) frame :: s.out) ∧
  -- a control frame within 10,000 a second
  (∀ (lane : Nat) (lldp : Bool) (target : BitVec 128) (frame : Bytes) (s : State),
    lane < 64 → (netPortAt s lane).link = true → (lldp || portGid s lane target) = true →
    (rateWindow (netPortAt s lane).ctlWin (nowOf s) 10000).2 = true →
      ∃ t, exec (.controlFrame lane lldp target frame) s = .next t ∧ t.out = .toControl lane (nowOf s) frame :: s.out) ∧
  -- a frame with a bad FCS, ICRC or length
  (∀ (lane : Nat) (fault : FrameFault) (s : State),
    lane < 64 → (netPortAt s lane).link = true → fault ≠ .notAccepted → Safety.counts s (0x200 + lane) = true →
    Safety.counts s (0x280 + lane) = true →
      ∃ t, exec (.badFrame lane fault none) s = .next t ∧ Safety.counted t (0x280 + lane) = Safety.counted s (0x280 + lane) + 1) ∧
  -- a datagram for no management queue pair
  (∀ (lane qpn : Nat) (s : State),
    lane < 64 → (netPortAt s lane).link = true → qpn ≠ 1 → Safety.counts s (0x200 + lane) = true →
    Safety.counts s (0x3C0 + lane) = true →
      ∃ t, exec (.unreliableDatagram lane qpn) s = .next t ∧ Safety.counted t (0x3C0 + lane) = Safety.counted s (0x3C0 + lane) + 1)

/-- PFC pauses, releases and watchdogs, the transmit-stamp FIFO and the GID table. Rests on R199, R200, R201, R198, Table 7.13, Table 7.15. -/
def Obligations.PriorityFlowControlAndStamps : Prop :=
  -- PFC
  (∀ (lane i : Nat) (enabled : BitVec 8) (quanta : List Nat) (s : State),
    lane < 64 → i < 8 → (netPortAt s lane).link = true → enabled.getLsbD i = true →
    bits (bankGet s (.netPortCtrl (portOfLane s lane))) 31 24 / 2 ^ i % 2 = 1 →
    ((tget (netPortAt s lane).prios i).getD {}).egressWdAt = none →
      ∃ t, exec (.pfcFrame lane enabled quanta) s = .next t ∧
      ((tget (netPortAt t lane).prios i).getD {}).pausedUntil =
        (if (quanta[i]?).getD 0 = 0 then 0 else nowOf s + quantaNs s lane ((quanta[i]?).getD 0))) ∧
  -- XON
  (∀ (lane prio : Nat) (s : State),
    ((tget (netPortAt s lane).prios prio).getD {}).xoffFrom.isSome = true →
      ∃ t, exec (.xon lane prio) s = .next t ∧ t.out = .pause (portOfLane s lane) prio false :: s.out ∧
      ((tget (netPortAt t lane).prios prio).getD {}).xoffFrom = none) ∧
  -- egress watchdog
  (∀ (lane prio from_ : Nat) (s : State),
    ((tget (netPortAt s lane).prios prio).getD {}).pausedFrom = some from_ →
    ((tget (netPortAt s lane).prios prio).getD {}).egressWdAt = none → fld s .netWdogCfg 15 0 ≠ 0 →
    from_ + 1000000 * fld s .netWdogCfg 15 0 ≤ ((tget (netPortAt s lane).prios prio).getD {}).pausedUntil →
      ∃ t, exec (.pfcStormEgress lane prio) s = .next t ∧ flag t .netEvent 2 = true ∧
      ((tget (netPortAt t lane).prios prio).getD {}).egressWdAt = some (max (nowOf s) (from_ + 1000000 * fld s .netWdogCfg 15 0))) ∧
  -- ingress watchdog
  (∀ (lane prio from_ : Nat) (s : State),
    ((tget (netPortAt s lane).prios prio).getD {}).xoffFrom = some from_ →
    ((tget (netPortAt s lane).prios prio).getD {}).ingressWdAt = none → fld s .netWdogCfg 31 16 ≠ 0 →
      ∃ t, exec (.pfcStormIngress lane prio) s = .next t ∧ flag t .netEvent 3 = true ∧
      ((tget (netPortAt t lane).prios prio).getD {}).ingressWdAt = some (max (nowOf s) (from_ + 1000000 * fld s .netWdogCfg 31 16))) ∧
  -- restore
  (∀ (lane prio at_ : Nat) (s : State),
    ((tget (netPortAt s lane).prios prio).getD {}).egressWdAt = some at_ →
      ∃ t, exec (.pfcWatchdogRestore lane prio true) s = .next t ∧ ((tget (netPortAt t lane).prios prio).getD {}).egressWdAt = none ∧
      nowOf t = max (nowOf s) (at_ + 1000000 * fld s .netWdogCfg 47 32)) ∧
  -- the oldest stamp
  (∀ (e : TxStamp) (r : List TxStamp) (s : State),
    s.net.stamps = e :: r →
      exec .ptpTxtsPop s =
      .next { s with net := { s.net with stamps := r, popValid := true, popTag := e.tag, popPort := e.port, popTime := e.time } }) ∧
  -- selection
  (∀ (value : Word) (s : State),
      ∃ t, exec (.gidSelect value) s = .next t ∧ bankGet t .netGidSel = value &&& 0x3FF ∧
      (flag t .netGidAttr 16 = ((tget ((tget s.net.ports (bits value 9 4)).getD {}).gids (bits value 3 0)).getD {}).valid)) ∧
  -- commit
  (∀ (value : Word) (s : State),
      ∃ t, exec (.gidCommit value) s = .next t ∧ ((tget ((tget t.net.ports (fld s .netGidSel 9 4)).getD {}).gids (fld s .netGidSel 3 0)) =
      some { addr := BitVec.ofNat 128 ((bankGet s .netGidAddrHi).toNat * 2 ^ 64 + (bankGet s .netGidAddrLo).toNat),
             valid := bit value 16, vlanEn := bit value 12, vlanId := BitVec.ofNat 12 (bits value 11 0) }))

/-- Cells are admitted, depart and are flushed; accumulators are bound, filled and time out. Rests on R178, R182, R183, R187, R190, R191. -/
def Obligations.FabricCellsAndAccumulators : Prop :=
  -- admission
  (∀ (input q : Nat) (c : Cell) (s : State),
    s.fab.waiting = [] → headerOk c.hdr = true → c.hdr.poison = false → c.hdr.targets = [q] → portUp s q = true →
    admits s q 1 = true → (outPort s q).frames.all (fun f => !f.discard) = true →
      ∃ t, exec (.cellAdmission input c) s = .next t ∧ (outPort t q).cells = (outPort s q).cells ++ [{ id := s.fab.nextId, cell := c }]) ∧
  -- departure
  (∀ (q prio left rr : Nat) (c : QCell) (s : State),
    64 ≤ q → s.fab.waiting = [] → pickCell s q = some (c, prio, left, rr) →
      ∃ t, exec (.cellDepart q .ok) s = .next t ∧ (outPort t q).cells = (outPort s q).cells.filter (fun x => x.id != c.id) ∧
      ∃ o, t.out.head? = some (.cellOut q o) ∧ o.payload = c.cell.payload) ∧
  -- port down
  (∀ (q : Nat) (s : State),
    q < 160 → s.fab.waiting = [] → portUp s q = true →
      ∃ t, exec (.fabricPortDown q) s = .next t ∧ portUp t q = false ∧ (outPort t q).cells = [] ∧ flag t .fabEvent 0 = true) ∧
  -- binding
  (∀ (b : AccBind) (s : State),
    s.par.waiting = [] → flag s .parCtrl (b.acc / 512) = true → thas s.par.accs b.acc = false →
    admits s (136 + b.acc / 512) (2 * b.stripBytes / 256) = true →
      ∃ t, exec (.accumulatorBind b) s = .next t ∧ tget t.par.accs b.acc = some { bind := b, boundAt := nowOf s, expected := accExpected b }) ∧
  -- a cell
  (∀ (i position offset : Nat) (isNew poison : Bool) (payload : Bytes) (a : Acc) (s : State),
    tget s.par.accs i = some a → a.done = false → a.seen + 1 < a.expected →
      ∃ t, exec (.accumulatorCell i position offset isNew poison payload) s = .next t ∧
      tget t.par.accs i = some { a with seen := a.seen + 1, poisoned := a.poisoned || poison,
                                        cells := a.cells ++ [{ position := position, offset := offset, isNew := isNew, payload := payload }] }) ∧
  -- the last cell
  (∀ (i position offset : Nat) (isNew : Bool) (payload : Bytes) (a : Acc) (s : State),
    tget s.par.accs i = some a → a.done = false → a.seen + 1 = a.expected → a.poisoned = false →
      exec (.accumulatorCell i position offset isNew false payload) s = .next (completeAcc s i
      { a with seen := a.seen + 1, cells := a.cells ++ [{ position := position, offset := offset, isNew := isNew, payload := payload }] })) ∧
  -- a cell too many
  (∀ (i position offset : Nat) (isNew poison : Bool) (payload : Bytes) (a : Acc) (s : State),
    tget s.par.accs i = some a → a.done = true →
      ∃ t, exec (.accumulatorCell i position offset isNew poison payload) s = .next t ∧ flag t .parEvent 1 = true ∧
      tget t.par.accs i = some { a with seen := a.seen + 1, poisoned := true }) ∧
  -- time-out of an accumulator of no unit, and of one
  (∀ (i : Nat) (a : Acc) (s : State),
    s.par.waiting = [] → tget s.par.accs i = some a → a.done = false →
    s.pools.all (fun e => e.2.units.all (fun u => u.2.acc != some i)) = true →
      ∃ t, exec (.accumulatorTimeout i) s = .next t ∧ t.par.accs = tdel s.par.accs i ∧ flag t .parEvent 0 = true) ∧
  (∀ (i pi w : Nat) (a : Acc) (s : State),
    tget s.par.accs i = some a → a.done = false →
    s.pools.findSome? (fun e => (e.2.units.find? (fun u => u.2.acc == some i)).map (fun u => (e.1, u.1))) = some (pi, w) →
      exec (.accumulatorTimeout i) s = .next (redrive (accTimeout s i a) pi w))

/-- What each packet does to the queue pair it arrives for. Rests on R207, R208, R209, R213, R214, R215, R224. -/
def Obligations.PacketsRunOnTheirQueuePair : Prop :=
  -- SEND
  (∀ (p : Pkt) (q : Qp) (s : State),
    qpAt s p.qp = some q → Safety.packetRuns s p.qp true = true → p.psn = q.epsn → q.accepted = [] →
      ∃ x, exec (.sendPacket p) s = .next (settleHost x) ∧ (qpAt x p.qp).map (·.epsn) = some (psnAdd q.epsn 1) ∧
        (p.first = true → p.last = true → (qpAt x p.qp).map (·.delivered) = some (q.delivered ++ [p.payload]))) ∧
  -- RDMA WRITE into a region with room
  (∀ (p : Pkt) (q : Qp) (idx : Nat) (s : State),
    qpAt s p.qp = some q → Safety.packetRuns s p.qp true = true → p.psn = q.epsn → q.accepted = [] →
    writeRegion s q p = some idx →
    pageFault s q (pagesNeeded (regionAt s idx) (p.va - (regionAt s idx).base) p.payload.length).length = false →
      ∃ x, exec (.rdmaWritePacket p) s = .next (settleHost x) ∧ (qpAt x p.qp).map (·.epsn) = some (psnAdd q.epsn 1)) ∧
  -- READ response
  (∀ (p : Pkt) (q : Qp) (s : State),
    qpAt s p.qp = some q → Safety.packetRuns s p.qp false = true →
      exec (.readResponsePacket p) s = .next (settleHost (readRespPkt (touchQp (frameIn s q.lane) p.qp) p.qp p))) ∧
  -- ACK
  (∀ (i psn : Nat) (q : Qp) (s : State),
    qpAt s i = some q → Safety.packetRuns s i false = true → q.state = .rts →
      ∃ x, exec (.ackPacket i psn) s = .next (settleHost x) ∧
        (qpAt x i).map (·.unacked) = some (q.unacked.filter (fun m => !(psnGe psn (psnAdd m.psn (m.packets - 1)))))) ∧
  -- NAK for a sequence error
  (∀ (i psn : Nat) (q : Qp) (s : State),
    qpAt s i = some q → Safety.packetRuns s i false = true → q.state = .rts → sentPsn q psn = true → Safety.nakRetries q psn ≠ 0 →
    sendsNow s q.lane = true → Safety.paceFree s q = true →
      ∃ x h, exec (.sequenceErrorNak i psn) s = .next (settleHost x) ∧
        x.out = .roce h (.retransmit i psn (resendFrom { q with unacked := Safety.nakLeft q psn } psn)) :: s.out ∧
        (qpAt x i).map (fun r => (r.unacked, r.retryLeft)) = some (Safety.nakLeft q psn, Safety.nakRetries q psn - 1)) ∧
  -- RNR NAK
  (∀ (i psn ns : Nat) (q : Qp) (s : State),
    qpAt s i = some q → Safety.packetRuns s i false = true → sentPsn q psn = true → q.rnrCount = 7 →
      ∃ x, exec (.rnrNak i psn ns) s = .next (settleHost x) ∧ (qpAt x i).map (·.rnrUntil) = some (some (nowOf s + ns, psn))) ∧
  -- error NAK
  (∀ (i code : Nat) (q : Qp) (s : State),
    qpAt s i = some q → Safety.packetRuns s i false = true → (code = 1 ∨ code = 2 ∨ code = 3) →
      ∃ x, exec (.errorNak i code) s = .next (settleHost x) ∧ (qpAt x i).map (·.state) = some .error ∧ flag x .qpEvent 0 = true) ∧
  -- invalid request
  (∀ (i psn : Nat) (q : Qp) (s : State),
    qpAt s i = some q → Safety.packetRuns s i true = true → psn = q.epsn →
      ∃ x, exec (.invalidRequest i psn) s = .next (settleHost x) ∧ (qpAt x i).map (·.state) = some .error ∧ flag x .qpEvent 0 = true)

/-- What the transport timers, the context fetch and the revoke commands do when they fall due. Rests on R206, R208, R209, R213, R214, R216, R217, R222, R223, R199, R200. -/
def Obligations.TransportTimersAndRevokes : Prop :=
  -- context fetch
  (∀ (i : Nat) (q : Qp) (s : State),
    qpAt s i = some q → s.rdma.fetches.contains i = true → q.waiting = [] →
      ∃ x, exec (.contextFetchDone i true) s = .next (settleHost x) ∧ (qpAt x i).map (·.cached) = some true) ∧
  -- coalescing
  (∀ (i : Nat) (q : Qp) (from_ : Nat) (s : State),
    qpAt s i = some q → q.oldestUnacked = some from_ → sendsNow s q.lane = true →
      ∃ t, exec (.ackCoalesceTimer i) s = .next t ∧ t.out =
        .roce (roceHdr s q.lane (.ack i (pathSport i q 0) (psnAdd q.epsn (2 ^ 24 - 1)))) (.ack i (pathSport i q 0) (psnAdd q.epsn (2 ^ 24 - 1))) :: s.out ∧
        nowOf t = max (nowOf s) (from_ + fld s .qpAckCfg 15 0)) ∧
  -- coalescing while the peer pauses
  (∀ (i : Nat) (q : Qp) (from_ : Nat) (s : State),
    qpAt s i = some q → q.oldestUnacked = some from_ → s.txWait = [] → (netPortAt s q.lane).link = true →
    netDiscards s q.lane = false → netPaused (reach s (from_ + fld s .qpAckCfg 15 0)) q.lane = true →
      ∃ t, exec (.ackCoalesceTimer i) s = .next t ∧ t.out = s.out ∧ t.txWait = [(q.lane, 1, .ack i (pathSport i q 0) (psnAdd q.epsn (2 ^ 24 - 1)))]) ∧
  -- coalescing while the link is down
  (∀ (i : Nat) (q : Qp) (from_ : Nat) (s : State),
    qpAt s i = some q → q.oldestUnacked = some from_ → s.txWait = [] → (netPortAt s q.lane).link = false →
      ∃ t, exec (.ackCoalesceTimer i) s = .next t ∧ t.out = s.out ∧ t.txWait = []) ∧
  -- retransmission
  (∀ (i : Nat) (q : Qp) (from_ psn : Nat) (s : State),
    qpAt s i = some q → q.state = .rts → q.timerFrom = some from_ → firstUnacked q = some psn → q.retryLeft ≠ 0 →
    sendsNow s q.lane = true → Safety.paceFree s q = true →
      ∃ x h, exec (.retransmissionTimeout i) s = .next (settleHost x) ∧ x.out = .roce h (.retransmit i psn (resendFrom q psn)) :: s.out ∧
        (qpAt x i).map (·.retryLeft) = some (q.retryLeft - 1)) ∧
  -- RNR wait
  (∀ (i : Nat) (q : Qp) (until_ psn : Nat) (s : State),
    qpAt s i = some q → q.rnrUntil = some (until_, psn) → sendsNow s q.lane = true → Safety.paceFree s q = true →
      ∃ t h, exec (.rnrTimer i) s = .next t ∧ t.out = .roce h (.retransmit i psn (resendFrom q psn)) :: s.out ∧ (qpAt t i).map (·.rnrUntil) = some none) ∧
  -- gap in requests
  (∀ (i : Nat) (q : Qp) (from_ : Nat) (s : State),
    qpAt s i = some q → q.nakSent = false → q.gapFrom = some from_ → sendsNow s q.lane = true →
      ∃ t h, exec (.resequenceGapTimeout i) s = .next t ∧ t.out = .roce h (.nak i (pathSport i q 0) q.epsn 0) :: s.out ∧
        nowOf t = max (nowOf s) (from_ + 20000) ∧ (qpAt t i).map (·.nakSent) = some true) ∧
  -- gap in READ responses
  (∀ (i : Nat) (q : Qp) (r : ReadReq) (from_ : Nat) (s : State),
    qpAt s i = some q → q.reads = [r] → r.gapFrom = some from_ → r.reissued = false → sendsNow s q.lane = true →
    Safety.paceFree s q = true →
      ∃ t h, exec (.readResponseGapTimeout i) s = .next t ∧ t.out = .roce h (.readRequest i (pathSport i q (nextPath q)) (psnAdd r.psn (firstMissing r)) r.rkey
        (r.addr + firstMissing r * q.mtu) (r.bytes - firstMissing r * q.mtu)) :: s.out) ∧
  -- held to the rate
  (∀ (i : Nat) (q : Qp) (r : ReadReq) (from_ : Nat) (s : State),
    qpAt s i = some q → q.reads = [r] → r.gapFrom = some from_ → r.reissued = false → sendsNow s q.lane = true →
    flag s .qpCtrl 2 = true → from_ + 20000 < q.paceAt → nowOf s < q.paceAt →
      ∃ t, exec (.readResponseGapTimeout i) s = .next t ∧ t.out = s.out ∧ t.txWait = [(q.lane, 1, .readRequest i (pathSport i q (nextPath q)) (psnAdd r.psn (firstMissing r))
        r.rkey (r.addr + firstMissing r * q.mtu) (r.bytes - firstMissing r * q.mtu))]) ∧
  -- probe
  (∀ (i path : Nat) (q : Qp) (s : State),
    qpAt s i = some q → q.state = .rts → q.sprayed = true → ((tget q.paths path).getD {}).congested = true →
    (List.range q.txPaths).all (fun j => ((tget q.paths j).map (·.congested)).getD false) = false → sendsNow s q.lane = true →
      ∃ t h, exec (.pathProbe i path) s = .next t ∧ t.out = .roce h (.probe i path) :: s.out) ∧
  -- base window
  (∀ (i : Nat) (q : Qp) (s : State),
    qpAt s i = some q →
      ∃ t, exec (.baseWindowRoll i) s = .next t ∧
        qpAt t i = some { q with paths := q.paths.map (fun e => (e.1, { e.2 with prevMin := e.2.curMin, curMin := none })) }) ∧
  -- revoke
  (∀ (rkey : Nat) (s : State),
    revokeBusy s = false → activeKey s rkey = true →
      ∃ t, exec (.qpRevoke rkey) s = .next t ∧ (regionAt t (rkey % 2 ^ 14)).state ≠ .active) ∧
  -- revoke time-out
  (∀ (region : Nat) (s : State),
    (regionAt s region).state = .revoking →
      ∃ x, exec (.revokeTimeout region) s = .next (settleHost x) ∧ (regionAt x region).state = .free ∧ flag x .qpEvent 4 = true)

/-- What connection-management messages do to queue pairs. Rests on R204, R205, R224, R225, R228, R229, R264. -/
def Obligations.ConnectionManagement : Prop :=
  -- held
  (∀ (r : CmReq) (s : State),
    r.lane < 64 → sendsNow s r.lane = true → ingressDrops s r.lane (rxPrio s r.mark) = false → flag s .qpCtrl 0 = true →
    s.hq.hold.active = true →
      ∃ t h, exec (.cmReq r) s = .next t ∧ t.rdma.heldReqs = s.rdma.heldReqs ++ [r] ∧ t.out = .roce h (.cmMra r.lane r.gid 19) :: s.out) ∧
  -- accepted
  (∀ (r : CmReq) (m : MspPriv) (v c i : Nat) (s : State),
    r.lane < 64 → sendsNow s r.lane = true → ingressDrops s r.lane (rxPrio s r.mark) = false → flag s .qpCtrl 0 = true →
    s.ctl.activation = none → s.hq.hold.active = false → r.serviceId = 0x01060000 + fld s .qpCtrl 63 48 →
    flag s .hqCtrl 0 = true → flag s .hqCtrl 1 = true → parseMsp r.priv = m → m.magic = 0x4D53 → 16 ≤ m.queueEntries →
    m.queueId = 0 → m.connectionId = 0 → chooseVersion s m.minVersion m.maxVersion = some v → hostHasAccess s m.hostId = true →
    authRequired s m.hostId = false → freeConn s = some c → areaRoom s (min m.queueEntries 256) 0 = true →
    freeKey s.rdma.qps 0 65536 = some i →
      ∃ t h rep, exec (.cmReq r) s = .next t ∧ t.out.head? = some (.roce h (.cmRep (0x10000 + i) rep)) ∧ (qpAt t i).map (·.state) = some .rtr ∧
        (connAt t c).map (·.version) = some v) ∧
  -- RTU
  (∀ (i : Nat) (q : Qp) (s : State),
    qpAt s i = some q → q.state = .rtr →
      ∃ t, exec (.cmRtu i) s = .next t ∧ (qpAt t i).map (·.state) = some .rts) ∧
  -- REJ
  (∀ (i : Nat) (q : Qp) (s : State), qpAt s i = some q → q.state = .rtr → exec (.cmRej i) s = .next (settleHost (toReset s i))) ∧
  -- DREQ
  (∀ (i : Nat) (q : Qp) (s : State),
    qpAt s i = some q → q.state = .rts → q.unacked ≠ [] →
      ∃ x, exec (.cmDreq i) s = .next (settleHost x) ∧ (qpAt x i).map (fun r => (r.state, r.dreq)) = some (.sqd, true)) ∧
  -- DREP
  (∀ (i : Nat) (q : Qp) (s : State), qpAt s i = some q → q.state = .error → exec (.cmDrep i) s = .next (settleHost (toReset s i))) ∧
  -- SQD time-out
  (∀ (i : Nat) (q : Qp) (s : State),
    qpAt s i = some q → q.state = .sqd → q.dreq = true →
      exec (.sqdTimeout i) s = .next (settleHost (toReset (netSend (reach s (q.enteredAt + 100000000)) q.lane 1 (.cmDrep i)) i))) ∧
  -- Error time-out
  (∀ (i : Nat) (q : Qp) (s : State),
    qpAt s i = some q → q.state = .error →
      exec (.errorStateTimeout i) s = .next (settleHost (toReset (reach s (q.enteredAt + 10000000000)) i)))

/-- I/O commands of both protocols leave the head of their queue and run. Rests on R234, R236, R237, R240, R255, R259, Table 8.6, Table 8.14. -/
def Obligations.InputOutputCommandsStart : Prop :=
  -- CAPSULE
  (∀ (c q : Nat) (k : Conn) (u : Queue) (p : Qp) (b : Bytes) (r : List Bytes) (s : State),
    connAt s c = some k → queueAt s c q = some u → qpAt s u.qp = some p → p.delivered = b :: r → u.lost = false →
    u.ring.length < u.entries → u.ring.any (fun h => h.e.cid == fieldAt b 2 2) = false →
    (queueCmds s c q).any (fun e => e.2.e.cid == fieldAt b 2 2) = false →
      ∃ y, exec (.capsule c q) s = .next (settleHost y) ∧ (queueAt y c q).map (·.ring.length) = some (u.ring.length + 1) ∧
        (qpAt y u.qp).map (·.delivered) = some r) ∧
  -- FLUSH
  (∀ (c q : Nat) (h : Capsule) (s : State),
    Safety.headReady s c q false (fun e => e.opcode == 0) = true → headOf s c q = some h → h.e.reservedOk = true →
    h.e.dataMode = 0 → 2 ≤ esLevel s →
      ∃ y, exec (.flush c q) s = .next (settleHost y) ∧ (cmdAt y (Safety.slotOf s c q)).map (·.status) = some (some 0)) ∧
  -- WRITE
  (∀ (c q : Nat) (h : Capsule) (s : State),
    Safety.headReady (rollCap s) c q false (fun e => e.opcode == 1) = true → headOf s c q = some h →
    capHolds (rollCap s) c q = false →
      exec (.write c q) s = .next (settleHost (runWrite (chargeCap (Safety.started (rollCap s) c q) h.e) (Safety.slotOf (rollCap s) c q) h.icdGen .write))) ∧
  -- WRITE with no room in the level-3 window
  (∀ (c q : Nat) (s : State),
    Safety.headReady (rollCap s) c q false (fun e => e.opcode == 1) = true → capHolds (rollCap s) c q = true →
      exec (.write c q) s = .next (count (rollCap s) 0x557)) ∧
  -- READ
  (∀ (c q : Nat) (s : State),
    Safety.headReady s c q false (fun e => e.opcode == 2) = true →
      exec (.read c q) s = .next (settleHost (runRead (Safety.started s c q) (Safety.slotOf s c q)))) ∧
  -- WRITE_ZEROES
  (∀ (c q : Nat) (h : Capsule) (s : State),
    Safety.headReady (rollCap s) c q false (fun e => e.opcode == 8) = true → headOf s c q = some h →
    capHolds (rollCap s) c q = false →
      exec (.writeZeroes c q) s = .next (settleHost (runWrite (chargeCap (Safety.started (rollCap s) c q) h.e) (Safety.slotOf (rollCap s) c q) h.icdGen .zero))) ∧
  -- DEALLOCATE
  (∀ (c q : Nat) (h : Capsule) (s : State),
    Safety.headReady (rollCap s) c q false (fun e => e.opcode == 9) = true → headOf s c q = some h →
    capHolds (rollCap s) c q = false →
      exec (.deallocate c q) s = .next (settleHost (runWrite (chargeCap (Safety.started (rollCap s) c q) h.e) (Safety.slotOf (rollCap s) c q) h.icdGen .dealloc))) ∧
  -- COMMAND_COMPLETION
  (∀ (slot st : Nat) (k : Cmd) (s : State),
    cmdAt s slot = some k → k.status = some st → lateCommand s k = false → k.e.opcode ≠ 0 →
      exec (.commandCompletion slot) s = .next (settleHost (endCmd s slot st))) ∧
  -- COMMAND_COMPLETION once 50 ms of a RESET have passed
  (∀ (slot st : Nat) (k : Cmd) (s : State),
    cmdAt s slot = some k → k.status = some st → lateCommand s k = true → s.boot.quiesce.isSome = false →
      exec (.commandCompletion slot) s = .next (resetExpire s k.conn)) ∧
  -- NVMe-oF Flush
  (∀ (c q : Nat) (h : Capsule) (s : State),
    Safety.nvReady s c q (fun e => e.opcode == 0) = true → headOf s c q = some h → h.e.reservedOk = true → 2 ≤ esLevel s →
      ∃ y, exec (.nvmfFlush c q) s = .next (settleHost y) ∧ (cmdAt y (Safety.slotOf s c q)).map (·.status) = some (some 0)) ∧
  -- NVMe-oF Write
  (∀ (c q : Nat) (h : Capsule) (s : State),
    Safety.nvReady (rollCap s) c q (fun e => e.opcode == 1) = true → headOf s c q = some h → capHolds (rollCap s) c q = false →
      exec (.nvmfWrite c q) s = .next (settleHost (runWrite (chargeCap (Safety.started (rollCap s) c q) h.e) (Safety.slotOf (rollCap s) c q) h.icdGen .write))) ∧
  -- NVMe-oF Read
  (∀ (c q : Nat) (s : State),
    Safety.nvReady s c q (fun e => e.opcode == 2) = true →
      exec (.nvmfRead c q) s = .next (settleHost (runRead (Safety.started s c q) (Safety.slotOf s c q)))) ∧
  -- NVMe-oF Write Zeroes
  (∀ (c q : Nat) (h : Capsule) (s : State),
    Safety.nvReady (rollCap s) c q (fun e => e.opcode == 8) = true → headOf s c q = some h → capHolds (rollCap s) c q = false →
      exec (.nvmfWriteZeroes c q) s = .next (settleHost (runWrite (chargeCap (Safety.started (rollCap s) c q) h.e) (Safety.slotOf (rollCap s) c q) h.icdGen .zero))) ∧
  -- NVMe-oF Dataset Management
  (∀ (c q : Nat) (ranges : List (Nat × Nat)) (s : State),
    Safety.nvReady (rollCap s) c q (fun e => e.opcode == 9) = true →
    (esLevel s ≠ 3 ∨ (rollCap s).hq.capUnits + ranges.length ≤ 5000) →
      exec (.datasetManagement c q ranges) s = .next (settleHost (runDsm ranges (Safety.started (rollCap s) c q) (Safety.slotOf (rollCap s) c q))))

/-- What the admin commands of MSP do once their checks pass. Rests on R222, R237, R239, R248, R249, R250, R253, R256, R257, Table 8.6. -/
def Obligations.AdminCommandsOfMsp : Prop :=
  -- IDENTIFY, no rate kept
  (∀ (c : Nat) (k : Conn) (u : Queue) (h : Capsule) (x : Qp) (s : State),
    Safety.adminReady s c 0x80 2 = true → headOf s c 0 = some h → connAt s c = some k → queueAt s c 0 = some u →
    qpLive s u.qp = true → qpAt s u.qp = some x → sendsNow s x.lane = true → flag s .qpCtrl 2 = false → h.e.param0 % 256 = 0 →
    h.e.length = 4096 →
      ∃ y sport psn sport' psn' b a a', exec (.identify c) s = .next (settleHost y) ∧
        y.out = .roce a (.sendMsg u.qp sport' psn' b) :: .roce a' (.rdmaWrite u.qp sport psn h.e.rkey h.e.addr x.sprayed (identifyDevice s k)) :: s.out) ∧
  -- IDENTIFY of the volume list
  (∀ (c : Nat) (h : Capsule) (s : State),
    Safety.adminReady s c 0x80 2 = true → headOf s c 0 = some h → h.e.param0 % 256 = 2 → h.e.length = 4096 →
      ∃ k, connAt (Safety.started s c 0) c = some k ∧ exec (.identify c) s = .next (settleHost (endWith (adminData (Safety.started s c 0) c h.e
        (identifyList (Safety.started s c 0) k (h.e.param0 / 2 ^ 16 % 4096))) (Safety.slotOf s c 0) 0 0))) ∧
  -- IDENTIFY of a volume
  (∀ (c : Nat) (h : Capsule) (v : Volume) (k : Conn) (s : State),
    Safety.adminReady s c 0x80 2 = true → headOf s c 0 = some h → h.e.param0 % 256 = 1 → h.e.length = 4096 →
    volAt s (h.e.param0 / 2 ^ 16 % 4096) = some v → connAt s c = some k → opened v k = true →
      exec (.identify c) s = .next (settleHost (endWith (adminData (Safety.started s c 0) c h.e
        (identifyVolume (Safety.started s c 0) (h.e.param0 / 2 ^ 16 % 4096) v)) (Safety.slotOf s c 0) 0 0))) ∧
  -- IDENTIFY of the device
  (∀ (c : Nat) (h : Capsule) (s : State),
    Safety.adminReady s c 0x80 2 = true → headOf s c 0 = some h → h.e.param0 % 256 = 0 → h.e.length = 4096 →
      ∃ k, connAt (Safety.started s c 0) c = some k ∧ exec (.identify c) s = .next (settleHost (endWith (adminData (Safety.started s c 0) c h.e
        (identifyDevice (Safety.started s c 0) k)) (Safety.slotOf s c 0) 0 0))) ∧
  -- GET_ERROR_LOG
  (∀ (c : Nat) (k : Conn) (u : Queue) (h : Capsule) (x : Qp) (s : State),
    Safety.adminReady s c 0x81 2 = true → headOf s c 0 = some h → connAt s c = some k → queueAt s c 0 = some u →
    qpLive s u.qp = true → qpAt s u.qp = some x → sendsNow s x.lane = true → flag s .qpCtrl 2 = false → h.e.length ≠ 0 →
    h.e.length % 64 = 0 → k.log.any (fun e => decide (h.e.param0 ≤ e.seq)) = true →
      ∃ y sport psn sport' psn' b a a', exec (.getErrorLog c) s = .next (settleHost y) ∧
        y.out = .roce a (.sendMsg u.qp sport' psn' b) :: .roce a' (.rdmaWrite u.qp sport psn h.e.rkey h.e.addr x.sprayed
          (((k.log.filter (fun e => decide (h.e.param0 ≤ e.seq))).take (h.e.length / 64)).map errBytes).flatten) :: s.out) ∧
  -- RESTART_QUEUE
  (∀ (c : Nat) (k : Conn) (u : Queue) (h : Capsule) (s : State),
    Safety.adminReady s c 0x82 0 = true → headOf s c 0 = some h → connAt s c = some k → h.e.length = 0 →
    queueAt s c (h.e.param0 % 64) = some u → u.frozen = true → h.e.param0 % 64 ≠ 0 →
    k.log.any (fun e => e.queue == h.e.param0 % 64 && decide (h.e.param1 < e.seq)) = false →
      ∃ y, exec (.restartQueue c) s = .next (settleHost y) ∧
        (queueAt y c (h.e.param0 % 64)).map (·.restart) = some (u.restart ++ [(h.e.cid, h.e.param0 / 256 % 2 == 1)])) ∧
  -- its completion
  (∀ (c q cid : Nat) (discard : Bool) (rest : List (Nat × Bool)) (u : Queue) (s : State),
    queueAt s c q = some u → u.restart = (cid, discard) :: rest → (queueCmds s c q).isEmpty = true → q ≠ 0 →
      ∃ y, exec (.restartComplete c q) s = .next (settleHost y) ∧ (queueAt y c q).map (fun v => (v.frozen, v.restart)) = some (false, [])) ∧
  -- REGION_REGISTER
  (∀ (c i : Nat) (k : Conn) (h : Capsule) (s : State),
    Safety.adminReady s c 0x83 0 = true → headOf s c 0 = some h → connAt s c = some k →
    (4096 ≤ h.e.length ∧ h.e.length ≤ 2 ^ 24) → h.e.addr % 4096 = 0 → k.regions.length < 64 → i < 16384 →
    ((regionAt s i).state = .free ∧ (regionAt s i).naming = []) →
    (∀ j, j < i → ¬((regionAt s j).state = .free ∧ (regionAt s j).naming = [])) →
      ∃ y, exec (.regionRegister c) s = .next (settleHost y) ∧ (regionAt y i).state = .active ∧ (regionAt y i).base = h.e.addr ∧
        (regionAt y i).length = h.e.length ∧ (regionAt y i).conn = c) ∧
  -- REGION_RELEASE
  (∀ (c : Nat) (h : Capsule) (s : State),
    Safety.adminReady s c 0x84 0 = true → headOf s c 0 = some h → h.e.length = 0 → activeKey s (h.e.param0 % 2 ^ 32) = true →
    (regionAt s (h.e.param0 % 2 ^ 32 % 2 ^ 14)).conn = c →
      ∃ y, exec (.regionRelease c) s = .next (settleHost y) ∧ (regionAt y (h.e.param0 % 2 ^ 32 % 2 ^ 14)).state ≠ .active) ∧
  -- RESET
  (∀ (c : Nat) (h : Capsule) (s : State),
    Safety.adminReady s c 0x85 0 = true → headOf s c 0 = some h → h.e.length = 0 →
      ∃ y, exec (.reset c) s = .next (settleHost y) ∧ (connAt y c).map (·.resetCid) = some (some h.e.cid)) ∧
  -- AUTH_SEND
  (∀ (c : Nat) (msg : Bytes) (h : Capsule) (s : State),
    Safety.adminReady s c 0x86 2 = true → headOf s c 0 = some h → h.e.length ≠ 0 →
      exec (.authSend c msg) s = .next (settleHost (endWith (authMessage (Safety.started s c 0) c msg) (Safety.slotOf s c 0) 0 0))) ∧
  -- AUTH_RECEIVE
  (∀ (c : Nat) (h : Capsule) (s : State),
    Safety.adminReady s c 0x87 2 = true → headOf s c 0 = some h → h.e.length ≠ 0 →
      exec (.authReceive c) s = .next (settleHost (endWith (adminData (Safety.started s c 0) c h.e ((authReply (Safety.started s c 0) c).take h.e.length))
        (Safety.slotOf s c 0) 0 0))) ∧
  -- EVENT_WAIT
  (∀ (c : Nat) (k : Conn) (h : Capsule) (s : State),
    Safety.adminReady s c 0x88 0 = true → headOf s c 0 = some h → h.e.length = 0 → connAt s c = some k → k.pendingEvents = [] →
    (waitsOf s c).length < 4 →
      ∃ y, exec (.eventWait c) s = .next (settleHost y) ∧ (cmdAt y (Safety.slotOf s c 0)).map (·.status) = some none) ∧
  -- DISCONNECT
  (∀ (c : Nat) (h : Capsule) (s : State),
    Safety.adminReady s c 0x89 0 = true → headOf s c 0 = some h → h.e.length = 0 →
      exec (.disconnect c) s = .next (settleHost (Safety.started s c 0)))

/-- What the Fabrics and admin commands of NVMe over Fabrics do once their checks pass. Rests on R237, R256, R258, R259, Table 8.14. -/
def Obligations.AdminCommandsOfNvmeOf : Prop :=
  -- Connect
  (∀ (c : Nat) (hostId : BitVec 128) (nqn : Bytes) (s : State),
    Safety.headReady s c 0 true (isFabrics 1) = true → nvConnected s c 0 = false →
      ∃ y, exec (.nvmfConnect c 0 hostId nqn) s = .next (settleHost y) ∧ nvConnected y c 0 = true ∧ (connAt y c).map (·.hostId) = some hostId) ∧
  -- Property Get
  (∀ (c : Nat) (h : Capsule) (k : Conn) (s : State),
    Safety.nvReady s c 0 (isFabrics 4) = true → headOf s c 0 = some h → connAt s c = some k → fieldAt h.raw 44 4 = 0x1C →
      exec (.propertyGet c) s = .next (settleHost (endWith (Safety.started s c 0) (Safety.slotOf s c 0) 0 k.ctl.csts.toNat))) ∧
  -- Property Set
  (∀ (c : Nat) (h : Capsule) (k : Conn) (s : State),
    Safety.nvReady s c 0 (isFabrics 0) = true → headOf s c 0 = some h → connAt s c = some k → fieldAt h.raw 44 4 = 0x14 →
      ∃ y, exec (.propertySet c) s = .next (settleHost y) ∧ (connAt y c).map (·.ctl.cc) = some (BitVec.ofNat 32 (fieldAt h.raw 48 4))) ∧
  -- Authentication Send
  (∀ (c : Nat) (msg : Bytes) (s : State),
    Safety.nvReady s c 0 (isFabrics 5) = true →
      exec (.authenticationSend c msg) s = .next (settleHost (endWith (authMessage (Safety.started s c 0) c msg) (Safety.slotOf s c 0) 0 0))) ∧
  -- Authentication Receive
  (∀ (c : Nat) (h : Capsule) (s : State),
    Safety.nvReady s c 0 (isFabrics 6) = true → headOf s c 0 = some h →
      exec (.authenticationReceive c) s = .next (settleHost (endWith (adminData (Safety.started s c 0) c h.e
        ((authReply (Safety.started s c 0) c).take (fieldAt h.raw 44 4))) (Safety.slotOf s c 0) 0 0))) ∧
  -- Disconnect
  (∀ (c q : Nat) (u : Queue) (s : State),
    Safety.nvReady s c q (isFabrics 8) = true → queueAt s c q = some u → q ≠ 0 →
      exec (.nvmfDisconnect c q) s = .next (settleHost (disconnectQp (endWith (Safety.started s c q) (Safety.slotOf s c q) 0 0) u.qp))) ∧
  -- Identify Controller
  (∀ (c : Nat) (h : Capsule) (s : State),
    Safety.nvReady s c 0 (fun e => e.opcode == 6) = true → headOf s c 0 = some h → h.e.dataMode = 2 → h.e.length = 4096 →
    fieldAt h.raw 40 1 = 1 →
      exec (.nvmfIdentify c) s = .next (settleHost (endWith (adminData (Safety.started s c 0) c h.e (nvController (Safety.started s c 0) c))
        (Safety.slotOf s c 0) 0 0))) ∧
  -- Get Log Page, error log
  (∀ (c : Nat) (h : Capsule) (s : State),
    Safety.nvReady s c 0 (fun e => e.opcode == 2) = true → headOf s c 0 = some h → h.e.dataMode = 2 → fieldAt h.raw 40 1 = 1 →
      ∃ n, connAt (Safety.started s c 0) c = some n ∧ exec (.getLogPage c) s = .next (settleHost (endWith (adminData (Safety.started s c 0) c h.e
        (sub (nvErrLog n) (fieldAt h.raw 48 8) (min ((fieldAt h.raw 42 4 + 1) * 4) h.e.length))) (Safety.slotOf s c 0) 0 0))) ∧
  -- Set Features, asynchronous events
  (∀ (c : Nat) (h : Capsule) (s : State),
    Safety.nvReady s c 0 (fun e => e.opcode == 9) = true → headOf s c 0 = some h → fieldAt h.raw 40 1 = 0x0B →
      ∃ y, exec (.setFeatures c) s = .next (settleHost y) ∧ (connAt y c).map (·.ctl.asyncCfg) = some (fieldAt h.raw 44 4)) ∧
  -- Get Features, keep alive
  (∀ (c : Nat) (h : Capsule) (k : Conn) (s : State),
    Safety.nvReady s c 0 (fun e => e.opcode == 0x0A) = true → headOf s c 0 = some h → connAt s c = some k →
    fieldAt h.raw 40 1 = 0x0F →
      exec (.getFeatures c) s = .next (settleHost (endWith (Safety.started s c 0) (Safety.slotOf s c 0) 0 k.ctl.kato))) ∧
  -- Asynchronous Event Request
  (∀ (c : Nat) (k : Conn) (s : State),
    Safety.nvReady s c 0 (fun e => e.opcode == 0x0C) = true → connAt s c = some k → k.ctl.pendingEvents = [] →
    (aersOf s c).length < 4 →
      ∃ y, exec (.asynchronousEventRequest c) s = .next (settleHost y) ∧ (cmdAt y (Safety.slotOf s c 0)).map (·.status) = some none) ∧
  -- Keep Alive
  (∀ (c : Nat) (s : State),
    Safety.nvReady s c 0 (fun e => e.opcode == 0x18) = true →
      ∃ y, exec (.keepAlive c) s = .next (settleHost y) ∧ (connAt y c).map (·.ctl.lastKeepAlive) = some (nowOf s)) ∧
  -- Abort
  (∀ (c : Nat) (s : State),
    Safety.nvReady s c 0 (fun e => e.opcode == 8) = true →
      exec (.abort c) s = .next (settleHost (endWith (Safety.started s c 0) (Safety.slotOf s c 0) 0 1)))

/-- What the timers of connections and the activation hold do when they fall due. Rests on R232, R253, R254, R257, R259, R333. -/
def Obligations.HostTimersAndHold : Prop :=
  -- RESET time-out
  (∀ (c : Nat) (k : Conn) (s : State),
    connAt s c = some k → k.resetCid.isSome = true → (resetWaits (reach s (k.resetFrom + 50000000)) c k).isEmpty = false →
      ∃ y, exec (.resetTimeout c) s = .next (settleHost y) ∧ flag y .hqEvent 0 = true) ∧
  -- authentication time-out
  (∀ (c : Nat) (k : Conn) (u : Queue) (s : State),
    connAt s c = some k → queueAt s c 0 = some u → authPending s k = true →
      exec (.authTimeout c) s = .next (settleHost (disconnectQp (reach s (k.repAt + 10000000000)) u.qp))) ∧
  -- lingering
  (∀ (c from_ : Nat) (k : Conn) (s : State),
    connAt s c = some k → k.lingerFrom = some from_ → connLive s c = false →
      exec (.connectionLingerExpiry c) s = .next (endConn (reach s (from_ + fld s .hqLimitCfg 63 56 * 1000000000)) c)) ∧
  -- keep-alive time-out
  (∀ (c : Nat) (k : Conn) (s : State),
    connAt s c = some k → k.nvme = true → k.ctl.kato ≠ 0 →
      exec (.keepAliveExpiry c) s =
        (let s := setCtl (reach s (k.ctl.lastKeepAlive + k.ctl.kato * 1000000)) c (fun n => { n with kato := 0, cc := n.cc &&& ~~~1#32 })
         let s := forAll (qpsOf s c) disconnectQp s
         .next (settleHost (controllerReset s c (nowOf s))))) ∧
  -- level-3 window
  (∀ (s : State),
      ∃ t, exec .writeCapWindow s = .next t ∧ t.hq.capUnits = 0 ∧ t.hq.capBytes = 0 ∧ nowOf t = max (nowOf s) (s.hq.capStart + 1000000) ∧
        t.hq.capStart = nowOf t / 1000000 * 1000000) ∧
  -- hold start
  (∀ (s : State),
    s.hq.hold.active = false →
      ∃ t, exec .holdStart s = .next t ∧ t.hq.hold.active = true ∧ t.hq.hold.start = nowOf s ∧ t.hq.hold.windowMs = fld s .hqHold 31 16) ∧
  -- hold release in its window
  (∀ (s : State),
    s.hq.hold.active = true → nowOf s < s.hq.hold.start + s.hq.hold.windowMs * 1000000 →
      ∃ y, exec .holdRelease s = .next (settleHost y) ∧ y.hq.hold.active = false ∧ y.hq.hold.exceeded = s.hq.hold.exceeded) ∧
  -- hold release at the end of its window or later
  (∀ (s : State),
    s.hq.hold.active = true → s.hq.hold.start + s.hq.hold.windowMs * 1000000 ≤ nowOf s →
      ∃ y, exec .holdRelease s = .next (settleHost y) ∧ y.hq.hold.active = false ∧ (s.hq.hold.exceeded = false → y.hq.hold.exceeded = true)) ∧
  -- end of the hold window
  (∀ (s : State),
    s.hq.hold.active = true → s.hq.hold.exceeded = false →
      ∃ t, exec .holdWindowEnd s = .next t ∧ t.hq.hold.exceeded = true ∧ flag t .hqEvent 4 = true)

/-- Write units take a place, pull their data, write it and are acknowledged. Rests on R31, R35, R47, R48, R49, R51, R55, R64, R65, R66, R186. -/
def Obligations.WriteUnitsPlaceAndPull : Prop :=
  -- STRIPE_ALLOCATE of a run
  (∀ (pi w bn : Nat) (p : Pool) (u : Machine.Unit) (b : Band) (s : State),
    poolAt s pi = some p → unitAt s pi w = some u → u.stage = .waitPlace → wholeStripe u.path = false → u.fold = false →
    u.fails = 0 →
    (dataBand s pi (fun b => decide (b.next + u.count ≤ bandBlocks b))).map (fun e => (e.1, bandAt e.2 pi e.1)) = some (bn, some b) →
      ∃ t, exec (.stripeAllocate pi w) s = .next t ∧ (unitAt t pi w).map (fun v => (v.stage, v.band, v.off)) = some (.writing, bn, b.next)) ∧
  -- STRIPE_ALLOCATE of a stripe, and while no accumulator is free
  (∀ (pi w bn i : Nat) (p : Pool) (u : Machine.Unit) (b : Band) (s : State),
    poolAt s pi = some p → unitAt s pi w = some u → u.stage = .waitPlace → wholeStripe u.path = true → u.fold = false →
    u.fails = 0 → freeAccumulator s (2 * stripBlocks p.stripShift * 4096 / 256) = some i →
    (dataBand s pi (fun b => decide (b.next < stripesPerBand b.stripShift))).map (fun e => (e.1, bandAt e.2 pi e.1)) = some (bn, some b) →
      ∃ t, exec (.stripeAllocate pi w) s = .next t ∧ (unitAt t pi w).map (fun v => (v.stage, v.band, v.stripe, v.acc)) = some (.writing, bn, b.next, some i)) ∧
  (∀ (pi w : Nat) (p : Pool) (u : Machine.Unit) (s : State),
    poolAt s pi = some p → unitAt s pi w = some u → u.stage = .waitPlace → wholeStripe u.path = true →
    freeAccumulator s (2 * stripBlocks p.stripShift * 4096 / 256) = none →
      exec (.stripeAllocate pi w) s = .next s) ∧
  -- PULL_READ_ISSUE
  (∀ (pi w slot : Nat) (p : Pool) (u : Machine.Unit) (k : Cmd) (q : Queue) (x : Qp) (s : State),
    poolAt s pi = some p → unitAt s pi w = some u → u.cmd = some slot → cmdAt s slot = some k → k.e.dataMode = 2 →
    u.zero = false → u.stage = .writing → queueAt s k.conn k.queue = some q → qpAt s q.qp = some x → x.state = .rts →
    sendsNow s x.lane = true → x.reads.length < x.maxReads → u.pulled < u.count * 4096 → Safety.paceFree s x = true →
    (pullSlots p u).all (fun d => admits s (64 + d) ((pullLength p u + 255) / 256)) = true →
      ∃ t h sport psn, exec (.pullReadIssue pi w) s = .next t ∧ (unitAt t pi w).map (·.pulled) = some (u.pulled + pullLength p u) ∧
        t.out = .roce h (.readRequest q.qp sport psn k.e.rkey (k.e.addr + (u.start - k.e.start) * 4096 + u.pulled) (pullLength p u)) :: s.out) ∧
  -- DRIVE_WRITE_ISSUE with room in the queue pair, and with none
  (∀ (pi w pos : Nat) (p : Pool) (u : Machine.Unit) (b : Band) (g : Target) (s : State),
    poolAt s pi = some p → entryOnFlash p u.band = true → unitAt s pi w = some u → bandAt s pi u.band = some b →
    u.targets.find? (fun t => t.pos == pos) = some g → u.stage = .writing → u.path ≠ .log → g.missing = false →
    g.issued < g.count → driveOk s g.slot = true →
    (List.range (min 4 (min (segMax s g.slot) (g.count - g.issued)))).all (fun i => (unitBlk u.band b u pos ((g.lba - slotLba 0) % 0x40000 + g.issued + i)).isSome) = true →
    queueRoom (driveAt s g.slot) (queueFor (driveAt s g.slot) (engineFor s (.unit pi w pos g.issued))) = true →
      ∃ t h f, exec (.driveWriteIssue pi w pos) s = .next t ∧
        t.out = .nvme g.slot (driveAt s g.slot).nextCid .write (g.lba + g.issued) (min (segMax s g.slot) (g.count - g.issued)) h f :: s.out) ∧
  (∀ (pi w pos : Nat) (p : Pool) (u : Machine.Unit) (b : Band) (g : Target) (s : State),
    poolAt s pi = some p → entryOnFlash p u.band = true → unitAt s pi w = some u → bandAt s pi u.band = some b →
    u.targets.find? (fun t => t.pos == pos) = some g → u.stage = .writing → u.path ≠ .log → g.missing = false →
    g.issued < g.count → driveOk s g.slot = true →
    (List.range (min 4 (min (segMax s g.slot) (g.count - g.issued)))).all (fun i => (unitBlk u.band b u pos ((g.lba - slotLba 0) % 0x40000 + g.issued + i)).isSome) = true →
    queueRoom (driveAt s g.slot) (queueFor (driveAt s g.slot) (engineFor s (.unit pi w pos g.issued))) = false →
      ∃ t, exec (.driveWriteIssue pi w pos) s = .next t ∧
        t.out = s.out ∧ (driveAt t g.slot).held.length = (driveAt s g.slot).held.length + 1) ∧
  -- DRIVE_CELL_READ of a cell that is there, and of one that is not
  (∀ (port pi w pos block : Nat) (u : Machine.Unit) (b : Band) (s : State),
    unitAt s pi w = some u → bandAt s pi u.band = some b → (unitBlk u.band b u pos block).isSome = true →
      exec (.driveCellRead port pi w pos block) s = .next (emit s (.cellData port block true))) ∧
  (∀ (port pi w pos block : Nat) (u : Machine.Unit) (b : Band) (s : State),
    unitAt s pi w = some u → bandAt s pi u.band = some b → unitBlk u.band b u pos block = none →
      ∃ t, exec (.driveCellRead port pi w pos block) s = .next t ∧ (unitAt t pi w).map (·.waitsHold) = some (u.waitsHold ++ [(port, pos, block, nowOf s)])) ∧
  -- CELL_READ_TIMEOUT of a fresh unit, and of one in place
  (∀ (port pi w : Nat) (u : Machine.Unit) (h : Nat × Nat × Nat × Nat) (s : State),
    
    s.pools.findSome? (fun e => e.2.units.findSome? (fun u =>
        (u.2.waitsHold.find? (fun h => h.1 == port)).map (fun h => (e.1, u.1, u.2, h)))) = some (pi, w, u, h) →
    inPlace u.path = false →
      exec (.cellReadTimeout port) s = .next (redrive (emit (setUnit (reach s (h.2.2.2 + 40000)) pi w
        (fun u => { u with waitsHold := u.waitsHold.erase h })) (.cellData port h.2.2.1 false)) pi w)) ∧
  (∀ (port pi w : Nat) (u : Machine.Unit) (h : Nat × Nat × Nat × Nat) (s : State),
    
    s.pools.findSome? (fun e => e.2.units.findSome? (fun u =>
        (u.2.waitsHold.find? (fun h => h.1 == port)).map (fun h => (e.1, u.1, u.2, h)))) = some (pi, w, u, h) →
    inPlace u.path = true → unitAt s pi w = some u → u.fails < 3 →
      ∃ t, exec (.cellReadTimeout port) s = .next t ∧ .cellData port h.2.2.1 false ∈ t.out ∧
        (unitAt t pi w).map (fun v => (v.fails, v.stage, v.band, v.stripe)) = some (u.fails + 1, u.stage, u.band, u.stripe)) ∧
  -- HEADER_RING_WRITE
  (∀ (pool : Nat) (p : Pool) (s : State),
    poolAt s pool = some p → p.copy.hdrQueue ≠ [] → p.copy.hdrInflight.length < 8 → (newestCopy p.copy).2 ≠ [] →
    entryOnFlash p (newestCopy p.copy).1 = true → hdrReusable s p p.copy.nextHdr = true →
      ∃ t, exec (.headerRingWrite pool) s = .next t ∧
        (poolAt t pool).map (fun q => (q.copy.hdrQueue, q.copy.hdrInflight.length)) = some (p.copy.hdrQueue.drop 64, p.copy.hdrInflight.length + 1)) ∧
  -- LOG_RECORD_ISSUE
  (∀ (pool stream : Nat) (p : Pool) (st : LogStream) (r : LogRec) (b : Band) (s : State),
    poolAt s pool = some p → p.streams[stream]? = some st → st.recs.find? (fun r => !r.issued) = some r →
    tget p.bands r.band = some b → entryOnFlash p r.band = true →
    (st.recs.filter (fun x => x.issued && decide (x.donePos.length < b.w))).length < 4 →
    (List.range (min 4 (1 + r.dataBlocks))).all (fun i => (logBlk p r i).isSome) = true →
      ∃ t, exec (.logRecordIssue pool stream) s = .next t ∧ (poolAt t pool).map (fun q => q.streams) =
        some (p.streams.modify stream (fun st => { st with recs := st.recs.map (fun x =>
          if x.headerBlock = r.headerBlock ∧ x.band = r.band then { x with issued := true, issuedAt := nowOf s } else x) }))) ∧
  -- WRITE_ACK of a unit in place, of one in a plain stripe, and of a fresh one
  (∀ (pi w : Nat) (p : Pool) (u : Machine.Unit) (s : State),
    poolAt s pi = some p → unitAt s pi w = some u → durable p u = true →
    p.units.any (fun e => decide (e.1 < w) && overlapping e.2 u && !e.2.applied) = false → inPlace u.path = true →
    u.path ≠ .plainInPlace → u.cmd = none →
      ∃ t, exec (.writeAck pi w) s = .next t ∧ (unitAt t pi w).map (fun v => (v.stage, v.applied)) = some (.acked, true)) ∧
  (∀ (pi w : Nat) (p : Pool) (u : Machine.Unit) (s : State),
    poolAt s pi = some p → unitAt s pi w = some u → durable p u = true →
    p.units.any (fun e => decide (e.1 < w) && overlapping e.2 u && !e.2.applied) = false → inPlace u.path = false →
    lookupWaits s pi u = false → leavesHere s u = true → u.cmd = none →
      ∃ t, exec (.writeAck pi w) s = .next t ∧ unitAt t pi w = none) ∧
  -- WRITE_ACK of a unit that is not durable, or that an older one overlaps
  (∀ (pi w : Nat) (p : Pool) (u : Machine.Unit) (s : State),
    poolAt s pi = some p → unitAt s pi w = some u →
    (durable p u = false ∨ p.units.any (fun e => decide (e.1 < w) && overlapping e.2 u && !e.2.applied) = true) →
      exec (.writeAck pi w) s = .next s) ∧
  (∀ (pi w : Nat) (p : Pool) (u : Machine.Unit) (s : State),
    poolAt s pi = some p → unitAt s pi w = some u → durable p u = true →
    p.units.any (fun e => decide (e.1 < w) && overlapping e.2 u && !e.2.applied) = false → u.path = .plainInPlace →
    u.rotation = false → u.cmd = none →
      ∃ t, exec (.writeAck pi w) s = .next t ∧ unitAt t pi w = none) ∧
  -- UNDELIVERED_NOTICE: a target of a stripe, a log copy, a Mitten copy
  (∀ (pi w target reason : Nat) (u : Machine.Unit) (s : State),
    unitAt s pi w = some u → target < 64 → u.path ≠ .log →
      exec (.undeliveredNotice pi w target reason) s = .next (unitPosFailed s pi w target false)) ∧
  (∀ (pi w target reason : Nat) (u : Machine.Unit) (s : State),
    unitAt s pi w = some u → target < 64 → u.path = .log →
      exec (.undeliveredNotice pi w target reason) s = .next (retargetLog s pi u.band target false)) ∧
  (∀ (pi w target reason : Nat) (u : Machine.Unit) (s : State),
    unitAt s pi w = some u → 64 ≤ target →
      ∃ t, exec (.undeliveredNotice pi w target reason) s = .next t ∧ (unitAt t pi w).map (·.cold) = some true) ∧
  -- STRIPE_LOCK_GRANT
  (∀ (pi w : Nat) (bad : List (Nat × Nat)) (p : Pool) (u : Machine.Unit) (b : Band) (s : State),
    poolAt s pi = some p → unitAt s pi w = some u → tget p.bands u.band = some b → u.stage = .waitLock →
    stripeLacks p b u.stripe = [] → lockHeld s pi u.band u.stripe = false → u.rotation = false →
    (u.fold = false ∨ foldFresh s u = true) →
    p.units.any (fun e => decide (e.1 < w) && e.2.stage == .waitLock && e.2.band == u.band && e.2.stripe == u.stripe) = false →
      ∃ t, exec (.stripeLockGrant pi w bad) s = .next t ∧ (unitAt t pi w).map (·.stage) = some .waitIntent ∧
        (poolAt t pi).map (·.locks) = some (p.locks ++ [(u.band, u.stripe, w)])) ∧
  -- INPLACE_WRITE_ISSUE, and of a unit that journals its data
  (∀ (pi w : Nat) (u : Machine.Unit) (s : State),
    unitAt s pi w = some u → u.journaled = false → inplaceReady s pi w = true →
      exec (.inplaceWriteIssue pi w) s = .next (setUnit (touchBand s pi u.band) pi w (fun u => { u with stage := .writing }))) ∧
  (∀ (pi w : Nat) (s : State),
    inplaceReady (journalUnit s pi w) pi w = true →
      ∃ t, exec (.inplaceWriteIssue pi w) s = .next t ∧ (unitAt t pi w).map (·.stage) = some .writing) ∧
  (∀ (pi w : Nat) (p : Pool) (u : Machine.Unit) (s : State),
    poolAt s pi = some p → unitAt s pi w = some u → u.journaled = true → u.jPlaced = false → allHere u = true →
    journalHeld p + u.data.length ≤ 16384 → entryOnFlash p (newestCopy p.copy).1 = true →
    (takeArea s pi (newestCopy p.copy).1 u.data.length { idx := 0, data := some w }).isSome = true →
      ∃ t, exec (.inplaceWriteIssue pi w) s = .next t ∧ (unitAt t pi w).map (fun v => (v.jPlaced, v.recSent)) = some (true, true)) ∧
  -- INTENT_CLOSE
  (∀ (pi w : Nat) (u : Machine.Unit) (s : State),
    unitAt s pi w = some u → u.stage = .acked → u.closing = false → u.toMove = [] →
      exec (.intentClose pi w) s = .next (setUnit (sendRec s pi (.intentDone w u.vol u.band u.stripe)) pi w (fun u => { u with closing := true })))

/-- What drive commands do when they are submitted, complete or time out. Rests on R32, R34, R49, R72, R113, R118, R119, R120, R121, R123, R131, Table 4.3. -/
def Obligations.DriveCommandsComplete : Prop :=
  -- NVME_FLUSH_SUBMIT
  (∀ (slot : Nat) (s : State),
    (driveAt s slot).flushed = true → (driveAt s slot).unflushed ≠ [] → (driveAt s slot).flushing = none →
      ∃ t f, exec (.nvmeFlushSubmit slot) s = .next t ∧ (driveAt t slot).flushing = some (driveAt s slot).unflushed ∧ (driveAt t slot).unflushed = [] ∧
        t.out = .nvme slot (driveAt s slot).nextCid .flush 0 0 none f :: s.out) ∧
  -- NVME_FLUSH_COMPLETE
  (∀ (slot : Nat) (l : List (CmdOwner × Nat)) (s : State),
    (driveAt s slot).flushing = some l →
      exec (.nvmeFlushComplete slot) s = .next (forAll l (fun s o => creditWrite s slot o.1 o.2) (setDrive s slot (fun d => { d with flushing := none })))) ∧
  -- NVME_READ_COMPLETE of the wanted position
  (∀ (slot cid kslot block i pos band t row : Nat) (y : Blk) (c : DrvCmd) (k : Cmd) (r : RdBlk) (b : Band) (s : State),
    (driveAt s slot).cmds.find? (fun c => c.cid == cid) = some c → c.op = .read → c.owner = .hostRead kslot block pos →
    cmdAt s kslot = some k → k.reads.findIdx? (fun r => r.block == block) = some i → k.reads[i]? = some r →
    readPlace (popCmd s slot cid) k.pool r = some (band, b, t, pos, row) → r.got = none → r.bad = none →
    volOk b k.e.volumeId block y = true →
      exec (.nvmeReadComplete slot cid .ok [some y]) s = .next (pumpRelocs (gotBlock (setCmd (popCmd s slot cid) kslot
        (fun k => { k with lastIo := some (nowOf (popCmd s slot cid)) })) kslot i y.data) k.pool)) ∧
  -- NVME_WRITE_COMPLETE of a unit
  (∀ (slot cid pi w pos seg : Nat) (c : DrvCmd) (u : Machine.Unit) (y s : State),
    (driveAt s slot).cmds.find? (fun c => c.cid == cid) = some c → c.op = .write → c.owner = .unit pi w pos seg →
    landBlocks s slot c = some y → (driveAt y slot).flushed = false → unitAt s pi w = some u →
      ∃ t, exec (.nvmeWriteComplete slot cid .ok) s = .next t ∧ (unitAt t pi w).map (·.targets) =
        some ((u.targets.map (fun t => if t.pos = pos then { t with done := t.done + c.count } else t)).map
          (fun t => if t.pos = pos then { t with onFlash := t.onFlash + c.count } else t))) ∧
  -- READ_AROUND_TIMER
  (∀ (cmd block i band t pos row t0 : Nat) (k : Cmd) (r : RdBlk) (p : Pool) (b : Band) (s : State),
    cmdAt s cmd = some k → k.reads.findIdx? (fun r => r.block == block) = some i → k.reads[i]? = some r →
    poolAt s k.pool = some p → readPlace s k.pool r = some (band, b, t, pos, row) → r.issuedAt = some t0 → r.got = none →
    r.bad = none → r.around = false → (readOutstanding s cmd block).contains pos = true → polOf p 0x10 ≠ 0 → p.raCapped = false →
    (bestPlan (reach s (t0 + (readAroundT s p).floor.toNat)) p band b t pos).isSome = true →
      ∃ t, exec (.readAroundTimer cmd block) s = .next t ∧ (cmdAt t cmd).map (·.raFlag) = some true) ∧
  -- LATENCY_WINDOW
  (∀ (s : State),
      ∃ t, exec .latencyWindow s = .next t ∧ nowOf t = max (nowOf s) (s.clk.latStart + 100000000) ∧ t.clk.latStart = nowOf t / 100000000 * 100000000 ∧
        (nowOf s < s.clk.latStart + 200000000 → t.drives = tmap s.drives (fun _ d => { d with rd := rollLat d.rd, wr := rollLat d.wr })) ∧
        t.pools.map (fun e => (e.2.winLat, e.2.raBytes, e.2.readBytes)) = s.pools.map (fun _ => ([], 0, 0))) ∧
  -- DRIVE_COMMAND_TIMEOUT
  (∀ (slot cid : Nat) (c : DrvCmd) (s : State),
    (driveAt s slot).cmds.find? (fun c => c.cid == cid) = some c →
      ∃ t, exec (.driveCommandTimeout slot cid) s = .next t ∧ (driveAt t slot).timeoutCount = (driveAt s slot).timeoutCount + 1 ∧
        .nvmeAbort slot cid ∈ t.out ∧ c.submitAt + 5000000000 ≤ t.clk.now) ∧
  -- DRIVE_LINK_DOWN_TIMEOUT
  (∀ (slot t : Nat) (s : State),
    (driveAt s slot).downSince = some t → (driveAt s slot).linkUp = false →
      exec (.driveLinkDownTimeout slot) s = .next (failMember (reach s (t + 2000000000)) slot)) ∧
  -- CONTROLLER_FATAL_STATUS
  (∀ (slot pi : Nat) (s : State),
    (driveAt s slot).pool = some pi → ((driveAt s slot).state = .member ∨ (driveAt s slot).state = .evacuating) →
      ∃ t, exec (.controllerFatalStatus slot) s = .next t ∧ (driveAt t slot).state = .failed) ∧
  -- CONTROLLER_RESET_TIMEOUT
  (∀ (slot pi : Nat) (s : State),
    (driveAt s slot).pool = some pi → ((driveAt s slot).state = .member ∨ (driveAt s slot).state = .evacuating) →
      ∃ t, exec (.controllerResetTimeout slot) s = .next t ∧ (driveAt t slot).state = .failed)

/-- What folding, reclaim, freeing of bands and key rotation do when their conditions hold. Rests on R42, R57, R58, R61, R71, R96, R111. -/
def Obligations.FoldReclaimAndRotation : Prop :=
  -- FOLD_STRIPE
  (∀ (pool : Nat) (bad : List (Nat × Nat)) (p : Pool) (s : State),
    poolAt s pool = some p → foldOn s p = true → p.background = true →
      exec (.foldStripe pool bad) s = .next (foldOne (setPool s pool (fun p => { p with folding := true })) pool bad)) ∧
  -- FOLD_WATERMARK_ADJUST
  (∀ (pool : Nat) (p : Pool) (s : State),
    poolAt s pool = some p → p.logWinTotal < 10 * p.logWinSuperseded → p.logHalf = false → 2 * p.logHeld ≤ p.logReserveSlots →
      ∃ t, exec (.foldWatermarkAdjust pool) s = .next t ∧ (poolAt t pool).map (fun q => (q.watermark, q.logWinTotal, q.logWinSuperseded)) =
        some (min (max (p.watermark + 8) (polOf p 0x01)) (polOf p 0x02), 0, 0)) ∧
  (∀ (pool : Nat) (p : Pool) (s : State),
    poolAt s pool = some p → 50 * p.logWinSuperseded < p.logWinTotal → nowOf s < p.foldStart + 200000000 →
      ∃ t, exec (.foldWatermarkAdjust pool) s = .next t ∧ (poolAt t pool).map (fun q => (q.watermark, q.logWinTotal, q.logWinSuperseded)) =
        some (min (max (p.watermark - 8) (polOf p 0x01)) (polOf p 0x02), 0, 0)) ∧
  (∀ (pool : Nat) (p : Pool) (s : State),
    poolAt s pool = some p → 10 * p.logWinSuperseded ≤ p.logWinTotal → p.logHalf = true → nowOf s < p.foldStart + 200000000 →
      ∃ t, exec (.foldWatermarkAdjust pool) s = .next t ∧ (poolAt t pool).map (·.watermark) = some (min (max (p.watermark - 8) (polOf p 0x01)) (polOf p 0x02))) ∧
  -- RECLAIM_BAND of data, of map nodes, and of blocks that wait for a fresh place
  (∀ (pool band : Nat) (bad : List (Nat × Nat)) (p : Pool) (s : State),
    poolAt s pool = some p → p.background = true → p.relocs = [] → oldKeyBlocks s pool p = [] → reclaimOn p = true →
    ((tget p.bands band).map (·.cls)).getD 0 ≠ 3 → reclaimTarget (endMappedRotations s pool) pool p = some band →
      exec (.reclaimBand pool bad) s =
        .next (adaptReclaim (moveBlocks (endMappedRotations s pool) pool (bandLive (endMappedRotations s pool) pool p band) bad) pool)) ∧
  (∀ (pool band : Nat) (bad : List (Nat × Nat)) (p : Pool) (s : State),
    poolAt s pool = some p → p.background = true → p.relocs = [] → oldKeyBlocks s pool p = [] → reclaimOn p = true →
    ((tget p.bands band).map (·.cls)).getD 0 = 3 → reclaimTarget (endMappedRotations s pool) pool p = some band →
      exec (.reclaimBand pool bad) s = .next (adaptReclaim (markNodes (endMappedRotations s pool) pool band) pool)) ∧
  (∀ (pool : Nat) (bad : List (Nat × Nat)) (p : Pool) (s : State),
    poolAt s pool = some p → p.background = true → p.relocs ≠ [] →
      ∃ t, exec (.reclaimBand pool bad) s = .next t ∧ (unitAt t pool p.wseq).map (fun u => (u.fold, u.moves)) =
        some (true, (p.relocs.take (p.k * stripBlocks p.stripShift)).map (fun r => (relocMove r).1))) ∧
  -- BAND_FREE
  (∀ (pool band : Nat) (p : Pool) (b : Band) (s : State),
    poolAt s pool = some p → bandAt s pool band = some b → mayFree s pool p band b = true →
      ∃ t, exec (.bandFree pool band) s = .next t ∧ (bandAt t pool band).map (·.state) = some .free) ∧
  -- ROTATION_STEP
  (∀ (vol : Nat) (bad : List (Nat × Nat)) (v : Volume) (r : Rotation) (p : Pool) (band : Nat) (b : Band) (s : State),
    volAt s vol = some v → v.rotation = some r → poolAt s v.pool = some p → v.bandList[r.list]? = some band →
    tget p.bands band = some b → keysLoaded s vol v = true → p.background = true →
    p.units.any (fun u => u.2.vol == vol && u.2.rotation) = false →
      ∃ t, exec (.rotationStep vol bad) s = .next t ∧ (unitAt t v.pool p.wseq).map (fun u => (u.rotation, u.band, u.stripe, u.rows, u.keyGen)) =
        some (true, band, r.stripe, some (r.row, min (stripBlocks b.stripShift - r.row) (4096 / b.k)), v.keyGen)) ∧
  -- its pointer once the INTENT_DONE is valid
  (∀ (pi r0 n : Nat) (u : Machine.Unit) (p : Pool) (v : Volume) (r : Rotation) (s : State),
    poolAt s pi = some p → volAt s u.vol = some v → u.rows = some (r0, n) → v.rotation = some r →
    v.bandList[r.list]? = some u.band → r.stripe = u.stripe → r.row = r0 →
      (volAt (rotationOn s pi u) u.vol).map (·.rotation) = some (if v.bandList.length ≤ (rotationNext p r n).list then none else some (rotationNext p r n)))

/-- What repair, evacuation, scrub and conversion do when their conditions hold. Rests on R124, R125, R127, R128, R129, R130, R131, R139, R140, R150, Table 4.6. -/
def Obligations.RepairEvacuationAndScrub : Prop :=
  -- REPAIR_STRIPE, and of a stripe beyond the tolerance
  (∀ (pool band stripe : Nat) (x : Int) (bad : List (Nat × Nat)) (p p1 : Pool) (b b0 : Band) (s : State),
    poolAt s pool = some p → backgroundOn s pool = true →
    (repairOrder p).find? (fun x => canRepair s pool p x.2.1 x.2.2) = some (x, band, stripe) → tget p.bands band = some b0 →
    poolAt (substituteGone s pool band) pool = some p1 → bandAt (substituteGone s pool band) pool band = some b →
    (writtenStripes b).contains stripe = true → ((stripeLacks p b0 stripe).length ≤ bandTol b ∨ b.mirror = true) →
      ∃ y, exec (.repairStripe pool bad) s = .next (pumpRelocs (refreshPool (clearMask y pool band) pool) pool) ∧
        (bandAt y pool band).map (·.rebuilt) = some (((stripeLacks p1 b stripe).filter (fun j => posPresent p1 b j)).map (fun j => (j, stripe)) ++ b.rebuilt)) ∧
  (∀ (pool band stripe : Nat) (x : Int) (bad : List (Nat × Nat)) (p : Pool) (b b0 : Band) (s : State),
    poolAt s pool = some p → backgroundOn s pool = true →
    (repairOrder p).find? (fun x => canRepair s pool p x.2.1 x.2.2) = some (x, band, stripe) → tget p.bands band = some b0 →
    bandAt (substituteGone s pool band) pool band = some b → (writtenStripes b).contains stripe = true →
    bandTol b < (stripeLacks p b0 stripe).length → b.mirror = false → directOwner (substituteGone s pool band) pool band = none →
      exec (.repairStripe pool bad) s = .next (pumpRelocs (refreshPool (clearMask
        (moveSurvivors (substituteGone s pool band) pool band stripe (stripeLacks p b0 stripe) bad) pool band) pool) pool)) ∧
  -- REPAIR_PACE_ADJUST
  (∀ (pool : Nat) (p : Pool) (s : State),
    poolAt s pool = some p →
      ∃ t, exec (.repairPaceAdjust pool) s = .next t ∧ (poolAt t pool).map (fun q => (q.share, q.paceLat, q.paceStart)) =
        some (if readAroundT s p < (listP99 p.paceLat : Rat) then
                (if p.share - p.share / 8 < paceFloor s p then paceFloor s p else p.share - p.share / 8)
              else (if ((polOf p 0x20 : Nat) : Rat) < p.share + ((polOf p 0x20 : Nat) : Rat) / 16 then ((polOf p 0x20 : Nat) : Rat)
                else p.share + ((polOf p 0x20 : Nat) : Rat) / 16), [], max (nowOf s) (p.paceStart + 10000000))) ∧
  -- EVACUATION_START
  (∀ (slot pi : Nat) (reason : EvacReason) (p : Pool) (s : State),
    (driveAt s slot).pool = some pi → poolAt s pi = some p → evacTrigger s p slot reason = true →
    (driveAt s slot).state = .member → mayLeave p = true →
      ∃ t, exec (.evacuationStart slot reason) s = .next t ∧ (driveAt t slot).state = .evacuating ∧ (driveAt t slot).evacReason = evacCode reason) ∧
  -- LATENCY_DRIFT_WINDOW
  (∀ (pi d : Nat) (p : Pool) (s : State),
    s.pools = [(pi, p)] → p.present.filterMap (fun m => m.2.driveSlot) = [d] →
      ∃ t, exec .latencyDriftWindow s = .next t ∧ (driveAt t d).driftHits =
        if (polOf p 0x31 : Rat) * median (memberMeans s p) < (driveAt s d).rd.mean then (driveAt s d).driftHits + 1 else 0) ∧
  -- EVAC_BAND of a band, and of the last
  (∀ (slot pi band j : Nat) (rest bad : List (Nat × Nat)) (p : Pool) (s y : State),
    (driveAt s slot).pool = some pi → poolAt s pi = some p → backgroundOn s pi = true → p.units = [] →
    (driveAt s slot).state = .evacuating →
    p.bands.filterMap (fun e => if e.2.state != .free && e.1 != p.copy.band && some e.1 != p.copy.opening.map (·.band) then
          (e.2.members.findIdx? (fun m => m.1 == memberOfSlot s pi slot)).map (fun j => (e.1, j)) else none) = (band, j) :: rest →
    p.locks = [] → ((tget p.bands band).map (bandReach s p)).getD false = true → evacPosition s pi band j bad = some y →
      exec (.evacBand slot bad) s = .next (finishEvac y pi slot)) ∧
  (∀ (slot pi : Nat) (bad : List (Nat × Nat)) (p : Pool) (s : State),
    (driveAt s slot).pool = some pi → poolAt s pi = some p → backgroundOn s pi = true → p.units = [] →
    (driveAt s slot).state = .evacuating →
    p.bands.any (fun e => e.2.state != .free && e.2.members.any (fun m => m.1 == memberOfSlot s pi slot)) = false →
      ∃ t, exec (.evacBand slot bad) s = .next t ∧ (driveAt t slot).state = .removed ∧ (driveAt t slot).pool = none) ∧
  -- SCRUB_STRIPE of the last stripe
  (∀ (pool band stripe : Nat) (bad : List (Nat × Nat)) (b : Band) (s : State),
    bandAt s pool band = some b → backgroundOn s pool = true → mayScrub b = true → olderScrub s pool b = false →
    lockHeld s pool band stripe = false → ((poolAt s pool).map (fun p => bandReach s p b)).getD false = true →
    ((writtenStripes b).all (fun t => decide (t < b.scrubNext ∨ t = stripe)) = true) →
      ∃ t, exec (.scrubStripe pool band stripe bad) s = .next t ∧ (bandAt t pool band).map (·.scrubTime) = some (nowOf s)) ∧
  -- BAND_CONVERT
  (∀ (pool band : Nat) (bad : List (Nat × Nat)) (p : Pool) (b : Band) (s : State),
    poolAt s pool = some p → tget p.bands band = some b → b.fmt = 3 → b.state ≠ .free →
    p.locks.any (fun l => l.1 == band) = false → bandReach s p b = true →
      ∃ t, exec (.bandConvert pool band bad) s = .next t ∧ (bandAt t pool band).map (fun c => (c.fmt, c.state)) = some (4, .closed))

/-- What replay, map roots, checkpoints, paging and node rebuilds do. Rests on R98, R135, R156, R158, R159, R160, R161, R163, R164. -/
def Obligations.ReplayAndCheckpoints : Prop :=
  -- REPLAY
  (∀ (pool : Nat) (bad : List (Nat × Nat)) (p : Pool) (s : State),
    poolAt s pool = some p → p.replayed = false → p.online = true →
      ∃ t, exec (.replay pool bad) s = .next t ∧ (poolAt t pool).map (·.replayed) = some true) ∧
  -- MAP_ROOT_LOAD
  (∀ (vol : Nat) (v : Volume) (p : Pool) (s : State),
    volAt s vol = some v → v.rootLoaded = false → poolAt s v.pool = some p → mapReach s p = true →
      ∃ t, exec (.mapRootLoad vol) s = .next t ∧ (volAt t vol).map (·.rootLoaded) = some true) ∧
  -- CHECKPOINT_START
  (∀ (vol : Nat) (v : Volume) (p : Pool) (s : State),
    volAt s vol = some v → poolAt s v.pool = some p → v.kind = .mapped → flag s .mapCtrl 0 = true → v.rootLoaded = true →
    v.ckpt = none → ckptDue s p v = true → ckptRunning s v.pool < fld s .mapCkptCfg 51 48 →
      ∃ t, exec (.checkpointStart vol) s = .next t ∧ (volAt t vol).map (·.ckpt) = some (some { cut := (ringAt s p.ring).head, image := (mergeTree v).1, inner := (mergeTree v).2 })) ∧
  -- CHECKPOINT_ROOT: the nodes go to the drives, and then the root is recorded
  (∀ (vol n : Nat) (v : Volume) (c : Ckpt) (p : Pool) (s : State),
    volAt s vol = some v → v.ckpt = some c → poolAt s v.pool = some p → c.job = none → c.rootSent = false →
    ckptSettled s p vol c.cut = true →
    n = (c.image.filter (fun l => l.dirty || l.place.isNone)).length + (innerWritten c.image c.inner).length →
    (mapPlaces s v.pool (n / 262144 + 2) n).isSome = true →
      ∃ t, exec (.checkpointRoot vol) s = .next t ∧ (volAt t vol).map (fun w => w.ckpt.map (·.job.isSome)) = some (some true)) ∧
  (∀ (vol id : Nat) (root : Nat × Nat) (v : Volume) (c : Ckpt) (p : Pool) (s : State),
    volAt s vol = some v → v.ckpt = some c → poolAt s v.pool = some p → c.job = some id → c.rootSent = false →
    jobDone p id = true → rootOf c.image c.inner = some root →
      ∃ t, exec (.checkpointRoot vol) s = .next t ∧ (volAt t vol).map (fun w => (w.mapGen, w.cut, w.rootPlace, w.ckpt.map (·.rootSent))) =
        some (v.mapGen + 1, c.cut, some root, some true)) ∧
  -- CHECKPOINT_FREE
  (∀ (vol : Nat) (v : Volume) (c : Ckpt) (p : Pool) (s : State),
    volAt s vol = some v → v.ckpt = some c → poolAt s v.pool = some p → c.rootSent = true →
    (ringAt s p.ring).slots.any (fun x => match x.2.body with | .mapRoot u _ _ _ k => u == vol && k == c.cut && decide (x.2.seq < p.copy.copied) | _ => false) = true →
      ∃ t, exec (.checkpointFree vol) s = .next t ∧ (volAt t vol).map (·.ckpt) = some none) ∧
  -- LEAF_PAGE_IN of a leaf not on flash yet, and of one that is
  (∀ (vol low : Nat) (v : Volume) (l : Leaf) (s : State),
    volAt s vol = some v → v.leaves.find? (fun l => l.low == low && !l.resident) = some l → l.place = none →
    (poolAt (fitMap s v.pool 1 none) v.pool).map (·.areaStall) = some false →
      exec (.leafPageIn vol low) s = .next (pageServe (setVol (count (fitMap s v.pool 1 none) 0x582) vol (fun v => { v with leaves := v.leaves.map (fun x =>
        if x.low = low then { x with extents := l.extents, resident := true, lastUse := nowOf (fitMap s v.pool 1 none) } else x) })) v.pool vol low)) ∧
  (∀ (vol low : Nat) (v : Volume) (l : Leaf) (place : Nat × Nat) (n : MapNode) (s1 s : State),
    volAt s vol = some v → v.leaves.find? (fun l => l.low == low && !l.resident) = some l → l.place = some place →
    (poolAt (fitMap s v.pool 1 none) v.pool).map (·.areaStall) = some false →
    readNode (fitMap s v.pool 1 none) v.pool vol 0 l.low l.high v.mapGen place = (s1, some n) →
      exec (.leafPageIn vol low) s = .next (pageServe (setVol (count s1 0x582) vol (fun v => { v with leaves := v.leaves.map (fun x =>
        if x.low = low then { x with extents := n.extents, resident := true, lastUse := nowOf s1 } else x) })) v.pool vol low)) ∧
  -- NODE_REBUILD, with a flash copy and without one
  (∀ (vol low : Nat) (v : Volume) (l : Leaf) (p : Pool) (base : List Extent) (s : State),
    volAt s vol = some v → poolAt s v.pool = some p → v.leaves.find? (fun l => l.low == low) = some l →
    flashExtents s v.pool vol v l.low l.high = some base →
      ∃ t, exec (.nodeRebuild vol low true) s = .next t ∧ flag t .mapEvent 1 = true ∧ t.fresh = s.fresh + 1 ∧
        (volAt t vol).map (fun w => (w.leaves.find? (fun x => x.low == low)).map (·.extents)) = some (some (rebuildLeaf s p vol v l base).extents)) ∧
  (∀ (vol low : Nat) (v : Volume) (l : Leaf) (p : Pool) (s : State),
    volAt s vol = some v → poolAt s v.pool = some p → v.leaves.find? (fun l => l.low == low) = some l →
      ∃ t, exec (.nodeRebuild vol low false) s = .next t ∧ flag t .mapEvent 2 = true ∧ t.fresh = s.fresh + 1)

/-- What the Hatbox rows do to rings, epochs, the drive copy, segments and drive-journal mode. Rests on R81, R85, R86, R87, R91, R92, R93, R94, R103, R104, R107, R331. -/
def Obligations.HatboxRecordsAndEpochs : Prop :=
  -- HATBOX_RECORD_ACCEPT, and what the record holds
  (∀ (ring : Nat) (q : RecReq) (s : State),
    portOpen (ringStall s ring) ring = true →
    (ringAt s ring).queue.find? (fun q => match poolOfRing s ring with | some (_, p) => !(recBlocked p q) | none => true) = some q →
      ∃ t, exec (.hatboxRecordAccept ring) s = .next t ∧ (ringAt t ring).head = (ringAt s ring).head + 1 ∧
        tget (ringAt t ring).slots ((ringAt s ring).head % ringN) =
          some (recAt (ringStall s ring) ring q)) ∧
  (∀ (ring : Nat) (q : RecReq) (s : State),
      (recAt s ring q).seq = (ringAt s ring).head ∧ (recAt s ring q).carried = q.carried ∧
        (recAt s ring q).epoch = (if q.carried then q.epoch else (ringAt s ring).epoch) ∧ (q.carried = true → (recAt s ring q).body = q.body)) ∧
  (∀ (ring pi a b c d : Nat) (p : Pool) (s : State),
    poolOfRing s ring = some (pi, p) →
      (recAt s ring { body := .watermark a b c d }).body = .watermark (ackedBelow p) (ringAt s ring).tail p.wseq (nowOf s)) ∧
  -- EPOCH_OPEN
  (∀ (pool reason nb : Nat) (p : Pool) (s : State),
    poolAt s pool = some p → p.replayed = true → p.copy.opening = none → tget p.bands p.copy.band = none →
    (allocBand s pool 4 []).map (·.1) = some nb →
      ∃ t, exec (.epochOpen pool reason) s = .next t ∧ (poolAt t pool).bind (fun q => q.copy.opening.map (fun o => (o.epoch, o.reason, o.band))) =
        some (if p.epoch = 0 then 1 else p.epoch + 1, reason, nb)) ∧
  -- EPOCH_COMMIT, and while something is not on flash
  (∀ (pool : Nat) (o : Opening) (p : Pool) (s : State),
    poolAt s pool = some p → p.copy.opening = some o → epochWritten s p o = true →
      ∃ t, exec (.epochCommit pool) s = .next t ∧
        (poolAt t pool).map (fun q => (q.epoch, q.copy.band, q.copy.members, q.copy.opening)) = some (o.epoch, o.band, o.members, none)) ∧
  (∀ (pool : Nat) (o : Opening) (p : Pool) (s : State),
    poolAt s pool = some p → p.copy.opening = some o → epochWritten s p o = false →
      exec (.epochCommit pool) s = .next s) ∧
  -- HATBOX_DIE_FAULT
  (∀ (s : State), ∃ t, exec .hatboxDieFault s = .next t ∧ t.hbx.dead = true ∧ t.hbx.driveJournal = true ∧ flag t .hbxEvent 6 = true) ∧
  -- FORCE_DRIVE_JOURNAL
  (∀ (s : State),
    s.hbx.driveJournal = false →
      ∃ t, exec .forceDriveJournal s = .next t ∧ t.hbx.driveJournal = true ∧ t.hbx.djCause = 4 ∧ flag t .hbxEvent 0 = true) ∧
  -- MRAM_WRITE_COMPLETE, verified and not
  (∀ (ring seq tries : Nat) (x : Rec) (s : State),
    (ringAt s ring).inflight.find? (fun i => i.1 == seq) = some (seq, tries) → tget (ringAt s ring).slots (seq % ringN) = some x →
      ∃ t, exec (.mramWriteComplete ring seq true) s = .next t ∧ (ringAt t ring).inflight = (ringAt s ring).inflight.filter (fun i => i.1 != seq) ∧
        tget (ringAt t ring).validAt seq = some (nowOf s)) ∧
  (∀ (ring seq tries : Nat) (x : Rec) (s : State),
    (ringAt s ring).inflight.find? (fun i => i.1 == seq) = some (seq, tries) → tget (ringAt s ring).slots (seq % ringN) = some x →
    tries < fld s .hbxCtrl 15 12 →
      ∃ t, exec (.mramWriteComplete ring seq false) s = .next t ∧
        (ringAt t ring).inflight = (ringAt s ring).inflight.map (fun i => if i.1 = seq then (seq, tries + 1) else i)) ∧
  (∀ (ring seq tries : Nat) (x : Rec) (s : State),
    (ringAt s ring).inflight.find? (fun i => i.1 == seq) = some (seq, tries) → tget (ringAt s ring).slots (seq % ringN) = some x →
    fld s .hbxCtrl 15 12 ≤ tries →
      ∃ t, exec (.mramWriteComplete ring seq false) s = .next t ∧ (ringAt t ring).head = (ringAt s ring).head + 1 ∧ flag t .hbxEvent 3 = true) ∧
  -- REMAP_COPY_DONE
  (∀ (ring : Nat) (s : State),
    (ringAt s ring).remapBusy ≠ [] →
    (((ringAt s ring).remapBusy.map (segmentRecs s ring)).flatten).any (fun x =>
        !x.crcOk && decide (((poolOfRing s ring).map (fun e => e.2.copy.copied)).getD 0 ≤ x.seq)) = false →
      ∃ t, exec (.remapCopyDone ring) s = .next t ∧ (ringAt t ring).remapBusy = [] ∧ t.hbx.remaps = s.hbx.remaps + 1 ∧ flag t .hbxEvent 4 = true) ∧
  -- WATERMARK
  (∀ (ring pi : Nat) (p : Pool) (s : State),
    poolOfRing s ring = some (pi, p) → poolAt s pi = some p →
      ∃ t, exec (.watermark ring) s = .next t ∧ (ringAt t p.ring).queue =
        (ringAt s p.ring).queue ++ [{ body := .watermark 0 0 0 0 }]) ∧
  -- JOURNAL_PAGE_ISSUE
  (∀ (pool first band : Nat) (recs : List Rec) (ms : List Nat) (p : Pool) (s : State),
    poolAt s pool = some p → p.copy.opening = none → nextRecs s p = (first, recs, band, ms) → recs ≠ [] → ms ≠ [] →
    p.copy.inflight.length < 4 → entryOnFlash p band = true →
    (takeArea s pool band 1 { idx := 0, first := first, last := first + recs.length - 1 }).isSome = true →
      ∃ t, exec (.journalPageIssue pool) s = .next t ∧
        (poolAt t pool).map (fun q => (q.copy.pagedTo, q.copy.inflight.length)) = some (first + recs.length, p.copy.inflight.length + 1)) ∧
  -- a block of the journal area is taken again only once it may be reused
  (∀ (pi band n place : Nat) (blk : AreaBlk) (p : Pool) (t s : State),
    poolAt s pi = some p → takeArea s pi band n blk = some (place, t) →
      place + n ≤ areaBlocks ∧ p.copy.area.all (fun a => !(a.band == band && areaMeets a place n) || areaDone s p a) = true) ∧
  -- COPY_MEMBER_EVICT
  (∀ (pool member : Nat) (p : Pool) (g : JPage) (s : State),
    poolAt s pool = some p → p.copy.inflight.find? (fun g => g.todo.contains member) = some g →
      exec (.copyMemberEvict pool member) s =
        .next (dropCopyMember (reach s (g.oldestValid + 1000 * fld s .hbxLagCfg 47 32)) pool member)) ∧
  -- LAG_STALL
  (∀ (pool y : Nat) (p : Pool) (s : State),
    poolAt s pool = some p → oldestUncopied p (ringAt s p.ring) = some y → (ringAt s p.ring).lagStalled = false →
      ∃ t, exec (.lagStall pool) s = .next t ∧ (ringAt t p.ring).lagStalled = true ∧ flag t .hbxEvent 1 = true) ∧
  -- HBX_SELFTEST_START and its end
  (∀ (s : State),
    s.hbx.selftestBusy = false → s.hbx.dead = false →
      exec .hbxSelftestStart s = .next { s with hbx := { s.hbx with selftestBusy := true } }) ∧
  (∀ (failed : List Nat) (s : State),
    s.hbx.selftestBusy = true →
      ∃ t, exec (.hbxSelftestDone failed) s = .next t ∧ t.hbx.selftestBusy = false ∧ t.hbx.selftestFailed = (failed.filter (testable s)).length ∧
        (failed = [] → t.hbx.selftestResult = 1 ∧ t.hbx.mramOk = true)) ∧
  -- POOL_TAIL_ADVANCE, in range and out of it
  (∀ (ring pi : Nat) (value : Word) (p : Pool) (s : State),
    poolOfRing s ring = some (pi, p) → (ringAt s ring).tail ≤ value.toNat → value.toNat ≤ p.copy.copied →
      ∃ t, exec (.poolTailAdvance ring value) s = .next t ∧ (ringAt t ring).tail = value.toNat) ∧
  (∀ (ring pi : Nat) (value : Word) (p : Pool) (s : State),
    poolOfRing s ring = some (pi, p) → max p.copy.copied (ringAt s ring).tail < value.toNat →
      exec (.poolTailAdvance ring value) s = .next (setBit s .hbxEvent 8))

/-- What the Map Cache rows do: loads, stores, fills, drains, range operations, disabling and the diagnostic window. Rests on R165, R166, R167, R168, R170, R171, R172, R173, R174, R175. -/
def Obligations.MapCacheServesAndKeeps : Prop :=
  -- MAP_CACHE_LOAD: a hit, a miss, an address outside
  (∀ (requester addr w : Nat) (l : McLine) (s : State),
    mcServes s addr = true → s.mc.evicting.contains (addr / 64) = false → findWay s (addr / 64) = some (w, l) →
    l.parityOk = true →
      ∃ t, exec (.mapCacheLoad requester addr .ok) s = .next t ∧ t.out = .fill requester (addr / 64) l.data :: s.out) ∧
  (∀ (requester addr : Nat) (s : State),
    mcServes s addr = true → s.mc.evicting.contains (addr / 64) = false → findWay s (addr / 64) = none →
    inTransit s (addr / 64) = none → findCuff s (addr / 64) = none → s.mc.fills = [] →
      ∃ t, exec (.mapCacheLoad requester addr .ok) s = .next t ∧ (t.mc.fills.map (fun f => (f.line, f.requesters))) = [(addr / 64, [requester])]) ∧
  (∀ (requester addr : Nat) (s : State),
    mcServes s addr = false →
      exec (.mapCacheLoad requester addr .ok) s = .next (emit s (.fill requester (addr / 64) (memReads s.mem (addr / 64 * 64) 64)))) ∧
  -- MAP_CACHE_STORE of one line, in the area and outside
  (∀ (addr : Nat) (b : Bytes) (s : State),
    b ≠ [] → addr % 64 + b.length ≤ 64 → mcServes s addr = true → s.mc.storeWait = [] → wtFits s (addr / 64) = true →
      ∃ t, exec (.mapCacheStore addr b) s = .next t ∧ (wtq t (mcSlice (addr / 64))).getLast?.map (·.line) = some (addr / 64)) ∧
  (∀ (addr : Nat) (b : Bytes) (s : State),
    b ≠ [] → addr % 64 + b.length ≤ 64 → mcServes s addr = false →
      exec (.mapCacheStore addr b) s = .next (store s addr b)) ∧
  -- MAP_CACHE_FILL
  (∀ (addr w : Nat) (f : McFill) (s : State),
    s.mc.fills.find? (fun f => f.line == addr / 64) = some f → wtPending s (addr / 64) = false →
    s.mc.evicting.contains (addr / 64) = false → flag s .mcCtrl 1 = false → f.wayKept = some w →
      ∃ t, exec (.mapCacheFill addr) s = .next t ∧ t.mc.fills = s.mc.fills.filter (fun x => x.line != addr / 64) ∧
        (tget t.mc.ways (wayKey (addr / 64) w)).map (fun l => (l.tag, l.valid, l.data)) =
          some (mcTag (addr / 64), true, memReads s.mem (addr / 64 * 64) 64)) ∧
  -- WRITE_THROUGH_DRAIN
  (∀ (slice : Nat) (e : WtEntry) (r : List WtEntry) (s : State),
    wtq s slice = e :: r → s.mc.storeWait = [] →
      ∃ t, exec (.writeThroughDrain slice) s = .next t ∧ wtq t slice = r ∧
        t.mem = e.bytes.foldl (fun m x => memWrite m (e.line * 64 + x.1) x.2) s.mem) ∧
  -- INVALIDATE, PREFETCH, LOCK, UNLOCK, VERIFY
  (∀ (tag : Nat) (spare : Bool) (s : State),
    s.mc.rangeQ.length < 5 →
      ∃ t, exec (.invalidate tag spare) s = .next t ∧ t.mc.rangeQ = s.mc.rangeQ ++
        [{ op := 1, base := fld s .mcRangeBase 40 6, lines := fld s .mcRangeLines 31 0, tag := tag, spare := spare }]) ∧
  (∀ (tag : Nat) (s : State),
    s.mc.rangeQ.length < 5 →
      ∃ t, exec (.prefetch tag) s = .next t ∧ t.mc.rangeQ = s.mc.rangeQ ++
        [{ op := 2, base := fld s .mcRangeBase 40 6, lines := fld s .mcRangeLines 31 0, tag := tag, spare := false }]) ∧
  (∀ (tag : Nat) (s : State),
    s.mc.rangeQ.length < 5 →
      ∃ t, exec (.lock tag) s = .next t ∧ t.mc.rangeQ = s.mc.rangeQ ++
        [{ op := 3, base := fld s .mcRangeBase 40 6, lines := fld s .mcRangeLines 31 0, tag := tag, spare := false }]) ∧
  (∀ (tag : Nat) (s : State),
    s.mc.rangeQ.length < 5 →
      ∃ t, exec (.unlock tag) s = .next t ∧ t.mc.rangeQ = s.mc.rangeQ ++
        [{ op := 4, base := fld s .mcRangeBase 40 6, lines := fld s .mcRangeLines 31 0, tag := tag, spare := false }]) ∧
  (∀ (tag : Nat) (s : State),
    s.mc.rangeQ.length < 5 →
      ∃ t, exec (.verify tag) s = .next t ∧ t.mc.rangeQ = s.mc.rangeQ ++
        [{ op := 5, base := fld s .mcRangeBase 40 6, lines := fld s .mcRangeLines 31 0, tag := tag, spare := false }]) ∧
  -- RANGE_OP_COMPLETE
  (∀ (eccs : List (Nat × Ecc)) (op : RangeOp) (rest : List RangeOp) (s : State),
    s.mc.rangeQ = op :: rest → s.mc.fills = [] →
      ∃ t, exec (.rangeOpComplete eccs) s = .next t ∧ t.mc.rangeQ = rest ∧ t.mc.lastTag = op.tag ∧ flag t .mcEvent 5 = true) ∧
  -- CACHE_DISABLE
  (∀ (s : State),
      ∃ t, exec .cacheDisable s = .next t ∧ flag t .mcCtrl 0 = false ∧ t.mc.ways = [] ∧ t.mc.cuff = [] ∧ t.mc.transit = [] ∧ t.mc.wtq = [] ∧
        t.mc.fills = []) ∧
  -- DIAG_WINDOW_ACCESS, a read and a write
  (∀ (off : Nat) (s : State), exec (.diagWindowAccess off none) s = .next (emit s (.regData 0 (diagRead s off)))) ∧
  (∀ (off k w : Nat) (v : Word) (s : State),
    flag s .mcCtrl 0 = false → diagPlace off = .data k w →
      ∃ t, exec (.diagWindowAccess off (some v)) s = .next t ∧
        (tget t.mc.ways k).map (·.data) = some (overlay ((tget s.mc.ways k).getD blankLine).data (8 * w) (leBytes 8 v.toNat)))

/-- What the Data Mover rows do: shadow registers, arming, stopping, reads, data, completion, halts. Rests on R294, R295, R296, R297, R298, R299, R300, R301, R303, R304, R305, R306. -/
def Obligations.MoverChannels : Prop :=
  -- SHADOW_WRITE, not armed and armed
  (∀ (ch : Nat) (v : Word) (s : State),
    (movAt s ch).arm = false → (movAt s ch).inHandOver = false →
      ∃ t, exec (.shadowWrite ch 0 v) s = .next t ∧ (movAt t ch).shadow.src = v.toNat) ∧
  (∀ (ch reg : Nat) (v : Word) (s : State),
    (movAt s ch).arm = true → (movAt s ch).inHandOver = false →
      ∃ t, exec (.shadowWrite ch reg v) s = .next t ∧ (movAt t ch).shadow = (movAt s ch).shadow ∧ (movAt t ch).shadowBusy = true ∧ flag t .movEvent 2 = true) ∧
  -- SHADOW_ARM, DISARM, STOP, STOP_DRAINED, CLEAR
  (∀ (ch : Nat) (s : State), (movAt s ch).inHandOver = false → ∃ t, exec (.shadowArm ch false) s = .next t ∧ (movAt t ch).arm = true) ∧
  (∀ (ch : Nat) (s : State), ∃ t, exec (.disarm ch) s = .next t ∧ (movAt t ch).arm = false) ∧
  (∀ (ch : Nat) (s : State),
    (movAt s ch).state = .running → (movAt s ch).inHandOver = false →
      ∃ t, exec (.stop ch) s = .next t ∧ (movAt t ch).stopped = true) ∧
  (∀ (ch : Nat) (s : State),
    (movAt s ch).stopped = true → (movAt s ch).outstanding = [] →
      ∃ t, exec (.stopDrained ch) s = .next t ∧ (movAt t ch).state = .halted ∧ (movAt t ch).err = 9 ∧ flag t .movErrPend ch = decide (ch < 64)) ∧
  (∀ (ch : Nat) (s : State),
    (movAt s ch).state = .halted →
      ∃ t, exec (.clear ch) s = .next t ∧ (movAt t ch).state = .idle ∧ (movAt t ch).err = 0) ∧
  -- SHADOW_HAND_OVER
  (∀ (ch : Nat) (s : State),
    (movAt s ch).inHandOver = false → (movAt s ch).state = .idle → (movAt s ch).arm = true → movOn s (movHalf ch) = true →
    loadError s (movAt s ch) (movAt s ch).shadow = none →
      ∃ t, exec (.shadowHandOver ch) s = .next t ∧ (movAt t ch).state = .running ∧ (movAt t ch).fromShadow = true ∧
        (movAt t ch).jobs = (movAt s ch).jobs ++ [{ desc := (movAt s ch).shadow }] ∧ (movAt t ch).arm = (movAt s ch).armAgain) ∧
  -- NEXT_FETCH of a descriptor without an error, within installed DRAM
  (∀ (ch n : Nat) (s : State),
    (movAt s ch).next = some n → (movAt s ch).state = .running → (movAt s ch).stopped = false → n % 32 = 0 → n + 32 ≤ 2 ^ 41 →
    loadError s (movAt s ch) (parseDesc (memReads s.mem n 32)) = none →
      ∃ t, exec (.nextFetch ch true) s = .next t ∧ (n + 32 ≤ Config.installedDramGib * 2 ^ 30 →
        t = movLoad s ch (parseDesc (memReads s.mem n 32)) false n)) ∧
  -- MOVER_READ_GRANT
  (∀ (half c : Nat) (x : MovCh) (j : MovJob) (s : State),
    movOn s half = true → ((s.mov.filter (fun e => movHalf e.1 == half)).map (fun e => e.2.outstanding.length)).sum < 256 →
    (sortBy (fun a b => decide (effPrio s a.2 ≤ effPrio s b.2)) ((s.mov.filter (fun e => movHalf e.1 == half)).filter (fun e => readReady e.2))).head? = some (c, x) →
    x.jobs.getLast? = some j →
      ∃ t, exec (.moverReadGrant half) s = .next t ∧ t.out = .moverRead c (j.desc.src + j.requested)
        (min (4096 - (j.desc.src + j.requested) % 4096) (j.desc.length - j.requested)) 2 :: s.out) ∧
  -- MOVER_DATA_RETURN
  (∀ (ch n i : Nat) (rest : List Nat) (data : Bytes) (j : MovJob) (s : State),
    (movAt s ch).late = 0 → (movAt s ch).outstanding = n :: rest →
    (movAt s ch).jobs.findIdx? (fun j => decide (j.returned < j.desc.length)) = some i → (movAt s ch).jobs[i]? = some j →
      ∃ t, exec (.moverDataReturn ch (.ok data)) s = .next t ∧ (movAt t ch).outstanding = rest ∧
        ((movAt t ch).jobs[i]?).map (·.returned) = some (j.returned + n)) ∧
  -- DESCRIPTOR_COMPLETE
  (∀ (ch : Nat) (j : MovJob) (rest : List MovJob) (s : State),
    (movAt s ch).jobs = j :: rest → j.desc.length ≤ j.returned →
      ∃ t, exec (.descriptorComplete ch) s = .next t ∧ (movAt t ch).completed = ((movAt s ch).completed + 1) % 2 ^ 16 ∧ (movAt t ch).lastTag = j.desc.tag) ∧
  -- COMPLETION_TIMEOUT
  (∀ (ch n : Nat) (rest : List Nat) (j : MovJob) (s : State),
    (movAt s ch).late = 0 → (movAt s ch).outstanding = n :: rest →
    (movAt s ch).jobs.find? (fun j => decide (j.returned < j.desc.length)) = some j → j.desc.srcSpace ≠ 0 →
      ∃ t, exec (.completionTimeout ch) s = .next t ∧ (movAt t ch).state = .halted ∧ (movAt t ch).err = 7)

/-- Doorbells, MCTP and in-band transports, and the identity group. Rests on R271, R272, R273, R275, R276, R278, R279, R281, R286. -/
def Obligations.MailboxChannels : Prop :=
  -- DOORBELL_RING
  (∀ (ch : Nat) (s : State),
    ch < 4 → flag s .ctlCtrl 0 = true → flag s .ctlCtrl 1 = true → (chanAt s ch).state = .idle →
      exec (.doorbellRing ch) s = .next (acceptMail s ch (bufferBytes (chanAt s ch)) none .pf0)) ∧
  (∀ (ch : Nat) (s : State), 4 ≤ ch → exec (.doorbellRing ch) s = .next (setBit s .ctlEvent 6)) ∧
  -- DOORBELL_ACK
  (∀ (ch : Nat) (s : State), ch < 4 → (chanAt s ch).state = .done → ∃ t, exec (.doorbellAck ch) s = .next t ∧ (chanAt t ch).state = .idle) ∧
  -- IDENTIFY, GET_OPERATION, GET_EVENTS
  (∀ (ch : Nat) (s : State), Safety.mbxReady s ch 0x100 = true → exec (.mailboxIdentify ch) s = .next (respond s ch 0 0 0 (identifyPay s))) ∧
  (∀ (ch : Nat) (o : Op) (s : State),
    Safety.mbxReady s ch 0x101 = true → tget s.ctl.ops (fieldAt (Safety.payOf s ch) 0 4) = some o →
      exec (.getOperation ch) s = .next (respond (operationPay s (fieldAt (Safety.payOf s ch) 0 4) o).1 ch 0 0 0 (operationPay s (fieldAt (Safety.payOf s ch) 0 4) o).2)) ∧
  (∀ (ch : Nat) (s : State),
    Safety.mbxReady s ch 0x102 = true → (1 ≤ fieldAt (Safety.payOf s ch) 8 2 ∧ fieldAt (Safety.payOf s ch) 8 2 ≤ 126) →
      exec (.getEvents ch) s = .next (respond s ch 0 0 0 (eventsPay s (fieldAt (Safety.payOf s ch) 0 8) (fieldAt (Safety.payOf s ch) 8 2)))) ∧
  -- ENTDAA
  (∀ (a : Nat) (s : State), flag s .ctlCtrl 2 = true → ∃ t, exec (.entdaa a) s = .next t ∧ t.ctl.i3cAddr = some (a % 128)) ∧
  -- an MCTP request, and the MCTP control messages
  (∀ (ep tag c : Nat) (r : Bytes) (s : State),
    i3cOn s = true → flag s .ctlCtrl 0 = true → idleOf s 4 = some c →
      exec (.mctpMessage ep tag r) s = .next (acceptMail (setChan s c (fun h => { h with reqBuf := sparseWrite [] 0 (r.take 4096) })) c
        (r.take 4096) (some r.length) (.i3c ep tag))) ∧
  (∀ (eid : Nat) (s : State),
    i3cOn s = true → (1 ≤ eid ∧ eid ≤ 254) →
      ∃ t, exec (.setEndpointId eid) s = .next t ∧ t.ctl.eid = eid ∧ t.out = .mctpControl 1 [0, 0, BitVec.ofNat 8 eid, 0] :: s.out) ∧
  (∀ (s : State), i3cOn s = true → exec .getEndpointId s = .next (emit s (.mctpControl 2 [0, BitVec.ofNat 8 s.ctl.eid, 0, 0]))) ∧
  (∀ (s : State),
    i3cOn s = true →
      ∃ v : Bytes, exec .getMctpVersionSupport s = .next (emit { s with fresh := s.fresh + 1 } (.mctpControl 4 (0 :: 1 :: v)))) ∧
  (∀ (s : State), i3cOn s = true → exec .getMessageTypeSupport s = .next (emit s (.mctpControl 5 [0, 1, 0x7F]))) ∧
  (∀ (s : State),
    i3cOn s = true →
      ∃ v : Bytes, exec .getVendorDefinedMessageSupport s = .next (emit { s with fresh := s.fresh + 1 }
        (.mctpControl 6 ([0, 0xFF, 1] ++ beBytes 4 Config.ianaFuses.toNat ++ v)))) ∧
  -- INBAND_DATAGRAM refused, and accepted when its MAC is right, its counter new and its nonce the current one
  (∀ (lane port : Nat) (src : BitVec 128) (b key : Bytes) (s : State),
    (netPortAt s lane).link = true →
    (rateWindow (netPortAt (frameIn s lane) lane).ctlWin (nowOf (frameIn s lane)) 10000).2 = true →
    s.ctl.inbandSecret = some key →
    flag (setNetPort (frameIn s lane) lane (fun p => { p with ctlWin := (rateWindow p.ctlWin (nowOf (frameIn s lane)) 10000).1 })) .ctlCtrl 3 = true →
    flag (setNetPort (frameIn s lane) lane (fun p => { p with ctlWin := (rateWindow p.ctlWin (nowOf (frameIn s lane)) 10000).1 })) .ctlCtrl 0 = true →
    b.length < 112 →
      ∃ t, exec (.inbandDatagram lane src port b) s = .next t ∧ flag t .ctlEvent 3 = true) ∧
  (∀ (lane port : Nat) (src : BitVec 128) (b key : Bytes) (s : State),
    (netPortAt s lane).link = true →
    (rateWindow (netPortAt (frameIn s lane) lane).ctlWin (nowOf (frameIn s lane)) 10000).2 = true →
    s.ctl.inbandSecret = some key →
    flag (setNetPort (frameIn s lane) lane (fun p => { p with ctlWin := (rateWindow p.ctlWin (nowOf (frameIn s lane)) 10000).1 })) .ctlCtrl 3 = true →
    flag (setNetPort (frameIn s lane) lane (fun p => { p with ctlWin := (rateWindow p.ctlWin (nowOf (frameIn s lane)) 10000).1 })) .ctlCtrl 0 = true →
    112 ≤ b.length → s.ctl.inband = [] → BitVec.ofNat 64 (fieldAt (b.take (b.length - 48)) 0 8) = s.ctl.nonce →
      ∃ t, exec (.inbandDatagram lane src port b) s = .next t ∧
        (hmacSha384 key (b.take (b.length - 48)) = b.drop (b.length - 48) →
          t = inbandAccept (setNetPort (frameIn s lane) lane (fun p => { p with ctlWin := (rateWindow p.ctlWin (nowOf (frameIn s lane)) 10000).1 })) lane src port
            s.ctl.nonce (fieldAt (b.take (b.length - 48)) 8 8) (fieldAt (b.take (b.length - 48)) 16 4) ((b.take (b.length - 48)).drop 32))) ∧
  -- OPERATION_END
  (∀ (id st : Nat) (o : Op) (s : State),
    tget s.ctl.ops id = some o → o.state = 1 → o.plan = some st →
      ∃ t, exec (.operationEnd id) s = .next t ∧ (tget t.ctl.ops id).map (fun x => (x.state, x.status)) = some (if st = 0 then 2 else 3, st))

/-- What the pool and volume groups of mailbox requests do when nothing refuses them. Rests on R20, R22, R136, R142, R149, R274, R275, R281, R282, R283. -/
def Obligations.PoolAndVolumeRequests : Prop :=
  -- POOL_CREATE
  (∀ (ch : Nat) (s : State),
    Safety.mbxReady s ch 0x200 = true → createRefused s (Safety.payOf s ch) = none →
      ∃ y op pi p, exec (.poolCreate ch) s = .next (respond y ch 1 0 op (zeros 8)) ∧ poolAt s pi = none ∧ poolAt y pi = some p ∧
        p.layout = fieldAt (Safety.payOf s ch) 0 1 ∧ p.k = fieldAt (Safety.payOf s ch) 1 1 ∧ p.stripShift = fieldAt (Safety.payOf s ch) 2 1) ∧
  -- POOL_IMPORT
  (∀ (ch : Nat) (bad : List (Nat × Nat)) (l : Ledger) (s : State),
    Safety.mbxReady s ch 0x201 = true → bestLedger s (BitVec.ofNat 64 (fieldAt (Safety.payOf s ch) 0 8)) = some l →
    importRefused s l (fieldAt (Safety.payOf s ch) 8 1) = none →
      ∃ y op g, exec (.poolImport ch bad) s = .next (respond y ch 1 g op (zeros 8)) ∧ y.pools.any (fun e => e.2.id == l.poolId) = true) ∧
  -- POOL_EXPORT
  (∀ (ch : Nat) (p : Pool) (s : State),
    Safety.mbxReady s ch 0x202 = true → poolNamed s (fieldAt (Safety.payOf s ch) 0 1) = some p →
    held s (.pool (fieldAt (Safety.payOf s ch) 0 1)) = false → opFree s = true →
      ∃ y op g, exec (.poolExport ch) s = .next (respond y ch 1 g op (zeros 8)) ∧ (poolAt y (fieldAt (Safety.payOf s ch) 0 1)).map (·.online) = some false ∧
        (tget y.ctl.ops op).map (·.opcode) = some 0x202) ∧
  -- POOL_DELETE
  (∀ (ch : Nat) (p : Pool) (s : State),
    Safety.mbxReady s ch 0x203 = true → poolNamed s (fieldAt (Safety.payOf s ch) 0 1) = some p →
    held s (.pool (fieldAt (Safety.payOf s ch) 0 1)) = false →
    s.volumes.any (fun e => e.2.pool == fieldAt (Safety.payOf s ch) 0 1) = false →
      ∃ y g, exec (.poolDelete ch) s = .next (respond y ch 0 g 0 []) ∧ y.pools = tdel s.pools (fieldAt (Safety.payOf s ch) 0 1)) ∧
  -- POOL_CONVERT
  (∀ (ch : Nat) (p : Pool) (s : State),
    Safety.mbxReady s ch 0x206 = true → poolNamed s (fieldAt (Safety.payOf s ch) 0 1) = some p →
    held s (.pool (fieldAt (Safety.payOf s ch) 0 1)) = false → opFree s = true →
      ∃ y op g, exec (.poolConvert ch) s = .next (respond y ch 1 g op (zeros 8)) ∧ (tget y.ctl.ops op).map (·.opcode) = some 0x206) ∧
  -- POOL_QUERY
  (∀ (ch : Nat) (p : Pool) (s : State),
    Safety.mbxReady s ch 0x204 = true → poolNamed s (fieldAt (Safety.payOf s ch) 0 1) = some p →
      exec (.poolQuery ch) s = .next (respond s ch 0 (genOf s (fieldAt (Safety.payOf s ch) 0 1)) 0 (poolPay s (fieldAt (Safety.payOf s ch) 0 1) p))) ∧
  -- POOL_SET
  (∀ (ch sp ba lr : Nat) (p : Pool) (s : State),
    Safety.mbxReady s ch 0x205 = true → poolNamed s (fieldAt (Safety.payOf s ch) 0 1) = some p →
    held s (.pool (fieldAt (Safety.payOf s ch) 0 1)) = false →
    sp = (if fieldAt (Safety.payOf s ch) 1 1 % 2 = 1 then fieldAt (Safety.payOf s ch) 2 1 else p.spare) →
    ba = (if fieldAt (Safety.payOf s ch) 1 1 / 2 % 2 = 1 then fieldAt (Safety.payOf s ch) 3 1 else p.balance) →
    lr = (if fieldAt (Safety.payOf s ch) 1 1 / 4 % 2 = 1 then fieldAt (Safety.payOf s ch) 4 2 else p.logReserve) →
    (sp ≤ 8 ∧ ba ≤ 8 ∧ 1 ≤ lr ∧ lr ≤ 64) → fieldAt (Safety.payOf s ch) 1 1 % 2 = 0 →
      ∃ y g, exec (.poolSet ch) s = .next (respond y ch 0 g 0 []) ∧ (poolAt y (fieldAt (Safety.payOf s ch) 0 1)).map (fun q => (q.spare, q.balance, q.logReserve)) = some (sp, ba, lr)) ∧
  -- LOSS_READ, LOSS_ACK
  (∀ (ch : Nat) (p : Pool) (s : State),
    Safety.mbxReady s ch 0x207 = true → poolNamed s (fieldAt (Safety.payOf s ch) 0 1) = some p →
      ∃ g, exec (.lossRead ch) s = .next (respond s ch 0 g 0
        (pack 16 [(0, 2, ((p.losses.filter (fun x => decide (fieldAt (Safety.payOf s ch) 8 8 ≤ x.seq))).take 63).length), (8, 8, p.lossHead)] ++
          (((p.losses.filter (fun x => decide (fieldAt (Safety.payOf s ch) 8 8 ≤ x.seq))).take 63).map lossBytes).flatten))) ∧
  (∀ (ch : Nat) (p : Pool) (s : State),
    Safety.mbxReady s ch 0x208 = true → poolNamed s (fieldAt (Safety.payOf s ch) 0 1) = some p →
    held s (.pool (fieldAt (Safety.payOf s ch) 0 1)) = false → fieldAt (Safety.payOf s ch) 8 8 ≤ p.lossHead →
      ∃ y g, exec (.lossAck ch) s = .next (respond y ch 0 g 0 (leBytes 8 (max p.lossAcked (fieldAt (Safety.payOf s ch) 8 8)))) ∧ (poolAt y (fieldAt (Safety.payOf s ch) 0 1)).map (·.lossAcked) = some (max p.lossAcked (fieldAt (Safety.payOf s ch) 8 8))) ∧
  -- VOLUME_CREATE of a mapped volume
  (∀ (ch : Nat) (p : Pool) (s : State),
    Safety.mbxReady s ch 0x300 = true → poolNamed s (fieldAt (Safety.payOf s ch) 0 1) = some p →
    held s (.pool (fieldAt (Safety.payOf s ch) 0 1)) = false → volRefused s (Safety.payOf s ch) p = none →
    fieldAt (Safety.payOf s ch) 1 1 = 1 → fieldAt (Safety.payOf s ch) 4 2 ≠ 0xFFFF → opFree s = true →
      ∃ y op g, exec (.volumeCreate ch) s = .next (respond y ch 1 g op (zeros 8)) ∧
        (volAt y (fieldAt (Safety.payOf s ch) 4 2)).map (fun v => (v.pool, v.kind, v.capacity)) = some (fieldAt (Safety.payOf s ch) 0 1, .mapped, fieldAt (Safety.payOf s ch) 8 8)) ∧
  -- VOLUME_DELETE
  (∀ (ch : Nat) (v : Volume) (s : State),
    Safety.mbxReady s ch 0x301 = true → volNamed s (fieldAt (Safety.payOf s ch) 0 2) = some v →
    held s (.volume (fieldAt (Safety.payOf s ch) 0 2)) = false → (v.hosts = [] ∨ fieldAt (Safety.payOf s ch) 2 1 % 2 = 1) →
    opFree s = true →
      ∃ y op g, exec (.volumeDelete ch) s = .next (respond y ch 1 g op (zeros 8)) ∧ (volAt y (fieldAt (Safety.payOf s ch) 0 2)).map (·.hosts) = some [] ∧
        (tget y.ctl.ops op).map (·.opcode) = some 0x301) ∧
  -- VOLUME_SET of a capacity
  (∀ (ch : Nat) (v : Volume) (s : State),
    Safety.mbxReady s ch 0x302 = true → volNamed s (fieldAt (Safety.payOf s ch) 0 2) = some v →
    held s (.volume (fieldAt (Safety.payOf s ch) 0 2)) = false → v.kind = .mapped → fieldAt (Safety.payOf s ch) 2 1 = 1 →
    (v.capacity ≤ fieldAt (Safety.payOf s ch) 8 8 ∧ fieldAt (Safety.payOf s ch) 8 8 ≤ 2 ^ 41) →
      ∃ y g, exec (.volumeSet ch) s = .next (respond y ch 0 g 0 []) ∧ (volAt y (fieldAt (Safety.payOf s ch) 0 2)).map (·.capacity) = some (fieldAt (Safety.payOf s ch) 8 8)) ∧
  -- VOLUME_QUERY
  (∀ (ch : Nat) (v : Volume) (s : State),
    Safety.mbxReady s ch 0x303 = true → volNamed s (fieldAt (Safety.payOf s ch) 0 2) = some v →
      ∃ g, exec (.volumeQuery ch) s = .next (respond s ch 0 g 0 (volumePay s (fieldAt (Safety.payOf s ch) 0 2) v))) ∧
  -- VOLUME_ACCESS, granted and withdrawn
  (∀ (ch : Nat) (v : Volume) (s : State),
    Safety.mbxReady s ch 0x304 = true → volNamed s (fieldAt (Safety.payOf s ch) 0 2) = some v →
    held s (.volume (fieldAt (Safety.payOf s ch) 0 2)) = false → fieldAt (Safety.payOf s ch) 2 1 = 1 →
    v.hosts.contains (BitVec.ofNat 128 (fieldAt (Safety.payOf s ch) 16 16)) = false → accessPairs s < 65536 →
      ∃ y g pay, exec (.volumeAccess ch) s = .next (respond y ch 0 g 0 pay) ∧ (volAt y (fieldAt (Safety.payOf s ch) 0 2)).map (·.hosts) = some (v.hosts ++ [BitVec.ofNat 128 (fieldAt (Safety.payOf s ch) 16 16)])) ∧
  (∀ (ch : Nat) (v : Volume) (s : State),
    Safety.mbxReady s ch 0x304 = true → volNamed s (fieldAt (Safety.payOf s ch) 0 2) = some v →
    held s (.volume (fieldAt (Safety.payOf s ch) 0 2)) = false → fieldAt (Safety.payOf s ch) 2 1 = 2 →
    v.hosts.contains (BitVec.ofNat 128 (fieldAt (Safety.payOf s ch) 16 16)) = true →
      ∃ y g pay, exec (.volumeAccess ch) s = .next (respond y ch 0 g 0 pay) ∧
        (volAt y (fieldAt (Safety.payOf s ch) 0 2)).map (·.hosts) = some (v.hosts.filter (· != BitVec.ofNat 128 (fieldAt (Safety.payOf s ch) 16 16))))

/-- What the drive, policy and health groups of mailbox requests do when nothing refuses them. Rests on R11, R12, R123, R129, R274, R284, R287, Table 10.7. -/
def Obligations.DriveAndPolicyRequests : Prop :=
  -- DRIVE_INVENTORY
  (∀ (ch : Nat) (s : State),
    Safety.mbxReady s ch 0x400 = true →
      exec (.driveInventory ch) s = .next (respond s ch 0 0 0 (padTo 16 [BitVec.ofNat 8 (filledSlots s)] ++ ((List.range 64).map (inventoryEntry s)).flatten))) ∧
  -- DRIVE_ADMIT, to no pool and to one
  (∀ (ch : Nat) (b : Bool) (s : State),
    Safety.mbxReady s ch 0x401 = true → fieldAt (Safety.payOf s ch) 0 1 < 64 → fieldAt (Safety.payOf s ch) 1 1 = 0xFF →
    drivePool s (fieldAt (Safety.payOf s ch) 0 1) = none →
    admitRefused s (fieldAt (Safety.payOf s ch) 0 1) 0xFF (fieldAt (Safety.payOf s ch) 2 1) = none →
    formatUsable (driveAt s (fieldAt (Safety.payOf s ch) 0 1)) = true →
      ∃ y op, exec (.driveAdmit ch b) s = .next (respond y ch 1 0 op (zeros 8)) ∧ (driveAt y (fieldAt (Safety.payOf s ch) 0 1)).state = .ready) ∧
  (∀ (ch : Nat) (b : Bool) (p : Pool) (s : State),
    Safety.mbxReady s ch 0x401 = true → fieldAt (Safety.payOf s ch) 0 1 < 64 → fieldAt (Safety.payOf s ch) 1 1 ≠ 0xFF →
    poolNamed s (fieldAt (Safety.payOf s ch) 1 1) = some p →
    admitRefused s (fieldAt (Safety.payOf s ch) 0 1) (fieldAt (Safety.payOf s ch) 1 1) (fieldAt (Safety.payOf s ch) 2 1) = none →
    formatUsable (driveAt s (fieldAt (Safety.payOf s ch) 0 1)) = true →
      ∃ y op g, exec (.driveAdmit ch b) s = .next (respond y ch 1 g op (zeros 8)) ∧ (driveAt y (fieldAt (Safety.payOf s ch) 0 1)).state = .member ∧ (driveAt y (fieldAt (Safety.payOf s ch) 0 1)).pool = some (fieldAt (Safety.payOf s ch) 1 1)) ∧
  -- DRIVE_FAIL
  (∀ (ch pi : Nat) (s : State),
    Safety.mbxReady s ch 0x402 = true → fieldAt (Safety.payOf s ch) 0 1 < 64 →
    drivePool s (fieldAt (Safety.payOf s ch) 0 1) = some pi →
      exec (.driveFail ch) s = .next (respond (failMember s (fieldAt (Safety.payOf s ch) 0 1)) ch 0 (genOf (failMember s (fieldAt (Safety.payOf s ch) 0 1)) pi) 0 [])) ∧
  -- DRIVE_EVACUATE
  (∀ (ch pi : Nat) (p : Pool) (s : State),
    Safety.mbxReady s ch 0x403 = true → fieldAt (Safety.payOf s ch) 0 1 < 64 →
    drivePool s (fieldAt (Safety.payOf s ch) 0 1) = some pi → poolAt s pi = some p → mayLeave p = true →
    held s (.drive (fieldAt (Safety.payOf s ch) 0 1)) = false → (driveAt s (fieldAt (Safety.payOf s ch) 0 1)).state = .member →
    opFree s = true →
      ∃ y op g, exec (.driveEvacuate ch) s = .next (respond y ch 1 g op (zeros 8)) ∧ (driveAt y (fieldAt (Safety.payOf s ch) 0 1)).state = .evacuating ∧ (driveAt y (fieldAt (Safety.payOf s ch) 0 1)).evacOp = some op) ∧
  -- DRIVE_RELEASE
  (∀ (ch : Nat) (s : State),
    Safety.mbxReady s ch 0x404 = true → fieldAt (Safety.payOf s ch) 0 1 < 64 →
    drivePool s (fieldAt (Safety.payOf s ch) 0 1) = none → held s (.drive (fieldAt (Safety.payOf s ch) 0 1)) = false →
    (driveAt s (fieldAt (Safety.payOf s ch) 0 1)).state ≠ .empty →
      ∃ y, exec (.driveRelease ch) s = .next (respond y ch 0 0 0 []) ∧ (driveAt y (fieldAt (Safety.payOf s ch) 0 1)).state = .present ∧ (driveAt y (fieldAt (Safety.payOf s ch) 0 1)).pool = none) ∧
  -- POLICY_GET of the shelf, POLICY_SET
  (∀ (ch : Nat) (s : State),
    Safety.mbxReady s ch 0x500 = true → fieldAt (Safety.payOf s ch) 0 1 = 0 →
      exec (.policyGet ch) s = .next (respond s ch 0 s.ctl.policyGen 0
        (pack 16 [(0, 2, ((policyRows s).filter (fun r => r.2.1 == false)).length), (8, 8, s.ctl.policyGen)] ++
          (((policyRows s).filter (fun r => r.2.1 == false)).map (fun r => pack 8 [(0, 2, r.1), (2, 1, 0), (3, 1, 0), (4, 4, shelfPol s r.1)])).flatten))) ∧
  (∀ (ch : Nat) (s : State),
    Safety.mbxReady s ch 0x501 = true → (1 ≤ fieldAt (Safety.payOf s ch) 0 2 ∧ fieldAt (Safety.payOf s ch) 0 2 ≤ 64) →
    firstBad s ((List.range (fieldAt (Safety.payOf s ch) 0 2)).map (polEntry (Safety.payOf s ch))) = none →
      ∃ y pay, exec (.policySet ch) s = .next (respond y ch 0 (s.ctl.policyGen + 1) 0 pay) ∧ y.ctl.policyGen = s.ctl.policyGen + 1) ∧
  -- HEALTH_REPORT
  (∀ (ch : Nat) (r : Bytes) (s : State),
    Safety.mbxReady s ch 0x800 = true → (1 ≤ fieldAt (Safety.payOf s ch) 0 1 ∧ fieldAt (Safety.payOf s ch) 0 1 ≤ 5) →
    healthReport s (fieldAt (Safety.payOf s ch) 0 1) (fieldAt (Safety.payOf s ch) 1 1) = some r →
      exec (.healthReport ch) s = .next (respond s ch 0 0 0 r))

/-- What the firmware and key groups of mailbox requests do when nothing refuses them. Rests on R42, R274, R275, R285, R288, R289, R290, R291, R292. -/
def Obligations.FirmwareAndKeyRequests : Prop :=
  -- FW_DOWNLOAD of the first chunk
  (∀ (ch : Nat) (s : State),
    Safety.mbxReady s ch 0x600 = true → fieldAt (Safety.payOf s ch) 0 1 ≤ 2 → fieldAt (Safety.payOf s ch) 0 1 ≠ s.ctl.running →
    fieldAt (Safety.payOf s ch) 1 1 % 2 = 1 → fieldAt (Safety.payOf s ch) 4 4 = 0 →
    (1 ≤ fieldAt (Safety.payOf s ch) 8 4 ∧ fieldAt (Safety.payOf s ch) 8 4 ≤ 4048) →
      ∃ y, exec (.fwDownload ch) s = .next (respond y ch 0 0 0 (leBytes 4 (fieldAt (Safety.payOf s ch) 8 4))) ∧ (slotOf y.ctl (fieldAt (Safety.payOf s ch) 0 1)).bytes = sub (Safety.payOf s ch) 16 (fieldAt (Safety.payOf s ch) 8 4)) ∧
  -- FW_VERIFY, FW_STATUS
  (∀ (ch : Nat) (s : State),
    Safety.mbxReady s ch 0x601 = true → fieldAt (Safety.payOf s ch) 0 1 ≤ 2 → opFree s = true →
      ∃ y op, exec (.fwVerify ch) s = .next (respond y ch 1 0 op (zeros 8)) ∧ (slotOf y.ctl (fieldAt (Safety.payOf s ch) 0 1)).valid = (imageBad s (fieldAt (Safety.payOf s ch) 0 1)).isNone) ∧
  (∀ (ch : Nat) (s : State),
    Safety.mbxReady s ch 0x603 = true →
      exec (.fwStatus ch) s = .next (respond s ch 0 0 0 (slotEntry s.ctl.slotA ++ slotEntry s.ctl.slotB ++ slotEntry s.ctl.recovery ++
        pack 8 [(0, 1, s.ctl.running), (1, 1, (bootRec s).bootSlot), (4, 4, rollbackOf s)]))) ∧
  -- a raise of the anti-rollback counter, FW_COMMIT
  (∀ (v : Nat) (s : State),
    v < 2 ^ 32 → rollbackOf s < v →
      ∃ t, exec (.rollbackRaise v) s = .next t ∧ t.hbx.rollback0 = some v ∧ t.hbx.rollback1 = some v ∧ flag t .ctlEvent 4 = true) ∧
  (∀ (ch : Nat) (s : State),
    Safety.mbxReady s ch 0x604 = true → fieldAt (Safety.payOf s ch) 0 4 ≤ securityVersion (slotBytes s.ctl s.ctl.running) →
      exec (.fwCommit ch) s = .next (respond (raiseRollback s (fieldAt (Safety.payOf s ch) 0 4)) ch 0 0 0 (leBytes 4 (rollbackOf (raiseRollback s (fieldAt (Safety.payOf s ch) 0 4)))))) ∧
  -- FW_ACTIVATE, under a hold and by a warm start
  (∀ (ch : Nat) (s : State),
    Safety.mbxReady s ch 0x602 = true →
    activateRefused s (fieldAt (Safety.payOf s ch) 0 1) (fieldAt (Safety.payOf s ch) 2 2) = none →
    fieldAt (Safety.payOf s ch) 1 1 % 2 = 1 → s.ctl.safeMode = false →
      ∃ t, exec (.fwActivate ch) s = .next t ∧ (imageBad s (fieldAt (Safety.payOf s ch) 0 1) = none →
        t = respond (activateHold s (fieldAt (Safety.payOf s ch) 0 1) (fieldAt (Safety.payOf s ch) 2 2)).s ch 1 0 (activateHold s (fieldAt (Safety.payOf s ch) 0 1) (fieldAt (Safety.payOf s ch) 2 2)).op (zeros 8) ∧
        t.ctl.activation.map (·.slot) = some (fieldAt (Safety.payOf s ch) 0 1))) ∧
  (∀ (ch : Nat) (s : State),
    Safety.mbxReady s ch 0x602 = true →
    activateRefused s (fieldAt (Safety.payOf s ch) 0 1) (fieldAt (Safety.payOf s ch) 2 2) = none →
    fieldAt (Safety.payOf s ch) 1 1 % 2 = 0 → s.boot.want = none →
      ∃ t, exec (.fwActivate ch) s = .next t ∧ (imageBad s (fieldAt (Safety.payOf s ch) 0 1) = none →
        t = warmStart (respond (activateWarm s (fieldAt (Safety.payOf s ch) 0 1)).s ch 1 0 (activateWarm s (fieldAt (Safety.payOf s ch) 0 1)).op (zeros 8)) 9)) ∧
  -- ACTIVATION_ADOPT, ACTIVATION_TIMEOUT
  (∀ (a : Activation) (s : State),
    s.ctl.activation = some a → s.hq.cmds = [] →
      ∃ t, exec .activationAdopt s = .next t ∧ t.ctl.activation = none ∧ t.ctl.running = a.slot) ∧
  (∀ (a : Activation) (s : State),
    s.ctl.activation = some a →
      exec .activationTimeout s = .next (warmStart (endOp { reach s (a.holdFrom + 10000000000) with
        ctl := { (reach s (a.holdFrom + 10000000000)).ctl with activation := none } } a.opId 0x604) 9)) ∧
  -- KEK_SESSION and its lapse
  (∀ (ch : Nat) (s : State),
    Safety.mbxReady s ch 0x700 = true →
      ∃ y id pair, exec (.kekSession ch) s = .next (respond y ch 0 0 0 (padTo 96 (p384Public pair) ++ leBytes 4 id)) ∧
        y.ctl.sessions = s.ctl.sessions ++ [{ id := id, pair := pair, clientPub := sub (Safety.payOf s ch) 0 96, since := nowOf s }]) ∧
  (∀ (i : Nat) (x : KekSession) (s : State),
    s.ctl.sessions.find? (fun x => x.id == i) = some x →
      ∃ t, exec (.kekSessionLapse i) s = .next t ∧ t.ctl.sessions = s.ctl.sessions.filter (fun y => y.id != i) ∧ x.since + 60000000000 ≤ t.clk.now) ∧
  -- KEK_LOAD
  (∀ (ch : Nat) (x : KekSession) (s : State),
    Safety.mbxReady s ch 0x701 = true →
    s.ctl.sessions.find? (fun x => x.id == fieldAt (Safety.payOf s ch) 0 4 && decide (nowOf s < x.since + 60000000000)) = some x →
    fieldAt (Safety.payOf s ch) 4 2 ≤ 15 →
      ∃ y st pay, exec (.kekLoad ch) s = .next (respond y ch st 0 0 pay) ∧ y.ctl.sessions = s.ctl.sessions.filter (fun z => z.id != x.id) ∧
        (∀ k, kekDecrypt x.pair x.clientPub (sub (Safety.payOf s ch) 8 12) (sub (Safety.payOf s ch) 20 32) (sub (Safety.payOf s ch) 52 16) = some k →
          st = 0 ∧ tget y.ctl.keks (fieldAt (Safety.payOf s ch) 4 2) = some k)) ∧
  -- KEY_LOAD of the first key of a mapped volume
  (∀ (ch : Nat) (v : Volume) (kek : Bytes) (s : State),
    Safety.mbxReady s ch 0x702 = true → volNamed s (fieldAt (Safety.payOf s ch) 0 2) = some v →
    held s (.volume (fieldAt (Safety.payOf s ch) 0 2)) = false → v.encrypted = true → v.kind = .mapped → v.keyGen = 0 →
    fieldAt (Safety.payOf s ch) 2 2 = 1 → tget s.ctl.keks (fieldAt (Safety.payOf s ch) 4 2) = some kek →
      ∃ y st pay, exec (.keyLoad ch) s = .next (respond y ch st 0 0 pay) ∧ (∀ k, aesKeyUnwrap kek (sub (Safety.payOf s ch) 8 72) = some k →
        st = 0 ∧ (volAt y (fieldAt (Safety.payOf s ch) 0 2)).map (·.keyGen) = some 1 ∧ keyOf y (fieldAt (Safety.payOf s ch) 0 2) 1 = some k)) ∧
  -- KEY_ROTATE
  (∀ (ch : Nat) (v : Volume) (kek : Bytes) (s : State),
    Safety.mbxReady s ch 0x703 = true → volNamed s (fieldAt (Safety.payOf s ch) 0 2) = some v →
    held s (.volume (fieldAt (Safety.payOf s ch) 0 2)) = false → v.rotating = false → v.rotation = none → v.encrypted = true →
    v.keyGen ≠ 0 → fieldAt (Safety.payOf s ch) 2 2 ≠ 0 → fieldAt (Safety.payOf s ch) 2 2 ≠ v.keyGen →
    tget s.ctl.keks (fieldAt (Safety.payOf s ch) 4 2) = some kek → opFree s = true →
      ∃ y st op pay, exec (.keyRotate ch) s = .next (respond y ch st 0 op pay) ∧ (∀ k, aesKeyUnwrap kek (sub (Safety.payOf s ch) 8 72) = some k →
        st = 1 ∧ (volAt y (fieldAt (Safety.payOf s ch) 0 2)).map (fun w => (w.keyGen, w.prevKeyGen, w.rotating)) = some (fieldAt (Safety.payOf s ch) 2 2, v.keyGen, true))) ∧
  -- KEY_UNLOAD of every key, and of a volume
  (∀ (ch : Nat) (s : State),
    Safety.mbxReady s ch 0x704 = true → fieldAt (Safety.payOf s ch) 0 2 = 0xFFFF →
      ∃ y, exec (.keyUnload ch) s = .next (respond y ch 0 0 0 []) ∧ y.ctl.keys = []) ∧
  (∀ (ch : Nat) (v : Volume) (s : State),
    Safety.mbxReady s ch 0x704 = true → fieldAt (Safety.payOf s ch) 0 2 ≠ 0xFFFF →
    volNamed s (fieldAt (Safety.payOf s ch) 0 2) = some v → held s (.volume (fieldAt (Safety.payOf s ch) 0 2)) = false →
      ∃ y, exec (.keyUnload ch) s = .next (respond y ch 0 0 0 []) ∧ y.ctl.keys = s.ctl.keys.filter (fun k => k.vol != fieldAt (Safety.payOf s ch) 0 2)) ∧
  -- HOST_SECRET_SET: a record deleted, and stored
  (∀ (ch : Nat) (s : State),
    Safety.mbxReady s ch 0x705 = true → fieldAt (Safety.payOf s ch) 16 1 / 4 % 2 = 1 →
      ∃ y, exec (.hostSecretSet ch) s = .next (respond y ch 0 0 0 []) ∧ y.ctl.hosts = s.ctl.hosts.filter (fun h => !(h.hostId == BitVec.ofNat 128 (fieldAt (Safety.payOf s ch) 0 16)))) ∧
  (∀ (ch : Nat) (kek : Bytes) (s : State),
    Safety.mbxReady s ch 0x705 = true → fieldAt (Safety.payOf s ch) 16 1 / 2 % 4 = 0 →
    (1 ≤ fieldAt (Safety.payOf s ch) 17 1 ∧ fieldAt (Safety.payOf s ch) 17 1 ≤ 3) →
    tget s.ctl.keks (fieldAt (Safety.payOf s ch) 18 2) = some kek →
      ∃ y st pay, exec (.hostSecretSet ch) s = .next (respond y ch st 0 0 pay) ∧ (∀ k, aesKeyUnwrap kek (sub (Safety.payOf s ch) 24 72) = some k →
        st = 0 ∧ { hostId := BitVec.ofNat 128 (fieldAt (Safety.payOf s ch) 0 16), require := fieldAt (Safety.payOf s ch) 16 1 % 2 == 1, hash := fieldAt (Safety.payOf s ch) 17 1, host := some k } ∈ y.ctl.hosts)) ∧
  -- INBAND_SECRET_SET
  (∀ (ch : Nat) (kek : Bytes) (s : State),
    Safety.mbxReady s ch 0x706 = true → tget s.ctl.keks (fieldAt (Safety.payOf s ch) 0 2) = some kek →
      ∃ y st pay, exec (.inbandSecretSet ch) s = .next (respond y ch st 0 0 pay) ∧ (∀ k, aesKeyUnwrap kek (sub (Safety.payOf s ch) 8 56) = some k →
        st = 0 ∧ y.ctl.inbandSecret = some k))

/-- What the telemetry rows do: counter events, snapshots, dumps to DRAM and to PF1, frame sample records. Rests on R192, R357, R358, R360, R361, R362, R366, Table 10.7, Table 15.7. -/
def Obligations.TelemetryCountsAndDumps : Prop :=
  -- COUNTER_WRAP
  (∀ (counter value : Nat) (s : State),
    counterKnown counter = true → value ≤ 15 →
      exec (.counterWrap counter value) s = .next (countBy s counter value)) ∧
  -- COUNTER_READ
  (∀ (ch : Nat) (s : State),
    Safety.mbxReady s ch 0x801 = true → (1 ≤ fieldAt (Safety.payOf s ch) 2 2 ∧ fieldAt (Safety.payOf s ch) 2 2 ≤ 500) →
    fieldAt (Safety.payOf s ch) 0 2 + fieldAt (Safety.payOf s ch) 2 2 ≤ 2048 →
      exec (.counterRead ch) s = .next (respond s ch 0 0 0 (leBytes 8 (nowOf s) ++
        ((List.range (fieldAt (Safety.payOf s ch) 2 2)).map (fun i => leBytes 8 (ctrWord s.tel.ctrs (fieldAt (Safety.payOf s ch) 0 2 + i)))).flatten))) ∧
  -- SNAPSHOT_PERIODIC
  (∀ (s : State),
    dumpPeriod s ≠ 0 → nowOf s < (s.tel.lastPeriodic / dumpPeriod s + 1) * dumpPeriod s → s.tel.bufs = [] →
    s.boot.dramSelfRefresh = false →
      ∃ t, exec .snapshotPeriodic s = .next t ∧ nowOf t = (s.tel.lastPeriodic / dumpPeriod s + 1) * dumpPeriod s ∧
        t.tel.dumpSeq = s.tel.dumpSeq + 1 ∧ t.tel.missed = s.tel.missed) ∧
  -- SNAP
  (∀ (s : State),
    dumpPeriod s = 0 → s.tel.bufs = [] → s.boot.dramSelfRefresh = false →
      ∃ t, exec .snap s = .next t ∧ t.tel.dumpSeq = s.tel.dumpSeq + 1 ∧
        t.tel.bufs.map (fun e => (e.1, e.2.seq, e.2.trigger)) = (if flag s .telCtrl 0 || flag s .telDumpCfg 32 then [(0, s.tel.dumpSeq, 2)] else [])) ∧
  -- DUMP_CONFIG
  (∀ (ch : Nat) (s : State),
    Safety.mbxReady s ch 0x802 = true → fieldAt (Safety.payOf s ch) 0 4 ≤ 10000 →
      exec (.dumpConfig ch) s = .next (respond (dumpCfg s (fieldAt (Safety.payOf s ch) 0 4) (fieldAt (Safety.payOf s ch) 4 1 % 2 == 1)) ch 0 0 0 [])) ∧
  -- SAMPLE_CONFIG
  (∀ (ch : Nat) (s : State),
    Safety.mbxReady s ch 0x803 = true → (fieldAt (Safety.payOf s ch) 0 4 = 0 ∨ 16 ≤ fieldAt (Safety.payOf s ch) 0 4) →
    fieldAt (Safety.payOf s ch) 0 4 < 16777216 → fieldAt (Safety.payOf s ch) 4 4 < 16777216 →
      exec (.sampleConfig ch) s = .next (respond (setFld (setFld s .telSampleCfg 23 0 (fieldAt (Safety.payOf s ch) 0 4)) .fabSampleCfg 23 0 (fieldAt (Safety.payOf s ch) 4 4)) ch 0 0 0 [])) ∧
  -- DUMP_WRITE_COMPLETE
  (∀ (buffer : Nat) (d : Dump) (s : State),
    tget s.tel.bufs buffer = some d → d.dramLeft = true → s.boot.dramSelfRefresh = false → flag s .telCtrl 0 = true →
      exec (.dumpWriteComplete buffer) s =
        .next (dumpDone (setBit (store s ((bankGet s .telAreaBase).toNat + d.seq % 256 * 20480) (dumpBytes d)) .telEvent 0) buffer true)) ∧
  -- PF1_DUMP_WRITE: room, a full ring, a ring not enabled
  (∀ (i : Nat) (d : Dump) (s : State),
    s.tel.bufs = [(i, d)] → d.pf1Left = true → s.sep.ringEn = true → fnLive s.sep.pf1 = true →
    (s.sep.tail + 4294967296 - s.sep.head) % 4294967296 < s.sep.slots →
      ∃ t, exec .pf1DumpWrite s = .next t ∧ t.sep.tail = (s.sep.tail + 1) % 4294967296 ∧
        Out.hostWrite 1 (s.sep.ringBase.toNat + s.sep.tail % s.sep.slots * 20480) (dumpBytes d) false ∈ t.out) ∧
  (∀ (i : Nat) (d : Dump) (s : State),
    s.tel.bufs = [(i, d)] → d.pf1Left = true → s.sep.ringEn = true → fnLive s.sep.pf1 = true →
    s.sep.slots ≤ (s.sep.tail + 4294967296 - s.sep.head) % 4294967296 →
      ∃ t, exec .pf1DumpWrite s = .next t ∧ t.sep.tail = s.sep.tail ∧ t.sep.dropped = min 4294967295 (s.sep.dropped + 1)) ∧
  (∀ (i : Nat) (d : Dump) (s : State),
    s.tel.bufs = [(i, d)] → d.pf1Left = true → s.sep.ringEn = false →
      exec .pf1DumpWrite s = .next (dumpDone s i false)) ∧
  -- FRAME_SAMPLE_EXPORT
  (∀ (r : FrameSample) (rest : List FrameSample) (s : State),
    s.fab.samples = r :: rest → flag s .telCtrl 0 = true → s.boot.dramSelfRefresh = false →
      exec .frameSampleExport s = .next (store { s with fab := { s.fab with samples := rest } }
        ((bankGet s .telAreaBase).toNat + 0xC00000 + r.sampleSeq % 65536 * 160) (frameSampleBytes r)))

/-- What the power domain rows do: a request, a domain switched on and off, a domain whose power good does not come. Rests on R320, R321, Table 12.5. -/
def Obligations.PowerDomainsSwitch : Prop :=
  -- DOMAIN_REQUEST
  (∀ (v : Word) (s : State),
    (List.range 62).all (fun n => !(s.dom.on.getLsbD n) || v.getLsbD n) = true →
      ∃ t, exec (.domainRequest v) s = .next t ∧
        t.dom.target = (v.setWidth 62 &&& ~~~0x3000000000000#62) ||| (s.dom.target &&& 0x3000000000000#62) ∧ t.dom.on = s.dom.on) ∧
  (∀ (v : Word) (s : State),
    s.dom.on.getLsbD 60 = true → v.getLsbD 60 = false → flag s .ctlCtrl 1 = true →
      exec (.domainRequest v) s = .next (cfgReject s .pwrDomainReq)) ∧
  -- DOMAIN_SWITCH on and off
  (∀ (n : Nat) (s : State),
    domNext s = some n → s.dom.target.getLsbD n = true →
      ∃ t, exec .domainSwitch s = .next t ∧ t.dom.on = s.dom.on ||| (1#62 <<< n) ∧ t.dom.busy = s.dom.busy &&& ~~~(1#62 <<< n) ∧
        flag t .pwrEvent 0 = true) ∧
  (∀ (n : Nat) (s : State),
    domNext s = some n → s.dom.target.getLsbD n = false →
      ∃ t, exec .domainSwitch s = .next t ∧ t.dom.on = s.dom.on &&& ~~~(1#62 <<< n) ∧ t.dom.busy = s.dom.busy &&& ~~~(1#62 <<< n)) ∧
  -- DOMAIN_POWER_GOOD_TIMEOUT
  (∀ (n : Nat) (s : State),
    domNext s = some n → s.dom.target.getLsbD n = true →
      ∃ t, exec (.domainPowerGoodTimeout n) s = .next t ∧ t.dom.on = s.dom.on &&& ~~~(1#62 <<< n) ∧ flag t .pwrDomainFault n = true ∧
        flag t .pwrEvent 1 = true)

/-- What the drive slot rows do: chains, presence, reset release, link training, enumeration, reports and slot power. Rests on R69, R123, R129, R284, R379, R380, R381, R382. -/
def Obligations.SlotsLinksAndDrives : Prop :=
  -- SG_FRAME
  (∀ (west : Bool) (ins : List SgIn) (s : State),
      ∃ t, exec (.sgFrame west ins) s = .next t ∧
        Out.chainOut west (if (if west then s.chainW else s.chainE).broken then (if west then s.chainW else s.chainE).kept
          else chainOuts s (if west then 32 else 0)) ∈ t.out) ∧
  (∀ (ins : List SgIn) (s : State),
    ins.all (·.bit3) = true → s.chainE.onesRun = 2 → s.chainE.broken = false →
      ∃ t, exec (.sgFrame false ins) s = .next t ∧ t.chainE.broken = true ∧ t.chainE.kept = chainOuts s 0 ∧ t.drives = s.drives) ∧
  -- PRESENCE_DEBOUNCE
  (∀ (slot : Nat) (s : State),
    slot < 64 → (driveAt s slot).prsntN = false → (driveAt s slot).prsnt = false →
      ∃ t, exec (.presenceDebounce slot) s = .next t ∧ (driveAt t slot).prsnt = true ∧ (driveAt t slot).state = .present ∧
        flag t .drvEvent 1 = true ∧ nowOf t = max (nowOf s) ((driveAt s slot).prsntSince + 50000000) ∧
        ((driveAt s slot).setOff = false ∧ (driveAt s slot).faultLatched = false → (driveAt t slot).pwren = true)) ∧
  -- PERST_RELEASE
  (∀ (slot : Nat) (s : State),
    (driveAt s slot).prsnt = true → (driveAt s slot).pwren = true → (driveAt s slot).perst = true →
    (driveAt s slot).pwrfltN = true → (driveAt s slot).linkFault = false →
      exec (.perstRelease slot) s =
        .next (setDrive (reach s ((driveAt s slot).pwrenAt + 100000000)) slot (fun d => { d with perst := false }))) ∧
  -- DRIVE_LINK_TRAINING: trained, and both lanes bad
  (∀ (slot : Nat) (f : LaneFindings) (s : State),
    mayTrain s slot = true → f.shortTo = none → (f.lane0Bad && f.lane1Bad) = false →
      ∃ t, exec (.driveLinkTraining slot f) s = .next t ∧ (driveAt t slot).linkUp = true ∧ (driveAt t slot).gen = f.gen ∧
        (driveAt t slot).width = (if f.lane0Bad || f.lane1Bad then 1 else min 2 f.fdx) ∧ (driveAt t slot).degraded = (f.lane0Bad || f.lane1Bad)) ∧
  (∀ (slot : Nat) (f : LaneFindings) (s : State),
    mayTrain s slot = true → f.shortTo = none → f.lane0Bad = true → f.lane1Bad = true → (driveAt s slot).state = .present →
      ∃ t, exec (.driveLinkTraining slot f) s = .next t ∧ (driveAt t slot).state = .linkFault ∧ (driveAt t slot).linkFault = true ∧
        (driveAt t slot).linkUp = false ∧ flag t .drvEvent 2 = true) ∧
  -- DRIVE_ENUMERATION
  (∀ (slot : Nat) (i : DriveIdent) (s : State),
    (driveAt s slot).linkUp = true →
      ∃ t, exec (.driveEnumeration slot i) s = .next t ∧ (driveAt t slot).ident = some i ∧ (driveAt t slot).cmds = [] ∧ Out.nvmeEnable slot ∈ t.out) ∧
  -- SIDEBAND_READ
  (∀ (slot : Nat) (m : Smart) (s : State),
    (driveAt s slot).prsnt = true → (driveAt s slot).pwren = true → (driveAt s slot).linkUp = false →
      exec (.sidebandRead slot m) s =
        .next (setDrive s slot (fun d => { d with critWarning := m.critWarning, pctUsed := m.pctUsed, tempK := m.tempK }))) ∧
  -- CRITICAL_WARNING of a drive of no pool, and of a member
  (∀ (slot : Nat) (m : Smart) (s : State),
    (driveAt s slot).state ≠ .empty → (driveAt s slot).pool = none →
      exec (.criticalWarning slot m) s =
        .next (setDrive s slot (fun d => { d with critWarning := m.critWarning, pctUsed := m.pctUsed, tempK := m.tempK }))) ∧
  (∀ (slot pi : Nat) (r : EvacReason) (m : Smart) (p : Pool) (s : State),
    (driveAt s slot).state ≠ .empty → (driveAt s slot).pool = some pi → poolAt s pi = some p →
    [EvacReason.backup, .critical, .wear].find? (evacTrigger
          (setDrive s slot (fun d => { d with critWarning := m.critWarning, pctUsed := m.pctUsed, tempK := m.tempK })) p slot) = some r →
      exec (.criticalWarning slot m) s =
        .next (startEvac (setDrive s slot (fun d => { d with critWarning := m.critWarning, pctUsed := m.pctUsed, tempK := m.tempK })) slot r)) ∧
  -- SLOT_POWER off and on
  (∀ (ch : Nat) (s : State),
    Safety.mbxReady s ch 0x902 = true → fieldAt (Safety.payOf s ch) 0 1 < 64 →
    drivePool s (fieldAt (Safety.payOf s ch) 0 1) = none → held s (.drive (fieldAt (Safety.payOf s ch) 0 1)) = false →
    fieldAt (Safety.payOf s ch) 1 1 = 0 →
      exec (.slotPower ch) s = .next (respond (slotPowerOff (setDrive s (fieldAt (Safety.payOf s ch) 0 1) (fun d => { d with setOff := true })) (fieldAt (Safety.payOf s ch) 0 1)) ch 0 0 0 [])) ∧
  (∀ (ch : Nat) (s : State),
    Safety.mbxReady s ch 0x902 = true → fieldAt (Safety.payOf s ch) 0 1 < 64 →
    drivePool s (fieldAt (Safety.payOf s ch) 0 1) = none → held s (.drive (fieldAt (Safety.payOf s ch) 0 1)) = false →
    fieldAt (Safety.payOf s ch) 1 1 = 1 →
      exec (.slotPower ch) s = .next (respond (slotPowerOn (setDrive s (fieldAt (Safety.payOf s ch) 0 1) (fun d => { d with setOff := false, faultLatched := false })) (fieldAt (Safety.payOf s ch) 0 1)) ch 0 0 0 []))

/-- What the service endpoint rows do: PF0 sources, windows, BAR requests, links, Master Enable, resets and power states. Rests on R337, R340, R343, R344, R346, R347, R348, R349, R350, R352, R353, R354. -/
def Obligations.EndpointServesTheHost : Prop :=
  -- PF0_RAISE
  (∀ (v : Nat) (s : State), (5 ≤ v ∧ v < 64) → exec (.pf0Raise v) s = .next (pf0Source s v)) ∧
  (∀ (v : Nat) (s : State), (v < 5 ∨ 64 ≤ v) → exec (.pf0Raise v) s = .next (cfgReject s .sepPf0Raise)) ∧
  -- WIN_COMMIT of a read window on the MRAM, and refused
  (∀ (e : Nat) (s : State),
    e < 64 → bit (bankGet s (.sepWinShdCtrl e)) 2 = false → 0xA0000000000 ≤ (bankGet s (.sepWinShdBase e)).toNat →
    (bankGet s (.sepWinShdBase e)).toNat + winBytes (bankGet s (.sepWinShdCtrl e)) ≤ 0xA0020000000 →
      ∃ t, exec (.winCommit e) s = .next t ∧ flag t .sepWinCommit e = true ∧
        tget t.sep.wins e = some { base := bankGet s (.sepWinShdBase e), ctrl := bankGet s (.sepWinShdCtrl e), version := ((winAt s e).version + 1) % 256 }) ∧
  (∀ (e : Nat) (s : State),
    e < 64 → winCommitOk (bankGet s (.sepWinShdBase e)) (bankGet s (.sepWinShdCtrl e)) = false →
      exec (.winCommit e) s = .next (setBit s .sepEvent 10)) ∧
  -- WINDOW_DRAIN_DONE
  (∀ (e : Nat) (s : State), e < 64 → exec (.windowDrainDone e) s = .next (clearBit s .sepWinCommit e)) ∧
  -- BAR0_REQUEST: closed, poisoned, a mailbox buffer written and read, images, PF1
  (∀ (pf : Nat) (x : Tlp) (s : State),
    pf < 2 → s.sep.linkUp = true → barOpen s pf = false →
      exec (.bar0Request pf x) s = .next (sepUr s pf false)) ∧
  (∀ (pf : Nat) (x : Tlp) (b : Bytes) (s : State),
    pf < 2 → s.sep.linkUp = true → barOpen s pf = true → x.write = some b → x.poisoned = true →
      exec (.bar0Request pf x) s = .next (setBit s .sepEvent 8)) ∧
  (∀ (c o : Nat) (x : Tlp) (b : Bytes) (s : State),
    s.sep.linkUp = true → barOpen s 0 = true → c < 4 → o + x.len ≤ 4096 → o < 4096 → x.off = 0x10000 + 0x2000 * c + o →
    x.write = some b → x.poisoned = false →
      exec (.bar0Request 0 x) s = .next (setChan s c (fun h => { h with reqBuf := sparseWrite h.reqBuf o (padTo x.len b) }))) ∧
  (∀ (c o : Nat) (x : Tlp) (s : State),
    s.sep.linkUp = true → barOpen s 0 = true → c < 4 → o + x.len ≤ 4096 → o < 4096 → x.off = 0x10000 + 0x2000 * c + 0x1000 + o →
    x.write = none →
      exec (.bar0Request 0 x) s = .next (emit s (.completion 0 (sparseRead (chanAt s c).respBuf o x.len) false))) ∧
  (∀ (x : Tlp) (w : Word) (s : State),
    s.sep.linkUp = true → barOpen s 0 = true → (x.off < 0x10000 ∨ (0x18000 ≤ x.off ∧ x.off < 0x30000)) →
    pf0Image s x.off = some w → imageSize x = true → x.write = none →
      exec (.bar0Request 0 x) s = .next (imageRead s 0 x w)) ∧
  (∀ (x : Tlp) (w : Word) (b : Bytes) (s : State),
    s.sep.linkUp = true → barOpen s 0 = true → x.off < 0x10000 → pf0Image s x.off = some w → imageSize x = true →
    x.write = some b → x.poisoned = false →
      exec (.bar0Request 0 x) s = .next (pf0ImageWrite s x.off (imageValue x b))) ∧
  (∀ (x : Tlp) (b : Bytes) (s : State),
    s.sep.linkUp = true → barOpen s 1 = true → x.off < 40 → imageSize x = true → x.write = some b → x.poisoned = false →
      exec (.bar0Request 1 x) s = .next (pf1Write s x.off (imageValue x b))) ∧
  -- BAR2_REQUEST: a write, a read of DRAM, no window
  (∀ (a : Nat) (x : Tlp) (b : Bytes) (s : State),
    s.sep.linkUp = true → barOpen s 0 = true → winTranslate s x = some a → x.write = some b → x.poisoned = false →
    s.boot.dramSelfRefresh = false →
      exec (.bar2Request x false) s = .next (store s a (padTo x.len b))) ∧
  (∀ (a : Nat) (x : Tlp) (s : State),
    s.sep.linkUp = true → barOpen s 0 = true → winTranslate s x = some a → x.write = none → s.boot.dramSelfRefresh = false →
    a + x.len ≤ 0x80000000000 →
      exec (.bar2Request x false) s = .next (emit s (.completion 0 (memReads s.mem a x.len) false))) ∧
  (∀ (x : Tlp) (e : Bool) (s : State),
    s.sep.linkUp = true → barOpen s 0 = true → winTranslate s x = none →
      exec (.bar2Request x e) s = .next (sepUr s 0 false)) ∧
  -- SEP_LINK_TRAINING and SEP_LINK_DOWN
  (∀ (speed width : Nat) (s : State),
    s.rails.coreReset = false → 4 ≤ s.boot.step → s.sep.linkUp = false → flag s .sepCtrl 1 = true → s.dom.on.getLsbD 60 = true →
    (1 ≤ speed ∧ speed ≤ 6) → width ∈ [1, 2, 4, 8] →
      ∃ t, exec (.sepLinkTraining speed width) s = .next t ∧ t.sep.linkUp = true ∧ t.sep.speed = speed ∧ t.sep.width = width ∧ flag t .sepEvent 0 = true) ∧
  (∀ (perst : Bool) (s : State),
    s.sep.linkUp = true →
      ∃ t, exec (.sepLinkDown perst) s = .next t ∧ t.sep.linkUp = false ∧ t.sep.pf0 = {} ∧ t.sep.pf1 = {} ∧ t.sep.intPend = 0) ∧
  -- MASTER_ENABLE_CLEAR and SET
  (∀ (pf : Nat) (s : State),
    pf < 2 → (sepFn s pf).me = true →
      ∃ t, exec (.masterEnableClear pf) s = .next t ∧ (sepFn t pf).me = false ∧ flag t .sepEvent (1 + pf) = true) ∧
  (∀ (pf : Nat) (s : State),
    pf < 2 → s.sep.linkUp = true → (sepFn s pf).flr = false → flag s .sepCtrl 2 = true →
      exec (.masterEnableSet pf) s = .next (sepFlush (setSepFn s pf (fun f => { f with me := true })) pf)) ∧
  -- FUNCTION_LEVEL_RESET and FLR_READY
  (∀ (pf : Nat) (s : State),
    pf < 2 → s.sep.linkUp = true → flag s .sepCtrl 2 = true →
      ∃ t, exec (.functionLevelReset pf) s = .next t ∧ sepFn t pf = { flr := true } ∧ flag t .sepEvent (3 + pf) = true) ∧
  (∀ (pf : Nat) (s : State), pf < 2 → exec (.flrReady pf) s = .next (setSepFn s pf (fun f => { f with flr := false }))) ∧
  -- D3HOT_ENTRY and D0_RETURN
  (∀ (pf : Nat) (s : State),
    pf < 2 → s.sep.linkUp = true → (sepFn s pf).flr = false → (sepFn s pf).d3 = false → flag s .sepCtrl 2 = true →
      ∃ t, exec (.d3hotEntry pf) s = .next t ∧ (sepFn t pf).d3 = true ∧ barOpen t pf = false) ∧
  (∀ (pf : Nat) (s : State), pf < 2 → exec (.d0Return pf) s = .next (sepFlush (setSepFn s pf (fun f => { f with d3 := false })) pf)) ∧
  -- PLL_LOCK_LOST of the endpoint, a network group and a drive group
  (∀ (s : State),
    s.rails.coreReset = false → s.clk.sepLock = true →
      exec (.pllLockLost .sep) s = .next (lockLost (sepDown { s with clk := { s.clk with sepLock := false } }) 1)) ∧
  (∀ (g : Nat) (s : State),
    s.rails.coreReset = false → g < 8 → s.clk.netLock.getLsbD g = true →
      exec (.pllLockLost (.net g)) s = .next (lockLost (netGroupDown s g) 1)) ∧
  (∀ (g : Nat) (s : State),
    s.rails.coreReset = false → g < 16 → s.clk.drvLock.getLsbD g = true →
      exec (.pllLockLost (.drv g)) s = .next (lockLost (drvGroupDown s g) 1))

/-- What REGISTER_WRITE and the diagnostics requests do: a register, a mailbox buffer, an undecoded address, REG_READ, REG_WRITE, SELF_TEST. Rests on R5, R6, R277, R281, R387, R388. -/
def Obligations.RegistersByAddressAndDiagnostics : Prop :=
  -- REGISTER_WRITE of a register, in a buffer, in memory, at no register
  (∀ (src addr v : Nat) (r : Reg) (sets clears : Word) (s : State),
    0xF0000000000 ≤ addr → mbxBuffer addr 8 = none → regOfAddr addr = some r →
      exec (.registerWrite src addr 8 v sets clears) s = .next (regWrite s r (BitVec.ofNat 64 v) sets clears)) ∧
  (∀ (src addr v : Nat) (r : Reg) (s : State),
    0xF0000000000 ≤ addr → mbxBuffer addr 8 = none → regOfAddr addr = some r → laneAbsent s r = false → shadowBusy s r = false →
    cfgOk s r (BitVec.ofNat 64 v) = false →
      exec (.registerWrite src addr 8 v 0 0) s = .next (cfgReject s r)) ∧
  (∀ (src addr size v : Nat) (r : Reg) (sets clears : Word) (s : State),
    0xF0000000000 ≤ addr → mbxBuffer addr size = none → regOfAddr addr = some r → size ≠ 8 →
      exec (.registerWrite src addr size v sets clears) s = .next (undecoded s src addr)) ∧
  (∀ (src addr size v c o : Nat) (resp : Bool) (sets clears : Word) (s : State),
    mbxBuffer addr size = some (c, resp, o) →
      exec (.registerWrite src addr size v sets clears) s = .next (setChan s c (fun h =>
        if resp then { h with respBuf := sparseWrite h.respBuf o (leBytes size v) } else { h with reqBuf := sparseWrite h.reqBuf o (leBytes size v) }))) ∧
  (∀ (src addr size v k : Nat) (sets clears : Word) (s : State),
    mbxBuffer addr size = none → memRegion addr size = some k → k < 2 →
      exec (.registerWrite src addr size v sets clears) s = .next (store s addr (leBytes size v))) ∧
  (∀ (src addr size v : Nat) (sets clears : Word) (s : State),
    0xF0000000000 ≤ addr → mbxBuffer addr size = none → regOfAddr addr = none →
      exec (.registerWrite src addr size v sets clears) s = .next (undecoded s src addr)) ∧
  -- REG_READ
  (∀ (ch : Nat) (s : State),
    Safety.mbxReady s ch 0xA01 = true → (1 ≤ fieldAt (Safety.payOf s ch) 8 2 ∧ fieldAt (Safety.payOf s ch) 8 2 ≤ 500) →
      exec (.regRead ch) s = .next (respond (readRegs s (fieldAt (Safety.payOf s ch) 0 8) (fieldAt (Safety.payOf s ch) 8 2)).1 ch 0 0 0 (readRegs s (fieldAt (Safety.payOf s ch) 0 8) (fieldAt (Safety.payOf s ch) 8 2)).2)) ∧
  -- REG_WRITE
  (∀ (ch : Nat) (r : Reg) (s : State),
    Safety.mbxReady s ch 0xA02 = true → 0xF0000000000 ≤ fieldAt (Safety.payOf s ch) 0 8 →
    mbxBuffer (fieldAt (Safety.payOf s ch) 0 8) 8 = none → regOfAddr (fieldAt (Safety.payOf s ch) 0 8) = some r →
      ∃ y, exec (.regWrite ch) s = .next (respond y ch 0 0 0 (leBytes 8 (regView y r).toNat)) ∧
        y = regWrite s r ((BitVec.ofNat 64 (fieldAt (Safety.payOf s ch) 8 8) &&& BitVec.ofNat 64 (fieldAt (Safety.payOf s ch) 16 8)) ||| (regView s r &&& (regInfo r).rw &&& ~~~(BitVec.ofNat 64 (fieldAt (Safety.payOf s ch) 16 8)))) 0 0) ∧
  -- SELF_TEST
  (∀ (ch : Nat) (f : Bool) (s : State),
    Safety.mbxReady s ch 0xA03 = true → fieldAt (Safety.payOf s ch) 0 1 < 4 → opFree s = true →
      ∃ y op, exec (.selfTest ch f) s = .next (respond y ch 1 0 op (zeros 8)) ∧
        (tget y.ctl.ops op).map (fun o => (o.opcode, o.plan)) = some (0xA03, some 0))

/-- What the feed and Glove rows do: readings, feed states, frames, the lease, the Crown, the interlock and the self-tests. Rests on R309, R310, R311, R312, R313, R315, R316, R317, R319, Table 12.3. -/
def Obligations.FeedsAndTheCrown : Prop :=
  -- GLOVE_ALIVE
  (∀ (g : Glove) (s : State),
    (gloveAt s g).alive = false →
      ∃ t, exec (.gloveAlive g) s = .next t ∧ (gloveAt t g).alive = true ∧ (gloveAt t g).aliveAt = nowOf s ∧ (gloveAt t g).crown = false ∧
        (s.stby.a.alive = false ∧ s.stby.b.alive = false → t.boot.step = 1 ∧ t.boot.cause = 1)) ∧
  -- FEED_CONVERSION
  (∀ (g : Glove) (va vb : Int) (ia ib : Nat) (fna fnb fba fbb : Bool) (s : State),
    (gloveAt s g).alive = true →
      ∃ t, exec (.feedConversion g va vb ia ib fna fnb fba fbb) s = .next t ∧
        t.stby.feedA.faultN = fna ∧ t.stby.feedB.faultN = fnb ∧ t.stby.feedA.fb = fba ∧ t.stby.feedB.fb = fbb ∧
        (if g = .a then t.stby.feedA.vOwn = some va ∧ t.stby.feedB.vPeer = some vb else t.stby.feedB.vOwn = some vb ∧ t.stby.feedA.vPeer = some va)) ∧
  -- FEED_STATE_CHANGE
  (∀ (x : Glove) (c t0 : Nat) (s : State),
    (feedAt s x).cand = some (c, t0) →
      ∃ t, exec (.feedStateChange x) s = .next t ∧ (feedAt t x).state = c ∧ (feedAt t x).cand = none ∧ (feedAt t x).changes = (feedAt s x).changes + 1 ∧
        nowOf t = max (nowOf s) (t0 + fld s .glvFeedCfg 7 0 * 1000) ∧ flag t .glvEvent 3 = true ∧ (c ≠ 2 → (gloveAt t x).crown = false)) ∧
  -- GLOVE_FRAME_SEND
  (∀ (g : Glove) (s : State),
    (gloveAt s g).alive = true →
      ∃ t, exec (.gloveFrameSend g) s = .next t ∧ (gloveAt t g).yieldDue = false ∧ t.out =
        .glove g (if (gloveAt s g).yieldDue then .yield else if (gloveAt s g).claiming && !(gloveAt s g).claimSent then .claim
            else if (gloveAt s g).crown && (gloveAt s g).frames % 16 == 0 then .renew else .none)
          (if (gloveAt s g).crown then codeG g else (gloveAt s g).view) (feedAt s g).state :: s.out) ∧
  -- GLOVE_FRAME_RECEIVE
  (∀ (g : Glove) (m : GMsg) (v periodNs : Nat) (rest : List (GMsg × Nat)) (s : State),
    (gloveAt s g).wire = (m, v) :: rest → (gloveAt s g).alive = true →
      ∃ t, exec (.gloveFrameReceive g true periodNs) s = .next t ∧ (gloveAt t g).wire = rest ∧ (gloveAt t g).lastFrame = some (nowOf s) ∧
        (m = .renew → (gloveAt t g).lastRenewRx = nowOf s)) ∧
  -- LINK_LOST and LINK_UP
  (∀ (g : Glove) (s : State),
    (gloveAt s g).alive = true → (gloveAt s g).lost = false →
      ∃ t, exec (.linkLost g) s = .next t ∧ (gloveAt t g).link = false ∧ (gloveAt t g).lost = true ∧ flag t .glvEvent 2 = true ∧
        nowOf t = max (nowOf s) ((gloveAt s g).lastFrame.getD (gloveAt s g).aliveAt + 1000000)) ∧
  (∀ (g : Glove) (t0 : Nat) (s : State),
    (gloveAt s g).unbrokenFrom = some t0 → (gloveAt s g).alive = true → (gloveAt s g).link = false →
      exec (.linkUp g) s = .next (setGlove (reach s (t0 + 100000000)) g (fun q => { q with link := true, lost := false }))) ∧
  -- LEASE_EXPIRY and CROWN_WAIT_EXPIRY
  (∀ (g : Glove) (s : State),
    (gloveAt s g).alive = true → (gloveAt s g).crown = true →
      ∃ t, exec (.leaseExpiry g) s = .next t ∧ (gloveAt t g).crown = false ∧ (gloveAt t g).request = false ∧ gateOf t g = false ∧
        nowOf t = max (nowOf s) ((gloveAt s g).lastRenewTx + 10000000)) ∧
  (∀ (g : Glove) (s : State),
    canClaim s g = true → (gloveAt s g).claiming = false → (gloveAt s g).lastFrame ≠ none → (gloveAt s (otherG g)).alive = true →
      ∃ t, exec (.crownWaitExpiry g) s = .next t ∧ (gloveAt t g).claiming = true ∧ (gloveAt t g).claimSent = false) ∧
  (∀ (g : Glove) (s : State),
    canClaim s g = true → (gloveAt s g).claiming = false → (gloveAt s g).lastFrame = none →
    (gloveAt s (otherG g)).request = false →
      ∃ t, exec (.crownWaitExpiry g) s = .next t ∧ (gloveAt t g).crown = true ∧ t.stby.crownChanges = s.stby.crownChanges + 1) ∧
  -- GATE_FB_TIMEOUT and GATE_RERAISE
  (∀ (x : Glove) (t0 : Nat) (s : State),
    (feedAt s x).disagreeFrom = some t0 → (feedAt s x).stuckOn = false → (feedAt s x).stuckOff = false →
      ∃ t, exec (.gateFbTimeout x) s = .next t ∧ nowOf t = max (nowOf s) (t0 + 1000000) ∧ flag t .glvEvent 4 = true ∧
        (gateOf s x = true → (gloveAt t x).crown = false) ∧ (gateOf s x = false → (feedAt t x).stuckOn = true)) ∧
  (∀ (x : Glove) (t0 : Nat) (s : State),
    (feedAt s x).stuckOn = true → (feedAt s x).fbLowFrom = some t0 →
      ∃ t, exec (.gateReraise x) s = .next t ∧ (feedAt t x).stuckOn = false ∧ nowOf t = max (nowOf s) (t0 + 100000000)) ∧
  -- INTERLOCK_CONFLICT, CONFLICT_CLEAR, DEAD_TIME_EXPIRY
  (∀ (s : State),
    s.stby.a.request = true → s.stby.b.request = true →
      ∃ t, exec .interlockConflict s = .next t ∧ t.stby.conflict = true ∧ t.stby.outA = false ∧ t.stby.outB = false ∧ t.stby.a.crown = false ∧
        t.stby.b.crown = false ∧ flag t .glvEvent 1 = true) ∧
  (∀ (s : State),
    s.stby.conflict = true → s.stby.a.request = false → s.stby.b.request = false → linkOk s = true →
      exec .conflictClear s = .next { s with stby := { s.stby with conflict := false } }) ∧
  (∀ (x : Glove) (s : State),
    [Glove.a, Glove.b].find? (mayRise s) = some x →
      ∃ t, exec .deadTimeExpiry s = .next t ∧ gateOf t x = true ∧ s.stby.lowSince + 40000 ≤ nowOf t ∧ nowOf t ≤ max (nowOf s) (s.stby.lowSince + 60000)) ∧
  -- the self-tests of Table 12.3
  (∀ (g : Glove) (mv : Nat) (s : State),
    (gloveAt s g).alive = true →
      ∃ t, exec (.senseWireTest g mv) s = .next t ∧ (feedAt t g).wire = (if 400 < mv then 6 else if mv < 20 then 7 else 0) ∧
        (gloveAt t g).failed.getLsbD 0 = decide (400 < mv ∨ mv < 20)) ∧
  (∀ (g : Glove) (e : Nat) (s : State),
    (gloveAt s g).alive = true →
      exec (.adcReferenceTest g e) s = .next (testResult s g 1 6 (decide (10 < e)))) ∧
  (∀ (o q : Int) (s : State),
    s.stby.a.alive = true → s.stby.b.alive = true → s.stby.feedA.vOwn = some o → s.stby.feedA.vPeer = some q →
      ∃ t, exec .adcAgreementTest s = .next t ∧ t.stby.a.failed.getLsbD 2 = decide (o.natAbs + 1000 < 50 * (o - q).natAbs)) ∧
  (∀ (g : Glove) (khz : Nat) (s : State),
    (gloveAt s g).alive = true → s.rails.coreReset = false →
      ∃ t, exec (.oscTimebaseTest g khz) s = .next t ∧ (gloveAt t g).oscKhz = khz ∧ (gloveAt t g).oscBase = decide (khz < 7760 ∨ 8240 < khz) ∧
        (gloveAt t g).failed.getLsbD 4 = decide (khz < 7760 ∨ 8240 < khz)) ∧
  (∀ (g : Glove) (mv : Nat) (s : State),
    (gloveAt s g).alive = true →
      exec (.standbyRailTest g mv) s = .next (testResult s g 5 9 (decide (mv < 3135 ∨ 3465 < mv)))) ∧
  (∀ (p1 p2 : Bool) (g : Glove) (s : State),
    [Glove.b, Glove.a].find? (fun g => (gloveAt s g).alive && !(gloveAt s g).crown) = some g →
      ∃ t, exec (.interlockTest p1 p2) s = .next t ∧ t.stby.testCycles = (s.stby.testCycles + 1) % 4294967296 ∧
        (gloveAt t g).failed.getLsbD 6 = (p1 || p2) ∧ ((p1 || p2) = true → t.stby.faultLatched = true ∧ t.stby.outA = false ∧ t.stby.outB = false)) ∧
  -- CROWN_CMD_HANDOVER, CROWN_HANDOVER, FEED_STATUS
  (∀ (dest : Glove) (s : State),
    (gloveAt s dest).crown = false → (feedAt s dest).state = 2 → (gloveAt s dest).alive = true → driftOf s dest = false →
    s.stby.conflict = false → s.stby.faultLatched = false → linkOk s = true →
      exec (.crownCmdHandover dest) s = .next (yieldCrown s (otherG dest))) ∧
  (∀ (dest : Glove) (n : Nat) (s : State),
    (handover s dest).1 = some n →
      exec (.crownCmdHandover dest) s = .next (setBit (handover s dest).2 .glvEvent 11)) ∧
  (∀ (ch : Nat) (dest : Glove) (s : State),
    Safety.mbxReady s ch 0x901 = true → fieldAt (Safety.payOf s ch) 0 1 = (if dest = .a then 0 else 1) →
    (handover s dest).1 = none →
      exec (.crownHandover ch) s = .next (respond (handover s dest).2 ch 0 0 0 [])) ∧
  (∀ (ch n : Nat) (dest : Glove) (s : State),
    Safety.mbxReady s ch 0x901 = true → fieldAt (Safety.payOf s ch) 0 1 = (if dest = .a then 0 else 1) →
    (handover s dest).1 = some n →
      exec (.crownHandover ch) s = .next (respond (handover s dest).2 ch 5 0 0 (leBytes 8 n))) ∧
  (∀ (ch : Nat) (s : State), Safety.mbxReady s ch 0x900 = true → exec (.feedStatus ch) s = .next (respond s ch 0 0 0 (feedPayload s)))

/-- What the rail and restart rows do: sequencing, power good, SYS_RST_N, THERMTRIP, warm starts and losses. Rests on R263, R264, R270, R309, R318, R323, R325, R376, R377, R378, R386, Table 10.7. -/
def Obligations.RailsAndRestarts : Prop :=
  -- RAIL_SEQUENCE_START, with the Crown held and without
  (∀ (t0 : Nat) (s : State),
    s.rails.en = 0 → s.rails.waitFeed = false → s.rails.retryAt = none → s.rails.crownFrom = some t0 →
      exec .railSequenceStart s = .next (raiseRail (reach s (t0 + 100000)) 0)) ∧
  (∀ (t0 : Nat) (s : State),
    s.rails.en = 0 → s.rails.waitFeed = false → s.rails.retryAt = none → s.rails.crownFrom = none → s.rails.aliveFrom = some t0 →
      exec .railSequenceStart s = .next (raiseRail (reach s (t0 + 30000000)) 0)) ∧
  -- RAIL_PG_RISE of a rail, and of the last
  (∀ (r : Nat) (s : State),
    r < 7 → s.rails.en.getLsbD r = true → s.rails.pg.getLsbD r = false → s.rails.en.getLsbD (r + 1) = false →
      ∃ t, exec (.railPgRise r) s = .next t ∧ t.rails.pg = s.rails.pg ||| (1#8 <<< r) ∧ t.rails.en = s.rails.en ||| (1#8 <<< (r + 1)) ∧
        nowOf t = nowOf s + 1000000 ∧ t.out = .railEn (r + 1) true :: s.out) ∧
  (∀ (s : State),
    s.rails.coreReset = true → s.clk.waitRef = false → s.boot.halt = 0 → s.rails.sysRstN = true → s.rails.en.getLsbD 7 = true →
    s.rails.pg = 0x7F →
      ∃ t, exec (.railPgRise 7) s = .next t ∧ t.rails.pg = 0xFF ∧ t.rails.coreReset = false ∧ t.boot.step = 3) ∧
  -- RAIL_PG_TIMEOUT and RAIL_RETRY
  (∀ (r : Nat) (s : State),
    s.rails.en.getLsbD r = true → s.rails.pg.getLsbD r = false →
      ∃ t, exec (.railPgTimeout r) s = .next t ∧ t.rails.en = 0 ∧ t.rails.pg = 0 ∧ nowOf t = max (nowOf s) (s.rails.enAt + 3000000) ∧
        t.rails.retryAt = some (nowOf t + 1000000000) ∧ t.boot.cause = 4) ∧
  (∀ (t0 : Nat) (s : State),
    s.rails.retryAt = some t0 → anyFeedOk s = true →
      ∃ t, exec .railRetry s = .next t ∧ t.rails.retryAt = none ∧ t.rails.en.getLsbD 0 = true ∧ nowOf t = max (nowOf s) t0) ∧
  -- POWER_GOOD_FALL and FEED_OK_RESTART
  (∀ (r : Nat) (s : State),
    s.rails.pg.getLsbD r = true → s.stby.a.alive = true →
      ∃ t, exec (.powerGoodFall r) s = .next t ∧ t.rails.en = 0 ∧ t.rails.coreReset = true ∧ t.rails.waitFeed = true ∧
        t.boot.cause = (if s.rails.thermtrip then 4 else if s.stby.pfWarned then 3 else 4)) ∧
  (∀ (t0 : Nat) (s : State),
    s.rails.waitFeed = true → s.stby.feedA.okSince = some t0 → s.stby.feedB.okSince = none →
      ∃ t, exec .feedOkRestart s = .next t ∧ t.rails.waitFeed = false ∧ t.rails.en.getLsbD 0 = true ∧ nowOf t = max (nowOf s) (t0 + 100000000)) ∧
  -- SYS_RST_N_ASSERT and RELEASE
  (∀ (s : State),
    s.rails.sysRstN = true → s.rails.coreReset = false →
      ∃ t, exec .sysRstNAssert s = .next t ∧ t.rails.sysRstN = false ∧ t.rails.coreReset = true ∧ t.boot.cause = 2 ∧ nowOf t = nowOf s + 1000) ∧
  (∀ (s : State),
    s.rails.coreReset = true → s.clk.waitRef = false → s.boot.halt = 0 → s.rails.sysRstN = false → s.rails.pg = 0xFF →
      ∃ t, exec .sysRstNRelease s = .next t ∧ t.rails.sysRstN = true ∧ t.rails.coreReset = false ∧ t.boot.step = 3) ∧
  -- THERMTRIP
  (∀ (d : Int) (s : State),
    125 ≤ d → s.rails.coreReset = false → s.rails.thermtrip = false →
      exec (.thermtrip d) s = .next (emit { s with rails := { s.rails with thermtrip := true } } (.thermtripN true))) ∧
  -- GLOVE_LOSS, of one and of the last
  (∀ (g : Glove) (s : State),
    (gloveAt s g).alive = true → (gloveAt s (otherG g)).alive = true →
      ∃ t, exec (.gloveLoss g) s = .next t ∧ (gloveAt t g).alive = false ∧ (gloveAt t g).crown = false ∧ gateOf t g = false ∧
        (feedAt t g).vOwn = none ∧ (feedAt t (otherG g)).vPeer = none) ∧
  (∀ (g : Glove) (s : State),
    (gloveAt s g).alive = true → (gloveAt s (otherG g)).alive = false →
      ∃ t, exec (.gloveLoss g) s = .next t ∧ t.stby = {} ∧ t.rails = {} ∧ t.bank = []) ∧
  -- WARM_START_DRAIN_TIMEOUT
  (∀ (c : Nat) (s : State),
    s.boot.quiesce = some c → s.hq.cmds = [] → s.pools.any (fun e => poolBusy e.2) = false →
      ∃ t, exec .warmStartDrainTimeout s = .next t ∧ t.boot.step = 3 ∧ t.boot.warm = true ∧ t.boot.cause = c ∧ t.boot.quiesce = none ∧
        t.boot.warmStarts = s.boot.warmStarts + 1) ∧
  (∀ (c : Nat) (s : State),
    s.boot.quiesce = some c → s.hq.cmds ≠ [] →
      exec .warmStartDrainTimeout s =
        .next (drainCheck (forAll (s.hq.cmds.map (·.1)) (fun s k => abortCmd s k 0x41) (reach s (s.hq.stopAt + 50000000))))) ∧
  -- PAIR_MISMATCH of one pair of two, and of the last
  (∀ (s : State),
    s.rails.coreReset = false → s.ctl.pairsUp = 3 →
      ∃ t, exec (.pairMismatch 0) s = .next t ∧ t.ctl.pairsUp = 2 ∧ t.ctl.mismatch0 = min 0xFFFF (s.ctl.mismatch0 + 1) ∧
        (t.boot.quiesce = some 10 ∨ (t.boot.cause = 10 ∧ t.boot.warm = true))) ∧
  (∀ (s : State),
    s.rails.coreReset = false → s.ctl.pairsUp = 2 →
      ∃ t, exec (.pairMismatch 1) s = .next t ∧ t.boot.cause = 6 ∧ t.boot.warm = false) ∧
  -- SOFT_RESET
  (∀ (ch : Nat) (s : State),
    Safety.mbxReady s ch 0xA00 = true → s.boot.quiesce = none → (s.ctl.safeMode = true ∨ esLevel s = 4) →
      exec (.softReset ch) s = .next (warmStart (respond s ch 0 0 0 []) 8))

/-- What the rows of a start do, step by step, and those of the boot watchdog, the clocks and shelf time. Rests on R326, R327, R328, R330, R331, R332, R334, R337, R338, R396, Table 13.2, Table 13.6. -/
def Obligations.StartStepsAndShelfTime : Prop :=
  -- BOOT_ROM
  (∀ (s : State),
    s.rails.coreReset = false → s.boot.step = 3 →
      ∃ t, exec .bootRom s = .next t ∧ t.boot.step = 4 ∧ t.boot.wdogRunning = true ∧ t.boot.prevCause = (bootRec s).lastCause ∧
        (s.boot.warm = false → t.clk.timeLock = true ∧ nowOf t = max (nowOf s) ((bootRec s).lastTime + 3000000000)) ∧
        (s.boot.warm = true → t.clk = s.clk)) ∧
  -- IMAGE_CHECK
  (∀ (s : State),
    s.rails.coreReset = false → s.boot.step = 4 →
      ∃ t, exec .imageCheck s = .next t ∧
        (imageBad s s.boot.slot = none → t.boot.step = 5 ∧ t.ctl.running = s.boot.slot ∧ t.ctl.safeMode = (s.boot.slot == 2)) ∧
        (imageBad s s.boot.slot ≠ none ∧ s.boot.slot = 2 → t.boot.halt ≠ 0 ∧ t.rails.coreReset = true) ∧
        (imageBad s s.boot.slot ≠ none ∧ s.boot.slot ≠ 2 → t.boot.step = 4 ∧ t.ctl = s.ctl)) ∧
  -- START_SELF_TEST without faults, cold and warm, and with a fault it cannot do without
  (∀ (s : State),
    s.rails.coreReset = false → s.boot.step = 5 → s.boot.warm = false →
    65536 + guaranteeSum s + fld s .fabGwCfg 19 0 ≤ bufferCells s.dom.on →
    (List.range 6).any (fun c => s.dom.on.getLsbD (40 + c)) = true → s.ctl.pairsUp ≠ 0 →
      ∃ t, exec (.startSelfTest {}) s = .next t ∧ t.boot.step = 6 ∧ t.clk.hclkLock = true ∧ t.hbx.mramOk = true ∧ t.hbx.driveJournal = false) ∧
  (∀ (s : State),
    s.rails.coreReset = false → s.boot.step = 5 → s.boot.warm = true →
    65536 + guaranteeSum s + fld s .fabGwCfg 19 0 ≤ bufferCells s.dom.on →
    (List.range 6).any (fun c => s.dom.on.getLsbD (40 + c)) = true → s.ctl.pairsUp ≠ 0 →
      ∃ t, exec (.startSelfTest {}) s = .next t ∧ t.boot.step = (if flag s .pwrCtrl 0 then 7 else 6) ∧ t.boot.dramSelfRefresh = false) ∧
  (∀ (f : SelfTestFaults) (s : State),
    s.rails.coreReset = false → s.boot.step = 5 → f.ctxCache = true →
      ∃ t, exec (.startSelfTest f) s = .next t ∧ t.boot.cause = 5 ∧ t.boot.step ≤ 3) ∧
  -- DDR_TRAINING_DONE
  (∀ (s : State),
    s.rails.coreReset = false → s.boot.step = 6 →
      ∃ t, exec .ddrTrainingDone s = .next t ∧ t.boot.step = 7 ∧ flag t .pwrCtrl 0 = true ∧ t.boot.dramSelfRefresh = false) ∧
  -- NETWORK_BRING_UP
  (∀ (s : State),
    s.rails.coreReset = false → s.boot.step = 7 →
      ∃ t, exec .networkBringUp s = .next t ∧ t.boot.step = 8 ∧ flag t .netCtrl 0 = true ∧ flag t .drvCtrl 0 = true ∧ flag t .qpCtrl 0 = true ∧
        flag t .hqCtrl 0 = true ∧ flag t .ctlCtrl 0 = true ∧ (∀ g, g < 8 → s.dom.on.getLsbD g = true → flag t .netCtrl (8 + g) = true)) ∧
  -- LEDGER_READ
  (∀ (s : State), s.rails.coreReset = false → s.boot.step = 8 → ∃ t, exec .ledgerRead s = .next t ∧ t.boot.step = 10) ∧
  -- ES_LEVEL_SET: the next level, and another
  (∀ (n : Nat) (s : State),
    n = esLevel s + 1 → n ≤ 4 → s.ctl.safeMode = false → levelReady s n = true →
      ∃ t, exec (.esLevelSet n) s = .next t ∧ esLevel t = n ∧ t.boot.step = (if n = 4 then 13 else 9 + n)) ∧
  (∀ (n : Nat) (s : State),
    (n ≠ esLevel s + 1 ∨ 4 < n ∨ s.ctl.safeMode = true ∨ levelReady s n = false) →
      exec (.esLevelSet n) s = .next (cfgReject s .hqEs)) ∧
  -- BOOT_WDOG_DONE, BOOT_WDOG_KICK, WDOG_WARN, WATCHDOG_EXPIRY
  (∀ (s : State),
    s.rails.coreReset = false → 5 ≤ s.boot.step → s.boot.wdogRunning = true →
    nowOf s < s.boot.wdogFrom + s.boot.wdogLoad * 1000000000 →
      ∃ t, exec .bootWdogDone s = .next t ∧ t.boot.wdogRunning = false ∧ t.boot.wdogDone = true) ∧
  (∀ (s : State),
    s.boot.wdogRunning = true → nowOf s < s.boot.wdogFrom + s.boot.wdogLoad * 1000000000 →
      exec .bootWdogKick s = .next { s with boot := { s.boot with wdogFrom := nowOf s, wdogLoad := fld s .clkBootWdog 15 0, wdogWarned := false } }) ∧
  -- the expiry in the same moment wins (R334)
  (∀ (s : State),
    s.rails.coreReset = false → 5 ≤ s.boot.step → s.boot.wdogRunning = true →
    s.boot.wdogFrom + s.boot.wdogLoad * 1000000000 ≤ nowOf s →
      exec .bootWdogDone s = .next (coldStart s 5) ∧ exec .bootWdogKick s = .next (coldStart s 5)) ∧
  (∀ (s : State),
    s.boot.wdogRunning = true → s.boot.wdogWarned = false →
      ∃ t, exec .wdogWarn s = .next t ∧ t.boot.wdogWarned = true ∧ flag t .clkEvent 0 = true ∧
        nowOf t = max (nowOf s) (s.boot.wdogFrom + s.boot.wdogLoad * 1000000000 - 10000000000)) ∧
  (∀ (s : State),
    s.boot.wdogRunning = true →
      ∃ t, exec .watchdogExpiry s = .next t ∧ t.boot.cause = 5 ∧ t.boot.wdogRunning = false ∧ nowOf t = max (nowOf s) (s.boot.wdogFrom + s.boot.wdogLoad * 1000000000)) ∧
  -- CLOCK_LOSS and REFERENCE_RETURN
  (∀ (c : CoreClock) (s : State),
    s.rails.pg = 0xFF →
      ∃ t, exec (.clockLoss c) s = .next t ∧ t.clk.waitRef = true ∧ t.boot.cause = 7 ∧ t.rails.coreReset = true ∧ (c = .ref25 → t.clk.lost25 = true)) ∧
  (∀ (s : State),
    s.clk.waitRef = true →
      ∃ t, exec .referenceReturn s = .next t ∧ t.clk.waitRef = false ∧ t.clk.lost25 = false ∧ nowOf t = nowOf s + 10000000) ∧
  -- LAST_TIME_UPDATE, TIME_SET, TIME_ADJ
  (∀ (s : State),
    s.rails.coreReset = false →
      ∃ t, exec .lastTimeUpdate s = .next t ∧ nowOf t = max (nowOf s) (s.clk.lastTimeAt + 1000000000) ∧ t.clk.lastTimeAt = nowOf t) ∧
  (∀ (v : Word) (s : State), nowOf s < v.toNat → ∃ t, exec (.timeSet v) s = .next t ∧ nowOf t = v.toNat ∧ flag t .clkEvent 1 = true) ∧
  (∀ (v : Word) (s : State), v.toNat ≤ nowOf s → exec (.timeSet v) s = .next (cfgReject s .clkTimeSet)) ∧
  (∀ (slew ppb : Int) (s : State),
    (-1000000000 ≤ slew ∧ slew ≤ 1000000000) → (-500000 ≤ ppb ∧ ppb ≤ 500000) →
      ∃ t, exec (.timeAdj slew ppb) s = .next t ∧ t.clk.slewLeft = slew ∧ t.clk.ppb = ppb ∧ t.clk.now = s.clk.now) ∧
  (∀ (slew ppb : Int) (s : State),
    (slew < -1000000000 ∨ 1000000000 < slew ∨ ppb < -500000 ∨ 500000 < ppb) →
      exec (.timeAdj slew ppb) s = .next (cfgReject s .clkTimeAdj))

/-- A step executes the command at the front of the queue on the rest of the queue; with none waiting a cycle passes (log entry 6). Rests on 95_what_each_step_holds. -/
def Obligations.StepTakesTheFrontCommand : Prop :=
  (∀ (c : Instr) (r : List Instr) (s : State), step { s with pending := c :: r } = exec c { s with pending := r }) ∧
  (∀ (s : State), s.pending = [] → step s = .next (tick s))

/-- Every command, in every state, ends in a next state: none faults and none is refused. Rests on 95_what_each_step_holds. -/
def Obligations.EveryCommandCompletes : Prop :=
  (∀ (c : Instr) (s : State), ∃ t, exec c s = .next t)

/-- No command changes the queue of waiting commands (the model's own, log entry 6). Rests on 95_what_each_step_holds. -/
def Obligations.NoCommandTouchesTheQueue : Prop :=
  (∀ (c : Instr) (s t : State), exec c s = .next t → t.pending = s.pending)

/-- No step takes shelf time back. Rests on R338. -/
def Obligations.ShelfTimeNeverRunsBackward : Prop :=
  (∀ (s t : State), step s = .next t → nowOf s ≤ nowOf t)

/-- Every step keeps memory canonical, the access count and the counters inside their fields, and the event list within 1,024. Rests on R286, R357, R359, R388. -/
def Obligations.EveryStepKeepsTheInvariant : Prop :=
  (∀ (s t : State), Safety.inv s = true → step s = .next t → Safety.inv t = true)

/-- The state after reset meets the invariant: memory lists nothing, no access is logged, no counter has counted, no event is kept. Rests on R286, R357, R388. -/
def Obligations.ResetMeetsTheInvariant : Prop :=
  (Safety.inv State.reset = true) ∧
  (State.reset.pending = [] ∧ State.reset.mem = [])

/-- A stored byte reads back, every other byte reads as before, and memory stays in its canonical form. Rests on R4, Table 17.1. -/
def Obligations.MemoryReadsBackWhatIsStored : Prop :=
  (∀ (a c : Nat) (b : Bytes) (s : State),
    memWf s.mem = true →
      memWf (store s a b).mem = true ∧
        memRead (store s a b).mem c = (if a ≤ c ∧ c < a + b.length then b.getD (c - a) 0 else memRead s.mem c)) ∧
  (∀ (m n : List Host.Cell), memWf m = true → memWf n = true → (∀ a, memRead m a = memRead n a) → m = n)

/-- Written register bits follow their access codes, and an event register keeps what the device sets in the same cycle. Rests on R6, R7, Table 0.4. -/
def Obligations.RegisterBitsFollowTheirCodes : Prop :=
  (∀ (i : RegInfo) (old v sets clears : Word) (k : Nat),
    k < 64 →
      (i.rw.getLsbD k = true → i.w1c.getLsbD k = false → i.w1s.getLsbD k = false → (accessWrite i old v sets clears).getLsbD k = v.getLsbD k) ∧
      (i.w1c.getLsbD k = true → i.rw.getLsbD k = false → i.w1s.getLsbD k = false →
        (accessWrite i old v sets clears).getLsbD k = ((old.getLsbD k && !(v.getLsbD k)) || sets.getLsbD k)) ∧
      (i.w1s.getLsbD k = true → i.rw.getLsbD k = false → i.w1c.getLsbD k = false →
        (accessWrite i old v sets clears).getLsbD k = ((old.getLsbD k && !(clears.getLsbD k)) || v.getLsbD k)) ∧
      (i.rw.getLsbD k = false → i.w1c.getLsbD k = false → i.w1s.getLsbD k = false → (accessWrite i old v sets clears).getLsbD k = false)) ∧
  (∀ (src : Nat) (r : Reg) (v sets clears : Word) (s : State),
    
    r ∈ [.fabEvent, .netEvent, .qpEvent, .hqEvent, .mapEvent, .mcEvent, .hbxEvent, .movEvent, .parEvent, .drvEvent, .sepEvent, .telEvent, .glvEvent, .pwrEvent, .clkEvent, .ctlEvent] →
      ∃ t, exec (.registerWrite src (regAddr r) 8 v.toNat sets clears) s = .next t ∧
        bankGet t r = ((bankGet s r &&& ~~~v) ||| sets) &&& (regInfo r).w1c)

/-- An access that no register or region takes is logged: the first is kept while VALID is 1, and each is counted. Rests on R5, R7, R388, Table 17.4. -/
def Obligations.UndecodedAccessesAreLogged : Prop :=
  (∀ (src addr : Nat) (s : State),
    s.decValid = false →
      undecoded s src addr = { s with decValid := true, decCount := min 127 (s.decCount + 1), decSrc := src, decAddr := addr }) ∧
  (∀ (src addr : Nat) (s : State), s.decValid = true → undecoded s src addr = { s with decCount := min 127 (s.decCount + 1) }) ∧
  (∀ (src addr len : Nat) (s : State),
    0xF0000000000 ≤ addr → mbxBuffer addr len = none → regOfAddr addr = none →
      busReads s src addr len = (undecoded s src addr, zeros len)) ∧
  (∀ (src addr len : Nat) (r : Reg) (s : State),
    0xF0000000000 ≤ addr → mbxBuffer addr len = none → regOfAddr addr = some r → len ≠ 8 →
      busReads s src addr len = (undecoded s src addr, zeros len)) ∧
  (∀ (src : Nat) (v : Word) (s : State),
    v.getLsbD 63 = true →
      exec (.registerWrite src (regAddr .sysDecodeLog) 8 v.toNat 0 0) s = .next { s with decValid := false, decCount := 0 }) ∧
  (∀ (src : Nat) (v sets : Word) (s : State),
    v.getLsbD 63 = true → sets.getLsbD 63 = true →
      exec (.registerWrite src (regAddr .sysDecodeLog) 8 v.toNat sets 0) s = .next { s with decValid := true, decCount := 1 })

/-- A window commit is refused outside DRAM, the MRAM and the diagnostic window, and for writing inside the latter two; every other is accepted. Rests on R349. -/
def Obligations.WindowCommitsAreCheckedAgainstTheMap : Prop :=
  (∀ (e : Nat) (s : State),
    e < 64 →
    ((((bankGet s (.sepWinShdBase e)).toNat + winBytes (bankGet s (.sepWinShdCtrl e)) ≤ Config.installedDramGib * 2 ^ 30 ∧ (bankGet s (.sepWinShdBase e)).toNat + winBytes (bankGet s (.sepWinShdCtrl e)) ≤ 2 ^ 41) ∨
          (bit (bankGet s (.sepWinShdCtrl e)) 2 = false ∧ ((0xA0000000000 ≤ (bankGet s (.sepWinShdBase e)).toNat ∧ (bankGet s (.sepWinShdBase e)).toNat + winBytes (bankGet s (.sepWinShdCtrl e)) ≤ 0xA0020000000) ∨
            (0xC0000000000 ≤ (bankGet s (.sepWinShdBase e)).toNat ∧ (bankGet s (.sepWinShdBase e)).toNat + winBytes (bankGet s (.sepWinShdCtrl e)) ≤ 0xC0040000000))))) →
      ∃ t, exec (.winCommit e) s = .next t ∧ flag t .sepWinCommit e = true ∧
        (tget t.sep.wins e).map (fun w => (w.base, w.ctrl)) = some (bankGet s (.sepWinShdBase e), bankGet s (.sepWinShdCtrl e))) ∧
  (∀ (e : Nat) (s : State),
    e < 64 → flag s .sepWinCommit e = false →
    (¬ (((bankGet s (.sepWinShdBase e)).toNat + winBytes (bankGet s (.sepWinShdCtrl e)) ≤ Config.installedDramGib * 2 ^ 30 ∧ (bankGet s (.sepWinShdBase e)).toNat + winBytes (bankGet s (.sepWinShdCtrl e)) ≤ 2 ^ 41) ∨
          (bit (bankGet s (.sepWinShdCtrl e)) 2 = false ∧ ((0xA0000000000 ≤ (bankGet s (.sepWinShdBase e)).toNat ∧ (bankGet s (.sepWinShdBase e)).toNat + winBytes (bankGet s (.sepWinShdCtrl e)) ≤ 0xA0020000000) ∨
            (0xC0000000000 ≤ (bankGet s (.sepWinShdBase e)).toNat ∧ (bankGet s (.sepWinShdBase e)).toNat + winBytes (bankGet s (.sepWinShdCtrl e)) ≤ 0xC0040000000))))) →
      exec (.winCommit e) s = .next (setBit s .sepEvent 10) ∧ flag (setBit s .sepEvent 10) .sepWinCommit e = false)

/-- Commit, version, draining and busy: how an entry of the window table changes between its shadow and its active set. Rests on R348. -/
def Obligations.WindowSetsChangeByCommitAlone : Prop :=
  (∀ (e : Nat) (s : State),
    e < 64 → winCommitOk (bankGet s (.sepWinShdBase e)) (bankGet s (.sepWinShdCtrl e)) = true →
      ∃ t, exec (.winCommit e) s = .next t ∧ flag t .sepWinCommit e = true ∧
        tget t.sep.wins e = some { base := bankGet s (.sepWinShdBase e), ctrl := bankGet s (.sepWinShdCtrl e), version := ((winAt s e).version + 1) % 256 }) ∧
  (∀ (x : Tlp) (s t : State), t.sep.wins = s.sep.wins → winTranslate t x = winTranslate s x) ∧
  (∀ (e : Nat) (c : Instr) (s t : State),
    e < 64 → flag s .sepWinCommit e = true → Safety.groupOf c = .endpoint → c ≠ .windowDrainDone e → exec c s = .next t →
      flag t .sepWinCommit e = true) ∧
  (∀ (e : Nat) (s : State), e < 64 → ∃ t, exec (.windowDrainDone e) s = .next t ∧ flag t .sepWinCommit e = false) ∧
  (∀ (src e : Nat) (v sets clears : Word) (s : State),
    e < 64 → flag s .sepWinCommit e = true →
      exec (.registerWrite src (regAddr (.sepWinShdBase e)) 8 v.toNat sets clears) s = .next (setBit s .sepEvent 9) ∧
        exec (.registerWrite src (regAddr (.sepWinShdCtrl e)) 8 v.toNat sets clears) s = .next (setBit s .sepEvent 9))

/-- When a PF0 interrupt source is raised, and how it is signalled under MSI-X, under MSI and under neither. Rests on R346. -/
def Obligations.HostInterruptSources : Prop :=
  (∀ (v : Nat) (s : State), (5 ≤ v ∧ v < 64) → ∃ t, exec (.pf0Raise v) s = .next t ∧ t.sep.intPend = s.sep.intPend ||| (1#64 <<< v)) ∧
  (∀ (c : Nat) (msg : Bytes) (s : State),
    c < 4 → (chanAt s c).route = .pf0 →
      (chanAt (respondWith s c msg) c).state = .done ∧ (respondWith s c msg).sep.intPend = s.sep.intPend ||| (1#64 <<< c)) ∧
  (∀ (code object detail : Nat) (s : State),
      (mgmt s code object detail).sep.intPend = s.sep.intPend ||| (1#64 <<< 4) ∧ flag (mgmt s code object detail) .ctlEvent 5 = true) ∧
  (∀ (v : Nat) (s : State),
    s.sep.pf0.msix = true → fnLive s.sep.pf0 = true → vectorMasked s.sep.pf0 v = false →
      (pf0Source s v).out = .msix 0 v :: s.out) ∧
  (∀ (v : Nat) (s : State),
    v < 64 → s.sep.pf0.msix = true → (fnLive s.sep.pf0 && !(vectorMasked s.sep.pf0 v)) = false →
      (pf0Source s v).out = s.out ∧ (pf0Source s v).sep.pf0.pba.getLsbD v = true) ∧
  (∀ (v : Nat) (s : State),
    s.sep.pf0.msix = false → s.sep.pf0.msi = true → fnLive s.sep.pf0 = true → s.sep.pf0.msiMasked = false →
      (pf0Source s v).out = (if s.sep.intPend = 0 then .msi :: s.out else s.out)) ∧
  (∀ (x : Tlp) (b : Bytes) (s : State),
    s.sep.linkUp = true → barOpen s 0 = true → x.off = 0x1008 → imageSize x = true → x.write = some b → x.poisoned = false →
    s.sep.pf0.msix = false → s.sep.pf0.msi = true → fnLive s.sep.pf0 = true → s.sep.pf0.msiMasked = false →
      ∃ t, exec (.bar0Request 0 x) s = .next t ∧ t.sep.intPend = s.sep.intPend &&& ~~~(imageValue x b) ∧
        t.out = (if s.sep.intPend &&& ~~~(imageValue x b) = 0 then s.out else .msi :: s.out)) ∧
  (∀ (v : Nat) (s : State), s.sep.pf0.msix = false → s.sep.pf0.msi = false → (pf0Source s v).out = s.out)

/-- How counters chain, wrap, refuse a chain and take a change of EDGE or CHAIN. Rests on R359. -/
def Obligations.CountersWrapAndChain : Prop :=
  -- CHAIN
  (∀ (n v : Nat) (s : State),
    counterKnown n = true → (1 ≤ v ∧ v ≤ 15) → ctrHigh s.tel.ctrs n = false → (ctrOf s.tel.ctrs n).value < 281474976710656 →
    (ctrOf s.tel.ctrs n).chain = true →
    281474976710656 ≤ (ctrOf s.tel.ctrs n).value + (if (ctrOf s.tel.ctrs n).edge then 1 else v) →
    (ctrOf s.tel.ctrs (n + 1)).value < 281474976710656 →
      ∃ t, exec (.counterWrap n v) s = .next t ∧ (ctrOf t.tel.ctrs n).value = (ctrOf s.tel.ctrs n).value + (if (ctrOf s.tel.ctrs n).edge then 1 else v) - 281474976710656 ∧
        (ctrOf t.tel.ctrs n).ovf = (ctrOf s.tel.ctrs n).ovf ∧ (ctrOf t.tel.ctrs (n + 1)).value = ((ctrOf s.tel.ctrs (n + 1)).value + 1) % 281474976710656 ∧
        ((ctrOf s.tel.ctrs (n + 1)).value + 1 = 281474976710656 → (ctrOf t.tel.ctrs (n + 1)).chain = false →
          (ctrOf t.tel.ctrs (n + 1)).ovf = true ∧ flag t .telEvent 3 = true)) ∧
  (∀ (n v : Nat) (s : State), ctrHigh s.tel.ctrs n = true → exec (.counterWrap n v) s = .next s) ∧
  -- a wrap without CHAIN
  (∀ (n v : Nat) (s : State),
    counterKnown n = true → (1 ≤ v ∧ v ≤ 15) → ctrHigh s.tel.ctrs n = false → (ctrOf s.tel.ctrs n).value < 281474976710656 →
    (ctrOf s.tel.ctrs n).chain = false →
    281474976710656 ≤ (ctrOf s.tel.ctrs n).value + (if (ctrOf s.tel.ctrs n).edge then 1 else v) →
      ∃ t, exec (.counterWrap n v) s = .next t ∧ (ctrOf t.tel.ctrs n).value = (ctrOf s.tel.ctrs n).value + (if (ctrOf s.tel.ctrs n).edge then 1 else v) - 281474976710656 ∧
        (ctrOf t.tel.ctrs n).ovf = true ∧ flag t .telEvent 3 = true) ∧
  -- refused chains
  (∀ (src n : Nat) (v sets clears : Word) (s : State),
    n < 2048 → v.getLsbD 1 = true →
    (n = 0x7FF ∨ (ctrOf s.tel.ctrs (n + 1)).chain = true ∨ (n ≠ 0 ∧ (ctrOf s.tel.ctrs (n - 1)).chain = true)) →
      exec (.registerWrite src (regAddr (.telCtrCfg n)) 8 v.toNat sets clears) s = .next (setBit s .telEvent 4)) ∧
  -- a change of EDGE or CHAIN
  (∀ (src n : Nat) (v sets clears : Word) (s : State),
    n < 2048 →
    (v.getLsbD 1 = false ∨ (n ≠ 0x7FF ∧ (ctrOf s.tel.ctrs (n + 1)).chain = false ∧ (n = 0 ∨ (ctrOf s.tel.ctrs (n - 1)).chain = false))) →
      ∃ t, exec (.registerWrite src (regAddr (.telCtrCfg n)) 8 v.toNat sets clears) s = .next t ∧ (ctrOf t.tel.ctrs n).value = (ctrOf s.tel.ctrs n).value ∧
        (ctrOf t.tel.ctrs n).edge = v.getLsbD 0 ∧ (ctrOf t.tel.ctrs n).chain = v.getLsbD 1)

/-- A frame sample record that the control complex receives goes to the slot of its SAMPLE_SEQ; a discarded record leaves a gap. Rests on R366. -/
def Obligations.FrameSamplesGoToTheirSlots : Prop :=
  (∀ (r : FrameSample) (rest : List FrameSample) (s : State),
    s.fab.samples = r :: rest → flag s .telCtrl 0 = true → s.boot.dramSelfRefresh = false →
      exec .frameSampleExport s = .next (store { s with fab := { s.fab with samples := rest } }
        ((bankGet s .telAreaBase).toNat + 0xC00000 + r.sampleSeq % 65536 * 160) (frameSampleBytes r))) ∧
  (∀ (f : InFrame) (port : Nat) (egress : Bool) (s : State),
      (buildSample s f port egress).fab.sampleSeq = s.fab.sampleSeq + 1 ∧
        ((buildSample s f port egress).fab.samples = s.fab.samples ∨
          ∃ r, (buildSample s f port egress).fab.samples = s.fab.samples ++ [r] ∧ r.sampleSeq = s.fab.sampleSeq)) ∧
  (∀ (f : InFrame) (port : Nat) (egress : Bool) (s : State),
    portUp s 158 = false →
      (buildSample s f port egress).fab.samples = s.fab.samples)

/-- A command of an MSP I/O queue that ends with a failing status freezes its queue; another status leaves the queue as it was. Rests on R247. -/
def Obligations.FailedCommandsFreezeTheirQueue : Prop :=
  (∀ (slot st : Nat) (k : Cmd) (n : Conn) (u : Queue) (s : State),
    cmdAt s slot = some k → connAt s k.conn = some n → queueAt s k.conn k.queue = some u → n.nvme = false → u.lost = false →
      (queueAt (endCmd s slot st) k.conn k.queue).map (·.frozen) = some (u.frozen || (k.queue != 0 && !(quietStatus st)))) ∧
  (∀ (c q : Nat) (u : Queue) (s : State), queueAt s c q = some u → u.frozen = true → mayStart s c q = false)

/-- What a command of the network edge, the fabric or the Parity Units leaves as it was. Rests on R186, R192, R199. -/
def Obligations.FrameOfTheEdgeAndFabric : Prop :=
  (∀ (c : Instr) (s t : State),
    Safety.groupOf c = .edge → exec c s = .next t →
      
        t.mem = s.mem ∧ t.hq = s.hq ∧ t.pools = s.pools ∧ t.volumes = s.volumes ∧ t.drives = s.drives ∧ t.hbx = s.hbx ∧ t.mc = s.mc ∧
        t.mov = s.mov ∧ t.ctl = s.ctl ∧ t.stby = s.stby ∧ t.rails = s.rails ∧ t.dom = s.dom ∧ t.boot = s.boot ∧ t.sep = s.sep ∧
        t.dimms = s.dimms ∧ t.chainE = s.chainE ∧ t.chainW = s.chainW ∧ t.fresh = s.fresh ∧ Safety.keepsDecodeLog s t ∧
        Safety.keepsRegsBut (fun r => match r with | .fabEvent | .fabPortCtrl _ | .netEvent | .netGidAddrHi | .netGidAddrLo | .netGidAttr | .netGidSel | .parEvent | .telEvent => true | _ => false) s t)

/-- What a command of the transport or of connection management leaves as it was. Rests on R202, R229. -/
def Obligations.FrameOfTheTransport : Prop :=
  -- packets and connections
  (∀ (c : Instr) (s t : State),
    Safety.groupOf c = .transport → exec c s = .next t →
      
        t.mc = s.mc ∧ t.mov = s.mov ∧ t.stby = s.stby ∧ t.rails = s.rails ∧ t.dom = s.dom ∧ t.boot = s.boot ∧ t.dimms = s.dimms ∧
        t.chainE = s.chainE ∧ t.chainW = s.chainW ∧ Safety.keepsDecodeLog s t ∧
        Safety.keepsRegsBut (fun r => match r with | .ctlEvent | .fabEvent | .hqEvent | .mapEvent | .qpEvent | .telEvent => true | _ => false) s t) ∧
  -- queue pairs
  (∀ (c : Instr) (s t : State),
    Safety.groupOf c = .queuePairs → exec c s = .next t →
      
        t.net = s.net ∧ t.pools = s.pools ∧ t.volumes = s.volumes ∧ t.hbx = s.hbx ∧ t.fab = s.fab ∧ t.par = s.par ∧ t.mc = s.mc ∧
        t.mov = s.mov ∧ t.ctl = s.ctl ∧ t.stby = s.stby ∧ t.rails = s.rails ∧ t.dom = s.dom ∧ t.boot = s.boot ∧ t.sep = s.sep ∧
        t.dimms = s.dimms ∧ t.chainE = s.chainE ∧ t.chainW = s.chainW ∧ t.fresh = s.fresh ∧ Safety.keepsDecodeLog s t ∧
        Safety.keepsRegsBut (fun r => match r with | .hqEvent | .qpEvent | .telEvent => true | _ => false) s t)

/-- What a host command, or a command of the write path and the drives, leaves as it was. Rests on R31, R240. -/
def Obligations.FrameOfHostCommandsAndWrites : Prop :=
  -- host commands
  (∀ (c : Instr) (s t : State),
    Safety.groupOf c = .hosts → exec c s = .next t →
      
        t.net = s.net ∧ t.mc = s.mc ∧ t.mov = s.mov ∧ t.stby = s.stby ∧ t.rails = s.rails ∧ t.dom = s.dom ∧ t.boot = s.boot ∧
        t.dimms = s.dimms ∧ t.chainE = s.chainE ∧ t.chainW = s.chainW ∧ Safety.keepsDecodeLog s t ∧
        Safety.keepsRegsBut (fun r => match r with | .ctlEvent | .hqEvent | .mapEvent | .telEvent => true | _ => false) s t) ∧
  -- windows
  (∀ (c : Instr) (s t : State),
    Safety.groupOf c = .hostWindows → exec c s = .next t →
      
        t.mem = s.mem ∧ t.net = s.net ∧ t.pools = s.pools ∧ t.volumes = s.volumes ∧ t.drives = s.drives ∧ t.hbx = s.hbx ∧ t.fab = s.fab ∧
        t.par = s.par ∧ t.mc = s.mc ∧ t.mov = s.mov ∧ t.ctl = s.ctl ∧ t.stby = s.stby ∧ t.rails = s.rails ∧ t.dom = s.dom ∧
        t.boot = s.boot ∧ t.sep = s.sep ∧ t.dimms = s.dimms ∧ t.chainE = s.chainE ∧ t.chainW = s.chainW ∧ t.fresh = s.fresh ∧
        Safety.keepsDecodeLog s t ∧ Safety.keepsRegsBut (fun r => match r with | .hqEvent | .telEvent => true | _ => false) s t) ∧
  -- the write path
  (∀ (c : Instr) (s t : State),
    Safety.groupOf c = .writes → exec c s = .next t →
      
        t.net = s.net ∧ t.mc = s.mc ∧ t.mov = s.mov ∧ t.stby = s.stby ∧ t.rails = s.rails ∧ t.dom = s.dom ∧ t.boot = s.boot ∧
        t.dimms = s.dimms ∧ t.chainE = s.chainE ∧ t.chainW = s.chainW ∧ t.fresh = s.fresh ∧ Safety.keepsDecodeLog s t ∧
        Safety.keepsRegsBut (fun r => match r with | .ctlEvent | .fabEvent | .hbxEvent | .hqEvent | .mapEvent | .parEvent | .telEvent => true | _ => false) s t) ∧
  -- single steps of drive commands
  (∀ (c : Instr) (s t : State),
    Safety.groupOf c = .driveCommands → exec c s = .next t →
      
        t.mem = s.mem ∧ t.net = s.net ∧ t.volumes = s.volumes ∧ t.fab = s.fab ∧ t.par = s.par ∧ t.mc = s.mc ∧ t.mov = s.mov ∧
        t.ctl = s.ctl ∧ t.stby = s.stby ∧ t.rails = s.rails ∧ t.dom = s.dom ∧ t.boot = s.boot ∧ t.sep = s.sep ∧ t.dimms = s.dimms ∧
        t.chainE = s.chainE ∧ t.chainW = s.chainW ∧ t.fresh = s.fresh ∧ Safety.keepsDecodeLog s t ∧
        Safety.keepsRegsBut (fun r => match r with | .telEvent => true | _ => false) s t)

/-- What a command of folding, replay, repair, the map or the Hatbox journal leaves as it was. Rests on R59, R81, R124. -/
def Obligations.FrameOfUpkeepAndJournal : Prop :=
  -- folding, replay, repair and the map
  (∀ (c : Instr) (s t : State),
    Safety.groupOf c = .upkeep → exec c s = .next t →
      
        t.net = s.net ∧ t.mc = s.mc ∧ t.mov = s.mov ∧ t.stby = s.stby ∧ t.rails = s.rails ∧ t.dom = s.dom ∧ t.boot = s.boot ∧
        t.chainE = s.chainE ∧ t.chainW = s.chainW ∧ Safety.keepsDecodeLog s t ∧
        Safety.keepsRegsBut (fun r => match r with | .ctlEvent | .hbxEvent | .hqEvent | .mapEvent | .telEvent => true | _ => false) s t) ∧
  -- checkpoint starts and paces
  (∀ (c : Instr) (s t : State),
    Safety.groupOf c = .adjustments → exec c s = .next t →
      
        t.mem = s.mem ∧ t.net = s.net ∧ t.rdma = s.rdma ∧ t.hq = s.hq ∧ t.drives = s.drives ∧ t.hbx = s.hbx ∧ t.fab = s.fab ∧
        t.par = s.par ∧ t.mc = s.mc ∧ t.mov = s.mov ∧ t.ctl = s.ctl ∧ t.stby = s.stby ∧ t.rails = s.rails ∧ t.dom = s.dom ∧
        t.boot = s.boot ∧ t.sep = s.sep ∧ t.dimms = s.dimms ∧ t.chainE = s.chainE ∧ t.chainW = s.chainW ∧ t.txWait = s.txWait ∧
        t.out = s.out ∧ t.fresh = s.fresh ∧ Safety.keepsDecodeLog s t ∧
        Safety.keepsRegsBut (fun r => match r with | .mapEvent | .telEvent => true | _ => false) s t) ∧
  -- the journal
  (∀ (c : Instr) (s t : State),
    Safety.groupOf c = .journal → exec c s = .next t →
      
        t.net = s.net ∧ t.fab = s.fab ∧ t.par = s.par ∧ t.mc = s.mc ∧ t.mov = s.mov ∧ t.stby = s.stby ∧ t.rails = s.rails ∧
        t.dom = s.dom ∧ t.boot = s.boot ∧ t.dimms = s.dimms ∧ t.chainE = s.chainE ∧ t.chainW = s.chainW ∧ t.fresh = s.fresh ∧
        Safety.keepsDecodeLog s t ∧
        Safety.keepsRegsBut (fun r => match r with | .ctlEvent | .hbxCtrl | .hbxEvent | .hqEvent | .telEvent => true | _ => false) s t) ∧
  -- the ring
  (∀ (c : Instr) (s t : State),
    Safety.groupOf c = .ringUpkeep → exec c s = .next t →
      
        t.mem = s.mem ∧ t.net = s.net ∧ t.rdma = s.rdma ∧ t.hq = s.hq ∧ t.pools = s.pools ∧ t.volumes = s.volumes ∧ t.drives = s.drives ∧
        t.fab = s.fab ∧ t.par = s.par ∧ t.mc = s.mc ∧ t.mov = s.mov ∧ t.ctl = s.ctl ∧ t.stby = s.stby ∧ t.rails = s.rails ∧
        t.dom = s.dom ∧ t.boot = s.boot ∧ t.sep = s.sep ∧ t.dimms = s.dimms ∧ t.chainE = s.chainE ∧ t.chainW = s.chainW ∧
        t.txWait = s.txWait ∧ t.out = s.out ∧ t.fresh = s.fresh ∧ Safety.keepsDecodeLog s t ∧
        Safety.keepsRegsBut (fun r => match r with | .hbxEvent | .telEvent => true | _ => false) s t)

/-- What a command of the Map Cache or of the Data Movers leaves as it was. Rests on R165, R294. -/
def Obligations.FrameOfMapCacheAndMovers : Prop :=
  -- the Map Cache
  (∀ (c : Instr) (s t : State),
    Safety.groupOf c = .mapCache → exec c s = .next t →
      
        t.net = s.net ∧ t.rdma = s.rdma ∧ t.hq = s.hq ∧ t.pools = s.pools ∧ t.volumes = s.volumes ∧ t.drives = s.drives ∧ t.hbx = s.hbx ∧
        t.fab = s.fab ∧ t.par = s.par ∧ t.mov = s.mov ∧ t.ctl = s.ctl ∧ t.stby = s.stby ∧ t.rails = s.rails ∧ t.dom = s.dom ∧
        t.boot = s.boot ∧ t.clk = s.clk ∧ t.sep = s.sep ∧ t.dimms = s.dimms ∧ t.chainE = s.chainE ∧ t.chainW = s.chainW ∧
        t.txWait = s.txWait ∧ t.fresh = s.fresh ∧ Safety.keepsDecodeLog s t ∧
        Safety.keepsRegsBut (fun r => match r with | .mcCtrl | .mcEvent | .telEvent => true | _ => false) s t) ∧
  -- the Data Movers
  (∀ (c : Instr) (s t : State),
    Safety.groupOf c = .movers → exec c s = .next t →
      
        t.rdma = s.rdma ∧ t.hq = s.hq ∧ t.pools = s.pools ∧ t.volumes = s.volumes ∧ t.drives = s.drives ∧ t.hbx = s.hbx ∧ t.mc = s.mc ∧
        t.ctl = s.ctl ∧ t.stby = s.stby ∧ t.rails = s.rails ∧ t.dom = s.dom ∧ t.boot = s.boot ∧ t.clk = s.clk ∧ t.sep = s.sep ∧
        t.chainE = s.chainE ∧ t.chainW = s.chainW ∧ t.txWait = s.txWait ∧ Safety.keepsDecodeLog s t ∧
        Safety.keepsRegsBut (fun r => match r with | .fabEvent | .fabPortCtrl _ | .movDonePend | .movErrPend | .movEvent | .sepEvent | .telEvent => true | _ => false) s t)

/-- What a command of the mailbox channels, health, keys or telemetry leaves as it was. Rests on R274, R281, R362. -/
def Obligations.FrameOfTheMailboxAndTelemetry : Prop :=
  -- KEY_LOAD and KEY_ROTATE
  (∀ (c : Instr) (s t : State),
    Safety.groupOf c = .mailbox → exec c s = .next t →
      
        t.net = s.net ∧ t.fab = s.fab ∧ t.par = s.par ∧ t.mc = s.mc ∧ t.mov = s.mov ∧ t.stby = s.stby ∧ t.rails = s.rails ∧
        t.dom = s.dom ∧ t.boot = s.boot ∧ t.clk = s.clk ∧ t.dimms = s.dimms ∧ t.chainE = s.chainE ∧ t.chainW = s.chainW ∧
        Safety.keepsDecodeLog s t ∧
        Safety.keepsRegsBut (fun r => match r with | .ctlEvent | .hqEvent | .telEvent => true | _ => false) s t) ∧
  -- mailbox channels and health
  (∀ (c : Instr) (s t : State),
    Safety.groupOf c = .channels → exec c s = .next t →
      
        t.mem = s.mem ∧ t.rdma = s.rdma ∧ t.hq = s.hq ∧ t.pools = s.pools ∧ t.volumes = s.volumes ∧ t.drives = s.drives ∧ t.hbx = s.hbx ∧
        t.fab = s.fab ∧ t.par = s.par ∧ t.mc = s.mc ∧ t.mov = s.mov ∧ t.stby = s.stby ∧ t.rails = s.rails ∧ t.dom = s.dom ∧
        t.boot = s.boot ∧ t.dimms = s.dimms ∧ t.chainE = s.chainE ∧ t.chainW = s.chainW ∧ t.txWait = s.txWait ∧
        Safety.keepsDecodeLog s t ∧ Safety.keepsRegsBut (fun r => match r with | .ctlEvent | .telEvent => true | _ => false) s t) ∧
  -- telemetry
  (∀ (c : Instr) (s t : State),
    Safety.groupOf c = .telemetry → exec c s = .next t →
      
        t.net = s.net ∧ t.rdma = s.rdma ∧ t.hq = s.hq ∧ t.pools = s.pools ∧ t.volumes = s.volumes ∧ t.drives = s.drives ∧ t.hbx = s.hbx ∧
        t.par = s.par ∧ t.mc = s.mc ∧ t.mov = s.mov ∧ t.stby = s.stby ∧ t.rails = s.rails ∧ t.dom = s.dom ∧ t.boot = s.boot ∧
        t.dimms = s.dimms ∧ t.chainE = s.chainE ∧ t.chainW = s.chainW ∧ t.txWait = s.txWait ∧ t.fresh = s.fresh ∧
        Safety.keepsDecodeLog s t ∧
        Safety.keepsRegsBut (fun r => match r with | .fabSampleCfg | .telDumpCfg | .telEvent | .telSampleCfg => true | _ => false) s t)

/-- What a pool, volume, drive or firmware request that starts nothing anew leaves as it was. Rests on R274, R281, R284. -/
def Obligations.FrameOfObjectRequests : Prop :=
  -- requests that work on pools
  (∀ (c : Instr) (s t : State),
    Safety.groupOf c = .objects → exec c s = .next t →
      
        t.net = s.net ∧ t.mc = s.mc ∧ t.mov = s.mov ∧ t.stby = s.stby ∧ t.rails = s.rails ∧ t.dom = s.dom ∧ t.boot = s.boot ∧
        t.clk = s.clk ∧ t.dimms = s.dimms ∧ t.chainE = s.chainE ∧ t.chainW = s.chainW ∧ Safety.keepsDecodeLog s t ∧
        Safety.keepsRegsBut (fun r => match r with | .ctlEvent | .hbxCtrl | .hbxEvent | .hqEvent | .mapEvent | .telEvent => true | _ => false) s t) ∧
  -- queries and the like
  (∀ (c : Instr) (s t : State),
    Safety.groupOf c = .queries → exec c s = .next t →
      
        t.net = s.net ∧ t.rdma = s.rdma ∧ t.hq = s.hq ∧ t.fab = s.fab ∧ t.par = s.par ∧ t.mov = s.mov ∧ t.stby = s.stby ∧
        t.rails = s.rails ∧ t.dom = s.dom ∧ t.boot = s.boot ∧ t.clk = s.clk ∧ t.dimms = s.dimms ∧ t.chainE = s.chainE ∧
        t.chainW = s.chainW ∧ t.txWait = s.txWait ∧ Safety.keepsDecodeLog s t ∧
        Safety.keepsRegsBut (fun r => match r with | .ctlEvent | .hbxCtrl | .mcCtrl | .qpCcCfg | .telEvent => true | _ => false) s t)

/-- What a command of the feeds and the Gloves leaves as it was. Rests on R309, R315. -/
def Obligations.FrameOfTheFeeds : Prop :=
  (∀ (c : Instr) (s t : State),
    Safety.groupOf c = .feeds → exec c s = .next t →
      
        t.mem = s.mem ∧ t.net = s.net ∧ t.rdma = s.rdma ∧ t.hq = s.hq ∧ t.pools = s.pools ∧ t.volumes = s.volumes ∧ t.drives = s.drives ∧
        t.fab = s.fab ∧ t.par = s.par ∧ t.mc = s.mc ∧ t.mov = s.mov ∧ t.dom = s.dom ∧ t.dimms = s.dimms ∧ t.chainE = s.chainE ∧
        t.chainW = s.chainW ∧ t.txWait = s.txWait ∧ Safety.keepsDecodeLog s t ∧
        Safety.keepsRegsBut (fun r => match r with | .ctlEvent | .glvEvent | .telEvent => true | _ => false) s t)

/-- What a step of a start, a rail, a clock or time command, or a command of the service endpoint leaves as it was. Rests on R326, R338, R352. -/
def Obligations.FrameOfStartsAndTheEndpoint : Prop :=
  -- ES_LEVEL_SET
  (∀ (c : Instr) (s t : State),
    Safety.groupOf c = .starts → exec c s = .next t →
      
        t.net = s.net ∧ t.volumes = s.volumes ∧ t.fab = s.fab ∧ t.par = s.par ∧ t.mc = s.mc ∧ t.mov = s.mov ∧ t.stby = s.stby ∧
        t.rails = s.rails ∧ t.dom = s.dom ∧ t.clk = s.clk ∧ t.dimms = s.dimms ∧ t.chainE = s.chainE ∧ t.chainW = s.chainW ∧
        t.fresh = s.fresh ∧ Safety.keepsDecodeLog s t ∧
        Safety.keepsRegsBut (fun r => match r with | .ctlEvent | .hqEs | .hqEvent | .telEvent => true | _ => false) s t) ∧
  -- rails, the steps of a start, clocks
  (∀ (c : Instr) (s t : State),
    Safety.groupOf c = .startSteps → Safety.wdogInTime s = true → exec c s = .next t →
      
        t.mem = s.mem ∧ t.net = s.net ∧ t.rdma = s.rdma ∧ t.fab = s.fab ∧ t.par = s.par ∧ t.mc = s.mc ∧ t.mov = s.mov ∧ t.stby = s.stby ∧
        t.dom = s.dom ∧ t.tel = s.tel ∧ t.chainE = s.chainE ∧ t.chainW = s.chainW ∧ t.txWait = s.txWait ∧ Safety.keepsDecodeLog s t ∧
        Safety.keepsRegsBut (fun r => match r with | .clkEvent | .clkTimeAdj | .ctlCtrl | .ctlEvent | .drvCtrl | .hbxCtrl | .hqCtrl | .netCtrl | .netPortCtrl _ | .pwrCtrl | .qpCtrl | .sepCtrl => true | _ => false) s t) ∧
  -- the service endpoint
  (∀ (c : Instr) (s t : State),
    Safety.groupOf c = .endpoint → exec c s = .next t →
      
        t.net = s.net ∧ t.rdma = s.rdma ∧ t.hq = s.hq ∧ t.pools = s.pools ∧ t.volumes = s.volumes ∧ t.drives = s.drives ∧ t.hbx = s.hbx ∧
        t.fab = s.fab ∧ t.par = s.par ∧ t.mc = s.mc ∧ t.stby = s.stby ∧ t.rails = s.rails ∧ t.dom = s.dom ∧ t.boot = s.boot ∧
        t.chainE = s.chainE ∧ t.chainW = s.chainW ∧ t.txWait = s.txWait ∧ Safety.keepsDecodeLog s t ∧
        Safety.keepsRegsBut (fun r => match r with | .ctlEvent | .movErrPend | .movEvent | .sepEvent | .sepWinCommit | .telEvent => true | _ => false) s t)

/-- What drive slots, power domains and accesses by address leave as they were, and what every restart keeps. Rests on R263, R264, R320, R379. -/
def Obligations.FrameOfTheWiderCommands : Prop :=
  -- drive slots and power domains
  (∀ (c : Instr) (s t : State),
    Safety.groupOf c = .bays → exec c s = .next t →
      
        t.stby = s.stby ∧ t.rails = s.rails ∧ t.boot = s.boot ∧ Safety.keepsDecodeLog s t) ∧
  -- single steps
  (∀ (c : Instr) (s t : State),
    Safety.groupOf c = .slotSteps → exec c s = .next t →
      
        t.mem = s.mem ∧ t.rdma = s.rdma ∧ t.hq = s.hq ∧ t.pools = s.pools ∧ t.volumes = s.volumes ∧ t.mc = s.mc ∧ t.stby = s.stby ∧
        t.rails = s.rails ∧ t.boot = s.boot ∧ t.dimms = s.dimms ∧ t.chainE = s.chainE ∧ t.chainW = s.chainW ∧ t.txWait = s.txWait ∧
        Safety.keepsDecodeLog s t) ∧
  -- writes by address
  (∀ (c : Instr) (s t : State),
    Safety.groupOf c = .registers → Safety.wdogInTime s = true → exec c s = .next t →
      
        t.rails = s.rails ∧ t.dimms = s.dimms ∧ t.chainE = s.chainE ∧ t.chainW = s.chainW) ∧
  -- REG_READ and SELF_TEST
  (∀ (c : Instr) (s t : State),
    Safety.groupOf c = .diagnostics → exec c s = .next t →
      
        t.mem = s.mem ∧ t.rdma = s.rdma ∧ t.hq = s.hq ∧ t.pools = s.pools ∧ t.volumes = s.volumes ∧ t.drives = s.drives ∧ t.hbx = s.hbx ∧
        t.fab = s.fab ∧ t.par = s.par ∧ t.mc = s.mc ∧ t.mov = s.mov ∧ t.stby = s.stby ∧ t.rails = s.rails ∧ t.dom = s.dom ∧
        t.boot = s.boot ∧ t.clk = s.clk ∧ t.dimms = s.dimms ∧ t.chainE = s.chainE ∧ t.chainW = s.chainW ∧ t.txWait = s.txWait) ∧
  -- what may restart the device
  (∀ (c : Instr) (s t : State),
    Safety.groupOf c = .restarts → exec c s = .next t →
      t.ctl.policies = s.ctl.policies ∧ t.ctl.policyGen = s.ctl.policyGen ∧ t.ctl.configPol = s.ctl.configPol ∧ t.ctl.slotA = s.ctl.slotA ∧
        t.ctl.slotB = s.ctl.slotB ∧ t.ctl.recovery = s.ctl.recovery ∧ (∃ l, t.out = l ++ s.out))

/-- The balls of the network and drive lanes, and the worked examples of R372. Rests on R370, R371, R372. -/
def Obligations.LanesLieOnTheirBalls : Prop :=
  -- network lanes
  (∀ (n : Nat),
    n < 32 →
      ballAt 2 (15 + n + n / 2) = .net false n .txp ∧ ballAt 3 (15 + n + n / 2) = .net false n .txn ∧
        ballAt 7 (15 + n + n / 2) = .net false n .rxp ∧ ballAt 8 (15 + n + n / 2) = .net false n .rxn ∧
        ballAt 71 (15 + n + n / 2) = .net true n .txp ∧ ballAt 70 (15 + n + n / 2) = .net true n .txn ∧
        ballAt 66 (15 + n + n / 2) = .net true n .rxp ∧ ballAt 65 (15 + n + n / 2) = .net true n .rxn) ∧
  -- drive lanes
  (∀ (p j : Nat),
    p < 32 → j < 2 →
      ballAt (15 + p + p / 4) (1 + 2 * j) = .drv true (2 * p + j) .txp ∧ ballAt (15 + p + p / 4) (2 + 2 * j) = .drv true (2 * p + j) .txn ∧
        ballAt (15 + p + p / 4) (7 + 2 * j) = .drv true (2 * p + j) .rxp ∧ ballAt (15 + p + p / 4) (8 + 2 * j) = .drv true (2 * p + j) .rxn ∧
        ballAt (15 + p + p / 4) (72 - 2 * j) = .drv false (2 * p + j) .txp ∧ ballAt (15 + p + p / 4) (71 - 2 * j) = .drv false (2 * p + j) .txn ∧
        ballAt (15 + p + p / 4) (66 - 2 * j) = .drv false (2 * p + j) .rxp ∧ ballAt (15 + p + p / 4) (65 - 2 * j) = .drv false (2 * p + j) .rxn) ∧
  -- the worked examples
  (ballAt 2 33 = .net false 12 .txp ∧ ballAt 18 63 = .drv false 7 .rxn)
end

