-- ==== Sys2Proof/Laws/State.lean ====
section
/-! SUPPORT. What each named update of the state leaves as it was, one lemma per field. -/

namespace Sys2Proof.Machine

@[simp] theorem bankSet_decValid (s : State) (r : Reg) (v : Word) : (bankSet s r v).decValid = s.decValid := rfl
@[simp] theorem bankSet_decCount (s : State) (r : Reg) (v : Word) : (bankSet s r v).decCount = s.decCount := rfl
@[simp] theorem bankSet_decSrc (s : State) (r : Reg) (v : Word) : (bankSet s r v).decSrc = s.decSrc := rfl
@[simp] theorem bankSet_decAddr (s : State) (r : Reg) (v : Word) : (bankSet s r v).decAddr = s.decAddr := rfl
@[simp] theorem bankSet_mem (s : State) (r : Reg) (v : Word) : (bankSet s r v).mem = s.mem := rfl
@[simp] theorem bankSet_net (s : State) (r : Reg) (v : Word) : (bankSet s r v).net = s.net := rfl
@[simp] theorem bankSet_rdma (s : State) (r : Reg) (v : Word) : (bankSet s r v).rdma = s.rdma := rfl
@[simp] theorem bankSet_hq (s : State) (r : Reg) (v : Word) : (bankSet s r v).hq = s.hq := rfl
@[simp] theorem bankSet_pools (s : State) (r : Reg) (v : Word) : (bankSet s r v).pools = s.pools := rfl
@[simp] theorem bankSet_volumes (s : State) (r : Reg) (v : Word) : (bankSet s r v).volumes = s.volumes := rfl
@[simp] theorem bankSet_drives (s : State) (r : Reg) (v : Word) : (bankSet s r v).drives = s.drives := rfl
@[simp] theorem bankSet_hbx (s : State) (r : Reg) (v : Word) : (bankSet s r v).hbx = s.hbx := rfl
@[simp] theorem bankSet_fab (s : State) (r : Reg) (v : Word) : (bankSet s r v).fab = s.fab := rfl
@[simp] theorem bankSet_par (s : State) (r : Reg) (v : Word) : (bankSet s r v).par = s.par := rfl
@[simp] theorem bankSet_mc (s : State) (r : Reg) (v : Word) : (bankSet s r v).mc = s.mc := rfl
@[simp] theorem bankSet_mov (s : State) (r : Reg) (v : Word) : (bankSet s r v).mov = s.mov := rfl
@[simp] theorem bankSet_ctl (s : State) (r : Reg) (v : Word) : (bankSet s r v).ctl = s.ctl := rfl
@[simp] theorem bankSet_stby (s : State) (r : Reg) (v : Word) : (bankSet s r v).stby = s.stby := rfl
@[simp] theorem bankSet_rails (s : State) (r : Reg) (v : Word) : (bankSet s r v).rails = s.rails := rfl
@[simp] theorem bankSet_dom (s : State) (r : Reg) (v : Word) : (bankSet s r v).dom = s.dom := rfl
@[simp] theorem bankSet_boot (s : State) (r : Reg) (v : Word) : (bankSet s r v).boot = s.boot := rfl
@[simp] theorem bankSet_clk (s : State) (r : Reg) (v : Word) : (bankSet s r v).clk = s.clk := rfl
@[simp] theorem bankSet_sep (s : State) (r : Reg) (v : Word) : (bankSet s r v).sep = s.sep := rfl
@[simp] theorem bankSet_tel (s : State) (r : Reg) (v : Word) : (bankSet s r v).tel = s.tel := rfl
@[simp] theorem bankSet_dimms (s : State) (r : Reg) (v : Word) : (bankSet s r v).dimms = s.dimms := rfl
@[simp] theorem bankSet_chainE (s : State) (r : Reg) (v : Word) : (bankSet s r v).chainE = s.chainE := rfl
@[simp] theorem bankSet_chainW (s : State) (r : Reg) (v : Word) : (bankSet s r v).chainW = s.chainW := rfl
@[simp] theorem bankSet_txWait (s : State) (r : Reg) (v : Word) : (bankSet s r v).txWait = s.txWait := rfl
@[simp] theorem bankSet_out (s : State) (r : Reg) (v : Word) : (bankSet s r v).out = s.out := rfl
@[simp] theorem bankSet_fresh (s : State) (r : Reg) (v : Word) : (bankSet s r v).fresh = s.fresh := rfl
@[simp] theorem bankSet_pending (s : State) (r : Reg) (v : Word) : (bankSet s r v).pending = s.pending := rfl

@[simp] theorem setBit_decValid (s : State) (r : Reg) (i : Nat) : (setBit s r i).decValid = s.decValid := rfl
@[simp] theorem setBit_decCount (s : State) (r : Reg) (i : Nat) : (setBit s r i).decCount = s.decCount := rfl
@[simp] theorem setBit_decSrc (s : State) (r : Reg) (i : Nat) : (setBit s r i).decSrc = s.decSrc := rfl
@[simp] theorem setBit_decAddr (s : State) (r : Reg) (i : Nat) : (setBit s r i).decAddr = s.decAddr := rfl
@[simp] theorem setBit_mem (s : State) (r : Reg) (i : Nat) : (setBit s r i).mem = s.mem := rfl
@[simp] theorem setBit_net (s : State) (r : Reg) (i : Nat) : (setBit s r i).net = s.net := rfl
@[simp] theorem setBit_rdma (s : State) (r : Reg) (i : Nat) : (setBit s r i).rdma = s.rdma := rfl
@[simp] theorem setBit_hq (s : State) (r : Reg) (i : Nat) : (setBit s r i).hq = s.hq := rfl
@[simp] theorem setBit_pools (s : State) (r : Reg) (i : Nat) : (setBit s r i).pools = s.pools := rfl
@[simp] theorem setBit_volumes (s : State) (r : Reg) (i : Nat) : (setBit s r i).volumes = s.volumes := rfl
@[simp] theorem setBit_drives (s : State) (r : Reg) (i : Nat) : (setBit s r i).drives = s.drives := rfl
@[simp] theorem setBit_hbx (s : State) (r : Reg) (i : Nat) : (setBit s r i).hbx = s.hbx := rfl
@[simp] theorem setBit_fab (s : State) (r : Reg) (i : Nat) : (setBit s r i).fab = s.fab := rfl
@[simp] theorem setBit_par (s : State) (r : Reg) (i : Nat) : (setBit s r i).par = s.par := rfl
@[simp] theorem setBit_mc (s : State) (r : Reg) (i : Nat) : (setBit s r i).mc = s.mc := rfl
@[simp] theorem setBit_mov (s : State) (r : Reg) (i : Nat) : (setBit s r i).mov = s.mov := rfl
@[simp] theorem setBit_ctl (s : State) (r : Reg) (i : Nat) : (setBit s r i).ctl = s.ctl := rfl
@[simp] theorem setBit_stby (s : State) (r : Reg) (i : Nat) : (setBit s r i).stby = s.stby := rfl
@[simp] theorem setBit_rails (s : State) (r : Reg) (i : Nat) : (setBit s r i).rails = s.rails := rfl
@[simp] theorem setBit_dom (s : State) (r : Reg) (i : Nat) : (setBit s r i).dom = s.dom := rfl
@[simp] theorem setBit_boot (s : State) (r : Reg) (i : Nat) : (setBit s r i).boot = s.boot := rfl
@[simp] theorem setBit_clk (s : State) (r : Reg) (i : Nat) : (setBit s r i).clk = s.clk := rfl
@[simp] theorem setBit_sep (s : State) (r : Reg) (i : Nat) : (setBit s r i).sep = s.sep := rfl
@[simp] theorem setBit_tel (s : State) (r : Reg) (i : Nat) : (setBit s r i).tel = s.tel := rfl
@[simp] theorem setBit_dimms (s : State) (r : Reg) (i : Nat) : (setBit s r i).dimms = s.dimms := rfl
@[simp] theorem setBit_chainE (s : State) (r : Reg) (i : Nat) : (setBit s r i).chainE = s.chainE := rfl
@[simp] theorem setBit_chainW (s : State) (r : Reg) (i : Nat) : (setBit s r i).chainW = s.chainW := rfl
@[simp] theorem setBit_txWait (s : State) (r : Reg) (i : Nat) : (setBit s r i).txWait = s.txWait := rfl
@[simp] theorem setBit_out (s : State) (r : Reg) (i : Nat) : (setBit s r i).out = s.out := rfl
@[simp] theorem setBit_fresh (s : State) (r : Reg) (i : Nat) : (setBit s r i).fresh = s.fresh := rfl
@[simp] theorem setBit_pending (s : State) (r : Reg) (i : Nat) : (setBit s r i).pending = s.pending := rfl

@[simp] theorem clearBit_decValid (s : State) (r : Reg) (i : Nat) : (clearBit s r i).decValid = s.decValid := rfl
@[simp] theorem clearBit_decCount (s : State) (r : Reg) (i : Nat) : (clearBit s r i).decCount = s.decCount := rfl
@[simp] theorem clearBit_decSrc (s : State) (r : Reg) (i : Nat) : (clearBit s r i).decSrc = s.decSrc := rfl
@[simp] theorem clearBit_decAddr (s : State) (r : Reg) (i : Nat) : (clearBit s r i).decAddr = s.decAddr := rfl
@[simp] theorem clearBit_mem (s : State) (r : Reg) (i : Nat) : (clearBit s r i).mem = s.mem := rfl
@[simp] theorem clearBit_net (s : State) (r : Reg) (i : Nat) : (clearBit s r i).net = s.net := rfl
@[simp] theorem clearBit_rdma (s : State) (r : Reg) (i : Nat) : (clearBit s r i).rdma = s.rdma := rfl
@[simp] theorem clearBit_hq (s : State) (r : Reg) (i : Nat) : (clearBit s r i).hq = s.hq := rfl
@[simp] theorem clearBit_pools (s : State) (r : Reg) (i : Nat) : (clearBit s r i).pools = s.pools := rfl
@[simp] theorem clearBit_volumes (s : State) (r : Reg) (i : Nat) : (clearBit s r i).volumes = s.volumes := rfl
@[simp] theorem clearBit_drives (s : State) (r : Reg) (i : Nat) : (clearBit s r i).drives = s.drives := rfl
@[simp] theorem clearBit_hbx (s : State) (r : Reg) (i : Nat) : (clearBit s r i).hbx = s.hbx := rfl
@[simp] theorem clearBit_fab (s : State) (r : Reg) (i : Nat) : (clearBit s r i).fab = s.fab := rfl
@[simp] theorem clearBit_par (s : State) (r : Reg) (i : Nat) : (clearBit s r i).par = s.par := rfl
@[simp] theorem clearBit_mc (s : State) (r : Reg) (i : Nat) : (clearBit s r i).mc = s.mc := rfl
@[simp] theorem clearBit_mov (s : State) (r : Reg) (i : Nat) : (clearBit s r i).mov = s.mov := rfl
@[simp] theorem clearBit_ctl (s : State) (r : Reg) (i : Nat) : (clearBit s r i).ctl = s.ctl := rfl
@[simp] theorem clearBit_stby (s : State) (r : Reg) (i : Nat) : (clearBit s r i).stby = s.stby := rfl
@[simp] theorem clearBit_rails (s : State) (r : Reg) (i : Nat) : (clearBit s r i).rails = s.rails := rfl
@[simp] theorem clearBit_dom (s : State) (r : Reg) (i : Nat) : (clearBit s r i).dom = s.dom := rfl
@[simp] theorem clearBit_boot (s : State) (r : Reg) (i : Nat) : (clearBit s r i).boot = s.boot := rfl
@[simp] theorem clearBit_clk (s : State) (r : Reg) (i : Nat) : (clearBit s r i).clk = s.clk := rfl
@[simp] theorem clearBit_sep (s : State) (r : Reg) (i : Nat) : (clearBit s r i).sep = s.sep := rfl
@[simp] theorem clearBit_tel (s : State) (r : Reg) (i : Nat) : (clearBit s r i).tel = s.tel := rfl
@[simp] theorem clearBit_dimms (s : State) (r : Reg) (i : Nat) : (clearBit s r i).dimms = s.dimms := rfl
@[simp] theorem clearBit_chainE (s : State) (r : Reg) (i : Nat) : (clearBit s r i).chainE = s.chainE := rfl
@[simp] theorem clearBit_chainW (s : State) (r : Reg) (i : Nat) : (clearBit s r i).chainW = s.chainW := rfl
@[simp] theorem clearBit_txWait (s : State) (r : Reg) (i : Nat) : (clearBit s r i).txWait = s.txWait := rfl
@[simp] theorem clearBit_out (s : State) (r : Reg) (i : Nat) : (clearBit s r i).out = s.out := rfl
@[simp] theorem clearBit_fresh (s : State) (r : Reg) (i : Nat) : (clearBit s r i).fresh = s.fresh := rfl
@[simp] theorem clearBit_pending (s : State) (r : Reg) (i : Nat) : (clearBit s r i).pending = s.pending := rfl

@[simp] theorem setFld_decValid (s : State) (r : Reg) (hi lo v : Nat) : (setFld s r hi lo v).decValid = s.decValid := rfl
@[simp] theorem setFld_decCount (s : State) (r : Reg) (hi lo v : Nat) : (setFld s r hi lo v).decCount = s.decCount := rfl
@[simp] theorem setFld_decSrc (s : State) (r : Reg) (hi lo v : Nat) : (setFld s r hi lo v).decSrc = s.decSrc := rfl
@[simp] theorem setFld_decAddr (s : State) (r : Reg) (hi lo v : Nat) : (setFld s r hi lo v).decAddr = s.decAddr := rfl
@[simp] theorem setFld_mem (s : State) (r : Reg) (hi lo v : Nat) : (setFld s r hi lo v).mem = s.mem := rfl
@[simp] theorem setFld_net (s : State) (r : Reg) (hi lo v : Nat) : (setFld s r hi lo v).net = s.net := rfl
@[simp] theorem setFld_rdma (s : State) (r : Reg) (hi lo v : Nat) : (setFld s r hi lo v).rdma = s.rdma := rfl
@[simp] theorem setFld_hq (s : State) (r : Reg) (hi lo v : Nat) : (setFld s r hi lo v).hq = s.hq := rfl
@[simp] theorem setFld_pools (s : State) (r : Reg) (hi lo v : Nat) : (setFld s r hi lo v).pools = s.pools := rfl
@[simp] theorem setFld_volumes (s : State) (r : Reg) (hi lo v : Nat) : (setFld s r hi lo v).volumes = s.volumes := rfl
@[simp] theorem setFld_drives (s : State) (r : Reg) (hi lo v : Nat) : (setFld s r hi lo v).drives = s.drives := rfl
@[simp] theorem setFld_hbx (s : State) (r : Reg) (hi lo v : Nat) : (setFld s r hi lo v).hbx = s.hbx := rfl
@[simp] theorem setFld_fab (s : State) (r : Reg) (hi lo v : Nat) : (setFld s r hi lo v).fab = s.fab := rfl
@[simp] theorem setFld_par (s : State) (r : Reg) (hi lo v : Nat) : (setFld s r hi lo v).par = s.par := rfl
@[simp] theorem setFld_mc (s : State) (r : Reg) (hi lo v : Nat) : (setFld s r hi lo v).mc = s.mc := rfl
@[simp] theorem setFld_mov (s : State) (r : Reg) (hi lo v : Nat) : (setFld s r hi lo v).mov = s.mov := rfl
@[simp] theorem setFld_ctl (s : State) (r : Reg) (hi lo v : Nat) : (setFld s r hi lo v).ctl = s.ctl := rfl
@[simp] theorem setFld_stby (s : State) (r : Reg) (hi lo v : Nat) : (setFld s r hi lo v).stby = s.stby := rfl
@[simp] theorem setFld_rails (s : State) (r : Reg) (hi lo v : Nat) : (setFld s r hi lo v).rails = s.rails := rfl
@[simp] theorem setFld_dom (s : State) (r : Reg) (hi lo v : Nat) : (setFld s r hi lo v).dom = s.dom := rfl
@[simp] theorem setFld_boot (s : State) (r : Reg) (hi lo v : Nat) : (setFld s r hi lo v).boot = s.boot := rfl
@[simp] theorem setFld_clk (s : State) (r : Reg) (hi lo v : Nat) : (setFld s r hi lo v).clk = s.clk := rfl
@[simp] theorem setFld_sep (s : State) (r : Reg) (hi lo v : Nat) : (setFld s r hi lo v).sep = s.sep := rfl
@[simp] theorem setFld_tel (s : State) (r : Reg) (hi lo v : Nat) : (setFld s r hi lo v).tel = s.tel := rfl
@[simp] theorem setFld_dimms (s : State) (r : Reg) (hi lo v : Nat) : (setFld s r hi lo v).dimms = s.dimms := rfl
@[simp] theorem setFld_chainE (s : State) (r : Reg) (hi lo v : Nat) : (setFld s r hi lo v).chainE = s.chainE := rfl
@[simp] theorem setFld_chainW (s : State) (r : Reg) (hi lo v : Nat) : (setFld s r hi lo v).chainW = s.chainW := rfl
@[simp] theorem setFld_txWait (s : State) (r : Reg) (hi lo v : Nat) : (setFld s r hi lo v).txWait = s.txWait := rfl
@[simp] theorem setFld_out (s : State) (r : Reg) (hi lo v : Nat) : (setFld s r hi lo v).out = s.out := rfl
@[simp] theorem setFld_fresh (s : State) (r : Reg) (hi lo v : Nat) : (setFld s r hi lo v).fresh = s.fresh := rfl
@[simp] theorem setFld_pending (s : State) (r : Reg) (hi lo v : Nat) : (setFld s r hi lo v).pending = s.pending := rfl

@[simp] theorem emit_bank (s : State) (o : Out) : (emit s o).bank = s.bank := rfl
@[simp] theorem emit_decValid (s : State) (o : Out) : (emit s o).decValid = s.decValid := rfl
@[simp] theorem emit_decCount (s : State) (o : Out) : (emit s o).decCount = s.decCount := rfl
@[simp] theorem emit_decSrc (s : State) (o : Out) : (emit s o).decSrc = s.decSrc := rfl
@[simp] theorem emit_decAddr (s : State) (o : Out) : (emit s o).decAddr = s.decAddr := rfl
@[simp] theorem emit_mem (s : State) (o : Out) : (emit s o).mem = s.mem := rfl
@[simp] theorem emit_net (s : State) (o : Out) : (emit s o).net = s.net := rfl
@[simp] theorem emit_rdma (s : State) (o : Out) : (emit s o).rdma = s.rdma := rfl
@[simp] theorem emit_hq (s : State) (o : Out) : (emit s o).hq = s.hq := rfl
@[simp] theorem emit_pools (s : State) (o : Out) : (emit s o).pools = s.pools := rfl
@[simp] theorem emit_volumes (s : State) (o : Out) : (emit s o).volumes = s.volumes := rfl
@[simp] theorem emit_drives (s : State) (o : Out) : (emit s o).drives = s.drives := rfl
@[simp] theorem emit_hbx (s : State) (o : Out) : (emit s o).hbx = s.hbx := rfl
@[simp] theorem emit_fab (s : State) (o : Out) : (emit s o).fab = s.fab := rfl
@[simp] theorem emit_par (s : State) (o : Out) : (emit s o).par = s.par := rfl
@[simp] theorem emit_mc (s : State) (o : Out) : (emit s o).mc = s.mc := rfl
@[simp] theorem emit_mov (s : State) (o : Out) : (emit s o).mov = s.mov := rfl
@[simp] theorem emit_ctl (s : State) (o : Out) : (emit s o).ctl = s.ctl := rfl
@[simp] theorem emit_stby (s : State) (o : Out) : (emit s o).stby = s.stby := rfl
@[simp] theorem emit_rails (s : State) (o : Out) : (emit s o).rails = s.rails := rfl
@[simp] theorem emit_dom (s : State) (o : Out) : (emit s o).dom = s.dom := rfl
@[simp] theorem emit_boot (s : State) (o : Out) : (emit s o).boot = s.boot := rfl
@[simp] theorem emit_clk (s : State) (o : Out) : (emit s o).clk = s.clk := rfl
@[simp] theorem emit_sep (s : State) (o : Out) : (emit s o).sep = s.sep := rfl
@[simp] theorem emit_tel (s : State) (o : Out) : (emit s o).tel = s.tel := rfl
@[simp] theorem emit_dimms (s : State) (o : Out) : (emit s o).dimms = s.dimms := rfl
@[simp] theorem emit_chainE (s : State) (o : Out) : (emit s o).chainE = s.chainE := rfl
@[simp] theorem emit_chainW (s : State) (o : Out) : (emit s o).chainW = s.chainW := rfl
@[simp] theorem emit_txWait (s : State) (o : Out) : (emit s o).txWait = s.txWait := rfl
@[simp] theorem emit_fresh (s : State) (o : Out) : (emit s o).fresh = s.fresh := rfl
@[simp] theorem emit_pending (s : State) (o : Out) : (emit s o).pending = s.pending := rfl

@[simp] theorem reach_bank (s : State) (t : Nat) : (reach s t).bank = s.bank := rfl
@[simp] theorem reach_decValid (s : State) (t : Nat) : (reach s t).decValid = s.decValid := rfl
@[simp] theorem reach_decCount (s : State) (t : Nat) : (reach s t).decCount = s.decCount := rfl
@[simp] theorem reach_decSrc (s : State) (t : Nat) : (reach s t).decSrc = s.decSrc := rfl
@[simp] theorem reach_decAddr (s : State) (t : Nat) : (reach s t).decAddr = s.decAddr := rfl
@[simp] theorem reach_mem (s : State) (t : Nat) : (reach s t).mem = s.mem := rfl
@[simp] theorem reach_net (s : State) (t : Nat) : (reach s t).net = s.net := rfl
@[simp] theorem reach_rdma (s : State) (t : Nat) : (reach s t).rdma = s.rdma := rfl
@[simp] theorem reach_hq (s : State) (t : Nat) : (reach s t).hq = s.hq := rfl
@[simp] theorem reach_pools (s : State) (t : Nat) : (reach s t).pools = s.pools := rfl
@[simp] theorem reach_volumes (s : State) (t : Nat) : (reach s t).volumes = s.volumes := rfl
@[simp] theorem reach_drives (s : State) (t : Nat) : (reach s t).drives = s.drives := rfl
@[simp] theorem reach_hbx (s : State) (t : Nat) : (reach s t).hbx = s.hbx := rfl
@[simp] theorem reach_fab (s : State) (t : Nat) : (reach s t).fab = s.fab := rfl
@[simp] theorem reach_par (s : State) (t : Nat) : (reach s t).par = s.par := rfl
@[simp] theorem reach_mc (s : State) (t : Nat) : (reach s t).mc = s.mc := rfl
@[simp] theorem reach_mov (s : State) (t : Nat) : (reach s t).mov = s.mov := rfl
@[simp] theorem reach_ctl (s : State) (t : Nat) : (reach s t).ctl = s.ctl := rfl
@[simp] theorem reach_stby (s : State) (t : Nat) : (reach s t).stby = s.stby := rfl
@[simp] theorem reach_rails (s : State) (t : Nat) : (reach s t).rails = s.rails := rfl
@[simp] theorem reach_dom (s : State) (t : Nat) : (reach s t).dom = s.dom := rfl
@[simp] theorem reach_boot (s : State) (t : Nat) : (reach s t).boot = s.boot := rfl
@[simp] theorem reach_sep (s : State) (t : Nat) : (reach s t).sep = s.sep := rfl
@[simp] theorem reach_tel (s : State) (t : Nat) : (reach s t).tel = s.tel := rfl
@[simp] theorem reach_dimms (s : State) (t : Nat) : (reach s t).dimms = s.dimms := rfl
@[simp] theorem reach_chainE (s : State) (t : Nat) : (reach s t).chainE = s.chainE := rfl
@[simp] theorem reach_chainW (s : State) (t : Nat) : (reach s t).chainW = s.chainW := rfl
@[simp] theorem reach_txWait (s : State) (t : Nat) : (reach s t).txWait = s.txWait := rfl
@[simp] theorem reach_out (s : State) (t : Nat) : (reach s t).out = s.out := rfl
@[simp] theorem reach_fresh (s : State) (t : Nat) : (reach s t).fresh = s.fresh := rfl
@[simp] theorem reach_pending (s : State) (t : Nat) : (reach s t).pending = s.pending := rfl

@[simp] theorem store_bank (s : State) (a : Nat) (b : Bytes) : (store s a b).bank = s.bank := rfl
@[simp] theorem store_decValid (s : State) (a : Nat) (b : Bytes) : (store s a b).decValid = s.decValid := rfl
@[simp] theorem store_decCount (s : State) (a : Nat) (b : Bytes) : (store s a b).decCount = s.decCount := rfl
@[simp] theorem store_decSrc (s : State) (a : Nat) (b : Bytes) : (store s a b).decSrc = s.decSrc := rfl
@[simp] theorem store_decAddr (s : State) (a : Nat) (b : Bytes) : (store s a b).decAddr = s.decAddr := rfl
@[simp] theorem store_net (s : State) (a : Nat) (b : Bytes) : (store s a b).net = s.net := rfl
@[simp] theorem store_rdma (s : State) (a : Nat) (b : Bytes) : (store s a b).rdma = s.rdma := rfl
@[simp] theorem store_hq (s : State) (a : Nat) (b : Bytes) : (store s a b).hq = s.hq := rfl
@[simp] theorem store_pools (s : State) (a : Nat) (b : Bytes) : (store s a b).pools = s.pools := rfl
@[simp] theorem store_volumes (s : State) (a : Nat) (b : Bytes) : (store s a b).volumes = s.volumes := rfl
@[simp] theorem store_drives (s : State) (a : Nat) (b : Bytes) : (store s a b).drives = s.drives := rfl
@[simp] theorem store_hbx (s : State) (a : Nat) (b : Bytes) : (store s a b).hbx = s.hbx := rfl
@[simp] theorem store_fab (s : State) (a : Nat) (b : Bytes) : (store s a b).fab = s.fab := rfl
@[simp] theorem store_par (s : State) (a : Nat) (b : Bytes) : (store s a b).par = s.par := rfl
@[simp] theorem store_mc (s : State) (a : Nat) (b : Bytes) : (store s a b).mc = s.mc := rfl
@[simp] theorem store_mov (s : State) (a : Nat) (b : Bytes) : (store s a b).mov = s.mov := rfl
@[simp] theorem store_ctl (s : State) (a : Nat) (b : Bytes) : (store s a b).ctl = s.ctl := rfl
@[simp] theorem store_stby (s : State) (a : Nat) (b : Bytes) : (store s a b).stby = s.stby := rfl
@[simp] theorem store_rails (s : State) (a : Nat) (b : Bytes) : (store s a b).rails = s.rails := rfl
@[simp] theorem store_dom (s : State) (a : Nat) (b : Bytes) : (store s a b).dom = s.dom := rfl
@[simp] theorem store_boot (s : State) (a : Nat) (b : Bytes) : (store s a b).boot = s.boot := rfl
@[simp] theorem store_clk (s : State) (a : Nat) (b : Bytes) : (store s a b).clk = s.clk := rfl
@[simp] theorem store_sep (s : State) (a : Nat) (b : Bytes) : (store s a b).sep = s.sep := rfl
@[simp] theorem store_tel (s : State) (a : Nat) (b : Bytes) : (store s a b).tel = s.tel := rfl
@[simp] theorem store_dimms (s : State) (a : Nat) (b : Bytes) : (store s a b).dimms = s.dimms := rfl
@[simp] theorem store_chainE (s : State) (a : Nat) (b : Bytes) : (store s a b).chainE = s.chainE := rfl
@[simp] theorem store_chainW (s : State) (a : Nat) (b : Bytes) : (store s a b).chainW = s.chainW := rfl
@[simp] theorem store_txWait (s : State) (a : Nat) (b : Bytes) : (store s a b).txWait = s.txWait := rfl
@[simp] theorem store_out (s : State) (a : Nat) (b : Bytes) : (store s a b).out = s.out := rfl
@[simp] theorem store_fresh (s : State) (a : Nat) (b : Bytes) : (store s a b).fresh = s.fresh := rfl
@[simp] theorem store_pending (s : State) (a : Nat) (b : Bytes) : (store s a b).pending = s.pending := rfl

@[simp] theorem setMov_bank (s : State) (c : Nat) (f : MovCh → MovCh) : (setMov s c f).bank = s.bank := rfl
@[simp] theorem setMov_decValid (s : State) (c : Nat) (f : MovCh → MovCh) : (setMov s c f).decValid = s.decValid := rfl
@[simp] theorem setMov_decCount (s : State) (c : Nat) (f : MovCh → MovCh) : (setMov s c f).decCount = s.decCount := rfl
@[simp] theorem setMov_decSrc (s : State) (c : Nat) (f : MovCh → MovCh) : (setMov s c f).decSrc = s.decSrc := rfl
@[simp] theorem setMov_decAddr (s : State) (c : Nat) (f : MovCh → MovCh) : (setMov s c f).decAddr = s.decAddr := rfl
@[simp] theorem setMov_mem (s : State) (c : Nat) (f : MovCh → MovCh) : (setMov s c f).mem = s.mem := rfl
@[simp] theorem setMov_net (s : State) (c : Nat) (f : MovCh → MovCh) : (setMov s c f).net = s.net := rfl
@[simp] theorem setMov_rdma (s : State) (c : Nat) (f : MovCh → MovCh) : (setMov s c f).rdma = s.rdma := rfl
@[simp] theorem setMov_hq (s : State) (c : Nat) (f : MovCh → MovCh) : (setMov s c f).hq = s.hq := rfl
@[simp] theorem setMov_pools (s : State) (c : Nat) (f : MovCh → MovCh) : (setMov s c f).pools = s.pools := rfl
@[simp] theorem setMov_volumes (s : State) (c : Nat) (f : MovCh → MovCh) : (setMov s c f).volumes = s.volumes := rfl
@[simp] theorem setMov_drives (s : State) (c : Nat) (f : MovCh → MovCh) : (setMov s c f).drives = s.drives := rfl
@[simp] theorem setMov_hbx (s : State) (c : Nat) (f : MovCh → MovCh) : (setMov s c f).hbx = s.hbx := rfl
@[simp] theorem setMov_fab (s : State) (c : Nat) (f : MovCh → MovCh) : (setMov s c f).fab = s.fab := rfl
@[simp] theorem setMov_par (s : State) (c : Nat) (f : MovCh → MovCh) : (setMov s c f).par = s.par := rfl
@[simp] theorem setMov_mc (s : State) (c : Nat) (f : MovCh → MovCh) : (setMov s c f).mc = s.mc := rfl
@[simp] theorem setMov_ctl (s : State) (c : Nat) (f : MovCh → MovCh) : (setMov s c f).ctl = s.ctl := rfl
@[simp] theorem setMov_stby (s : State) (c : Nat) (f : MovCh → MovCh) : (setMov s c f).stby = s.stby := rfl
@[simp] theorem setMov_rails (s : State) (c : Nat) (f : MovCh → MovCh) : (setMov s c f).rails = s.rails := rfl
@[simp] theorem setMov_dom (s : State) (c : Nat) (f : MovCh → MovCh) : (setMov s c f).dom = s.dom := rfl
@[simp] theorem setMov_boot (s : State) (c : Nat) (f : MovCh → MovCh) : (setMov s c f).boot = s.boot := rfl
@[simp] theorem setMov_clk (s : State) (c : Nat) (f : MovCh → MovCh) : (setMov s c f).clk = s.clk := rfl
@[simp] theorem setMov_sep (s : State) (c : Nat) (f : MovCh → MovCh) : (setMov s c f).sep = s.sep := rfl
@[simp] theorem setMov_tel (s : State) (c : Nat) (f : MovCh → MovCh) : (setMov s c f).tel = s.tel := rfl
@[simp] theorem setMov_dimms (s : State) (c : Nat) (f : MovCh → MovCh) : (setMov s c f).dimms = s.dimms := rfl
@[simp] theorem setMov_chainE (s : State) (c : Nat) (f : MovCh → MovCh) : (setMov s c f).chainE = s.chainE := rfl
@[simp] theorem setMov_chainW (s : State) (c : Nat) (f : MovCh → MovCh) : (setMov s c f).chainW = s.chainW := rfl
@[simp] theorem setMov_txWait (s : State) (c : Nat) (f : MovCh → MovCh) : (setMov s c f).txWait = s.txWait := rfl
@[simp] theorem setMov_out (s : State) (c : Nat) (f : MovCh → MovCh) : (setMov s c f).out = s.out := rfl
@[simp] theorem setMov_fresh (s : State) (c : Nat) (f : MovCh → MovCh) : (setMov s c f).fresh = s.fresh := rfl
@[simp] theorem setMov_pending (s : State) (c : Nat) (f : MovCh → MovCh) : (setMov s c f).pending = s.pending := rfl

@[simp] theorem setChan_bank (s : State) (c : Nat) (f : Chan → Chan) : (setChan s c f).bank = s.bank := rfl
@[simp] theorem setChan_decValid (s : State) (c : Nat) (f : Chan → Chan) : (setChan s c f).decValid = s.decValid := rfl
@[simp] theorem setChan_decCount (s : State) (c : Nat) (f : Chan → Chan) : (setChan s c f).decCount = s.decCount := rfl
@[simp] theorem setChan_decSrc (s : State) (c : Nat) (f : Chan → Chan) : (setChan s c f).decSrc = s.decSrc := rfl
@[simp] theorem setChan_decAddr (s : State) (c : Nat) (f : Chan → Chan) : (setChan s c f).decAddr = s.decAddr := rfl
@[simp] theorem setChan_mem (s : State) (c : Nat) (f : Chan → Chan) : (setChan s c f).mem = s.mem := rfl
@[simp] theorem setChan_net (s : State) (c : Nat) (f : Chan → Chan) : (setChan s c f).net = s.net := rfl
@[simp] theorem setChan_rdma (s : State) (c : Nat) (f : Chan → Chan) : (setChan s c f).rdma = s.rdma := rfl
@[simp] theorem setChan_hq (s : State) (c : Nat) (f : Chan → Chan) : (setChan s c f).hq = s.hq := rfl
@[simp] theorem setChan_pools (s : State) (c : Nat) (f : Chan → Chan) : (setChan s c f).pools = s.pools := rfl
@[simp] theorem setChan_volumes (s : State) (c : Nat) (f : Chan → Chan) : (setChan s c f).volumes = s.volumes := rfl
@[simp] theorem setChan_drives (s : State) (c : Nat) (f : Chan → Chan) : (setChan s c f).drives = s.drives := rfl
@[simp] theorem setChan_hbx (s : State) (c : Nat) (f : Chan → Chan) : (setChan s c f).hbx = s.hbx := rfl
@[simp] theorem setChan_fab (s : State) (c : Nat) (f : Chan → Chan) : (setChan s c f).fab = s.fab := rfl
@[simp] theorem setChan_par (s : State) (c : Nat) (f : Chan → Chan) : (setChan s c f).par = s.par := rfl
@[simp] theorem setChan_mc (s : State) (c : Nat) (f : Chan → Chan) : (setChan s c f).mc = s.mc := rfl
@[simp] theorem setChan_mov (s : State) (c : Nat) (f : Chan → Chan) : (setChan s c f).mov = s.mov := rfl
@[simp] theorem setChan_stby (s : State) (c : Nat) (f : Chan → Chan) : (setChan s c f).stby = s.stby := rfl
@[simp] theorem setChan_rails (s : State) (c : Nat) (f : Chan → Chan) : (setChan s c f).rails = s.rails := rfl
@[simp] theorem setChan_dom (s : State) (c : Nat) (f : Chan → Chan) : (setChan s c f).dom = s.dom := rfl
@[simp] theorem setChan_boot (s : State) (c : Nat) (f : Chan → Chan) : (setChan s c f).boot = s.boot := rfl
@[simp] theorem setChan_clk (s : State) (c : Nat) (f : Chan → Chan) : (setChan s c f).clk = s.clk := rfl
@[simp] theorem setChan_sep (s : State) (c : Nat) (f : Chan → Chan) : (setChan s c f).sep = s.sep := rfl
@[simp] theorem setChan_tel (s : State) (c : Nat) (f : Chan → Chan) : (setChan s c f).tel = s.tel := rfl
@[simp] theorem setChan_dimms (s : State) (c : Nat) (f : Chan → Chan) : (setChan s c f).dimms = s.dimms := rfl
@[simp] theorem setChan_chainE (s : State) (c : Nat) (f : Chan → Chan) : (setChan s c f).chainE = s.chainE := rfl
@[simp] theorem setChan_chainW (s : State) (c : Nat) (f : Chan → Chan) : (setChan s c f).chainW = s.chainW := rfl
@[simp] theorem setChan_txWait (s : State) (c : Nat) (f : Chan → Chan) : (setChan s c f).txWait = s.txWait := rfl
@[simp] theorem setChan_out (s : State) (c : Nat) (f : Chan → Chan) : (setChan s c f).out = s.out := rfl
@[simp] theorem setChan_fresh (s : State) (c : Nat) (f : Chan → Chan) : (setChan s c f).fresh = s.fresh := rfl
@[simp] theorem setChan_pending (s : State) (c : Nat) (f : Chan → Chan) : (setChan s c f).pending = s.pending := rfl

@[simp] theorem setDrive_bank (s : State) (d : Nat) (f : Drive → Drive) : (setDrive s d f).bank = s.bank := rfl
@[simp] theorem setDrive_decValid (s : State) (d : Nat) (f : Drive → Drive) : (setDrive s d f).decValid = s.decValid := rfl
@[simp] theorem setDrive_decCount (s : State) (d : Nat) (f : Drive → Drive) : (setDrive s d f).decCount = s.decCount := rfl
@[simp] theorem setDrive_decSrc (s : State) (d : Nat) (f : Drive → Drive) : (setDrive s d f).decSrc = s.decSrc := rfl
@[simp] theorem setDrive_decAddr (s : State) (d : Nat) (f : Drive → Drive) : (setDrive s d f).decAddr = s.decAddr := rfl
@[simp] theorem setDrive_mem (s : State) (d : Nat) (f : Drive → Drive) : (setDrive s d f).mem = s.mem := rfl
@[simp] theorem setDrive_net (s : State) (d : Nat) (f : Drive → Drive) : (setDrive s d f).net = s.net := rfl
@[simp] theorem setDrive_rdma (s : State) (d : Nat) (f : Drive → Drive) : (setDrive s d f).rdma = s.rdma := rfl
@[simp] theorem setDrive_hq (s : State) (d : Nat) (f : Drive → Drive) : (setDrive s d f).hq = s.hq := rfl
@[simp] theorem setDrive_pools (s : State) (d : Nat) (f : Drive → Drive) : (setDrive s d f).pools = s.pools := rfl
@[simp] theorem setDrive_volumes (s : State) (d : Nat) (f : Drive → Drive) : (setDrive s d f).volumes = s.volumes := rfl
@[simp] theorem setDrive_hbx (s : State) (d : Nat) (f : Drive → Drive) : (setDrive s d f).hbx = s.hbx := rfl
@[simp] theorem setDrive_fab (s : State) (d : Nat) (f : Drive → Drive) : (setDrive s d f).fab = s.fab := rfl
@[simp] theorem setDrive_par (s : State) (d : Nat) (f : Drive → Drive) : (setDrive s d f).par = s.par := rfl
@[simp] theorem setDrive_mc (s : State) (d : Nat) (f : Drive → Drive) : (setDrive s d f).mc = s.mc := rfl
@[simp] theorem setDrive_mov (s : State) (d : Nat) (f : Drive → Drive) : (setDrive s d f).mov = s.mov := rfl
@[simp] theorem setDrive_ctl (s : State) (d : Nat) (f : Drive → Drive) : (setDrive s d f).ctl = s.ctl := rfl
@[simp] theorem setDrive_stby (s : State) (d : Nat) (f : Drive → Drive) : (setDrive s d f).stby = s.stby := rfl
@[simp] theorem setDrive_rails (s : State) (d : Nat) (f : Drive → Drive) : (setDrive s d f).rails = s.rails := rfl
@[simp] theorem setDrive_dom (s : State) (d : Nat) (f : Drive → Drive) : (setDrive s d f).dom = s.dom := rfl
@[simp] theorem setDrive_boot (s : State) (d : Nat) (f : Drive → Drive) : (setDrive s d f).boot = s.boot := rfl
@[simp] theorem setDrive_clk (s : State) (d : Nat) (f : Drive → Drive) : (setDrive s d f).clk = s.clk := rfl
@[simp] theorem setDrive_sep (s : State) (d : Nat) (f : Drive → Drive) : (setDrive s d f).sep = s.sep := rfl
@[simp] theorem setDrive_tel (s : State) (d : Nat) (f : Drive → Drive) : (setDrive s d f).tel = s.tel := rfl
@[simp] theorem setDrive_dimms (s : State) (d : Nat) (f : Drive → Drive) : (setDrive s d f).dimms = s.dimms := rfl
@[simp] theorem setDrive_chainE (s : State) (d : Nat) (f : Drive → Drive) : (setDrive s d f).chainE = s.chainE := rfl
@[simp] theorem setDrive_chainW (s : State) (d : Nat) (f : Drive → Drive) : (setDrive s d f).chainW = s.chainW := rfl
@[simp] theorem setDrive_txWait (s : State) (d : Nat) (f : Drive → Drive) : (setDrive s d f).txWait = s.txWait := rfl
@[simp] theorem setDrive_out (s : State) (d : Nat) (f : Drive → Drive) : (setDrive s d f).out = s.out := rfl
@[simp] theorem setDrive_fresh (s : State) (d : Nat) (f : Drive → Drive) : (setDrive s d f).fresh = s.fresh := rfl
@[simp] theorem setDrive_pending (s : State) (d : Nat) (f : Drive → Drive) : (setDrive s d f).pending = s.pending := rfl

@[simp] theorem setPool_bank (s : State) (i : Nat) (f : Pool → Pool) : (setPool s i f).bank = s.bank := rfl
@[simp] theorem setPool_decValid (s : State) (i : Nat) (f : Pool → Pool) : (setPool s i f).decValid = s.decValid := rfl
@[simp] theorem setPool_decCount (s : State) (i : Nat) (f : Pool → Pool) : (setPool s i f).decCount = s.decCount := rfl
@[simp] theorem setPool_decSrc (s : State) (i : Nat) (f : Pool → Pool) : (setPool s i f).decSrc = s.decSrc := rfl
@[simp] theorem setPool_decAddr (s : State) (i : Nat) (f : Pool → Pool) : (setPool s i f).decAddr = s.decAddr := rfl
@[simp] theorem setPool_mem (s : State) (i : Nat) (f : Pool → Pool) : (setPool s i f).mem = s.mem := rfl
@[simp] theorem setPool_net (s : State) (i : Nat) (f : Pool → Pool) : (setPool s i f).net = s.net := rfl
@[simp] theorem setPool_rdma (s : State) (i : Nat) (f : Pool → Pool) : (setPool s i f).rdma = s.rdma := rfl
@[simp] theorem setPool_hq (s : State) (i : Nat) (f : Pool → Pool) : (setPool s i f).hq = s.hq := rfl
@[simp] theorem setPool_volumes (s : State) (i : Nat) (f : Pool → Pool) : (setPool s i f).volumes = s.volumes := rfl
@[simp] theorem setPool_drives (s : State) (i : Nat) (f : Pool → Pool) : (setPool s i f).drives = s.drives := rfl
@[simp] theorem setPool_hbx (s : State) (i : Nat) (f : Pool → Pool) : (setPool s i f).hbx = s.hbx := rfl
@[simp] theorem setPool_fab (s : State) (i : Nat) (f : Pool → Pool) : (setPool s i f).fab = s.fab := rfl
@[simp] theorem setPool_par (s : State) (i : Nat) (f : Pool → Pool) : (setPool s i f).par = s.par := rfl
@[simp] theorem setPool_mc (s : State) (i : Nat) (f : Pool → Pool) : (setPool s i f).mc = s.mc := rfl
@[simp] theorem setPool_mov (s : State) (i : Nat) (f : Pool → Pool) : (setPool s i f).mov = s.mov := rfl
@[simp] theorem setPool_ctl (s : State) (i : Nat) (f : Pool → Pool) : (setPool s i f).ctl = s.ctl := rfl
@[simp] theorem setPool_stby (s : State) (i : Nat) (f : Pool → Pool) : (setPool s i f).stby = s.stby := rfl
@[simp] theorem setPool_rails (s : State) (i : Nat) (f : Pool → Pool) : (setPool s i f).rails = s.rails := rfl
@[simp] theorem setPool_dom (s : State) (i : Nat) (f : Pool → Pool) : (setPool s i f).dom = s.dom := rfl
@[simp] theorem setPool_boot (s : State) (i : Nat) (f : Pool → Pool) : (setPool s i f).boot = s.boot := rfl
@[simp] theorem setPool_clk (s : State) (i : Nat) (f : Pool → Pool) : (setPool s i f).clk = s.clk := rfl
@[simp] theorem setPool_sep (s : State) (i : Nat) (f : Pool → Pool) : (setPool s i f).sep = s.sep := rfl
@[simp] theorem setPool_tel (s : State) (i : Nat) (f : Pool → Pool) : (setPool s i f).tel = s.tel := rfl
@[simp] theorem setPool_dimms (s : State) (i : Nat) (f : Pool → Pool) : (setPool s i f).dimms = s.dimms := rfl
@[simp] theorem setPool_chainE (s : State) (i : Nat) (f : Pool → Pool) : (setPool s i f).chainE = s.chainE := rfl
@[simp] theorem setPool_chainW (s : State) (i : Nat) (f : Pool → Pool) : (setPool s i f).chainW = s.chainW := rfl
@[simp] theorem setPool_txWait (s : State) (i : Nat) (f : Pool → Pool) : (setPool s i f).txWait = s.txWait := rfl
@[simp] theorem setPool_out (s : State) (i : Nat) (f : Pool → Pool) : (setPool s i f).out = s.out := rfl
@[simp] theorem setPool_fresh (s : State) (i : Nat) (f : Pool → Pool) : (setPool s i f).fresh = s.fresh := rfl
@[simp] theorem setPool_pending (s : State) (i : Nat) (f : Pool → Pool) : (setPool s i f).pending = s.pending := rfl

@[simp] theorem setVol_bank (s : State) (v : Nat) (f : Volume → Volume) : (setVol s v f).bank = s.bank := rfl
@[simp] theorem setVol_decValid (s : State) (v : Nat) (f : Volume → Volume) : (setVol s v f).decValid = s.decValid := rfl
@[simp] theorem setVol_decCount (s : State) (v : Nat) (f : Volume → Volume) : (setVol s v f).decCount = s.decCount := rfl
@[simp] theorem setVol_decSrc (s : State) (v : Nat) (f : Volume → Volume) : (setVol s v f).decSrc = s.decSrc := rfl
@[simp] theorem setVol_decAddr (s : State) (v : Nat) (f : Volume → Volume) : (setVol s v f).decAddr = s.decAddr := rfl
@[simp] theorem setVol_mem (s : State) (v : Nat) (f : Volume → Volume) : (setVol s v f).mem = s.mem := rfl
@[simp] theorem setVol_net (s : State) (v : Nat) (f : Volume → Volume) : (setVol s v f).net = s.net := rfl
@[simp] theorem setVol_rdma (s : State) (v : Nat) (f : Volume → Volume) : (setVol s v f).rdma = s.rdma := rfl
@[simp] theorem setVol_hq (s : State) (v : Nat) (f : Volume → Volume) : (setVol s v f).hq = s.hq := rfl
@[simp] theorem setVol_pools (s : State) (v : Nat) (f : Volume → Volume) : (setVol s v f).pools = s.pools := rfl
@[simp] theorem setVol_drives (s : State) (v : Nat) (f : Volume → Volume) : (setVol s v f).drives = s.drives := rfl
@[simp] theorem setVol_hbx (s : State) (v : Nat) (f : Volume → Volume) : (setVol s v f).hbx = s.hbx := rfl
@[simp] theorem setVol_fab (s : State) (v : Nat) (f : Volume → Volume) : (setVol s v f).fab = s.fab := rfl
@[simp] theorem setVol_par (s : State) (v : Nat) (f : Volume → Volume) : (setVol s v f).par = s.par := rfl
@[simp] theorem setVol_mc (s : State) (v : Nat) (f : Volume → Volume) : (setVol s v f).mc = s.mc := rfl
@[simp] theorem setVol_mov (s : State) (v : Nat) (f : Volume → Volume) : (setVol s v f).mov = s.mov := rfl
@[simp] theorem setVol_ctl (s : State) (v : Nat) (f : Volume → Volume) : (setVol s v f).ctl = s.ctl := rfl
@[simp] theorem setVol_stby (s : State) (v : Nat) (f : Volume → Volume) : (setVol s v f).stby = s.stby := rfl
@[simp] theorem setVol_rails (s : State) (v : Nat) (f : Volume → Volume) : (setVol s v f).rails = s.rails := rfl
@[simp] theorem setVol_dom (s : State) (v : Nat) (f : Volume → Volume) : (setVol s v f).dom = s.dom := rfl
@[simp] theorem setVol_boot (s : State) (v : Nat) (f : Volume → Volume) : (setVol s v f).boot = s.boot := rfl
@[simp] theorem setVol_clk (s : State) (v : Nat) (f : Volume → Volume) : (setVol s v f).clk = s.clk := rfl
@[simp] theorem setVol_sep (s : State) (v : Nat) (f : Volume → Volume) : (setVol s v f).sep = s.sep := rfl
@[simp] theorem setVol_tel (s : State) (v : Nat) (f : Volume → Volume) : (setVol s v f).tel = s.tel := rfl
@[simp] theorem setVol_dimms (s : State) (v : Nat) (f : Volume → Volume) : (setVol s v f).dimms = s.dimms := rfl
@[simp] theorem setVol_chainE (s : State) (v : Nat) (f : Volume → Volume) : (setVol s v f).chainE = s.chainE := rfl
@[simp] theorem setVol_chainW (s : State) (v : Nat) (f : Volume → Volume) : (setVol s v f).chainW = s.chainW := rfl
@[simp] theorem setVol_txWait (s : State) (v : Nat) (f : Volume → Volume) : (setVol s v f).txWait = s.txWait := rfl
@[simp] theorem setVol_out (s : State) (v : Nat) (f : Volume → Volume) : (setVol s v f).out = s.out := rfl
@[simp] theorem setVol_fresh (s : State) (v : Nat) (f : Volume → Volume) : (setVol s v f).fresh = s.fresh := rfl
@[simp] theorem setVol_pending (s : State) (v : Nat) (f : Volume → Volume) : (setVol s v f).pending = s.pending := rfl

@[simp] theorem setRing_bank (s : State) (r : Nat) (f : Ring → Ring) : (setRing s r f).bank = s.bank := rfl
@[simp] theorem setRing_decValid (s : State) (r : Nat) (f : Ring → Ring) : (setRing s r f).decValid = s.decValid := rfl
@[simp] theorem setRing_decCount (s : State) (r : Nat) (f : Ring → Ring) : (setRing s r f).decCount = s.decCount := rfl
@[simp] theorem setRing_decSrc (s : State) (r : Nat) (f : Ring → Ring) : (setRing s r f).decSrc = s.decSrc := rfl
@[simp] theorem setRing_decAddr (s : State) (r : Nat) (f : Ring → Ring) : (setRing s r f).decAddr = s.decAddr := rfl
@[simp] theorem setRing_mem (s : State) (r : Nat) (f : Ring → Ring) : (setRing s r f).mem = s.mem := rfl
@[simp] theorem setRing_net (s : State) (r : Nat) (f : Ring → Ring) : (setRing s r f).net = s.net := rfl
@[simp] theorem setRing_rdma (s : State) (r : Nat) (f : Ring → Ring) : (setRing s r f).rdma = s.rdma := rfl
@[simp] theorem setRing_hq (s : State) (r : Nat) (f : Ring → Ring) : (setRing s r f).hq = s.hq := rfl
@[simp] theorem setRing_pools (s : State) (r : Nat) (f : Ring → Ring) : (setRing s r f).pools = s.pools := rfl
@[simp] theorem setRing_volumes (s : State) (r : Nat) (f : Ring → Ring) : (setRing s r f).volumes = s.volumes := rfl
@[simp] theorem setRing_drives (s : State) (r : Nat) (f : Ring → Ring) : (setRing s r f).drives = s.drives := rfl
@[simp] theorem setRing_fab (s : State) (r : Nat) (f : Ring → Ring) : (setRing s r f).fab = s.fab := rfl
@[simp] theorem setRing_par (s : State) (r : Nat) (f : Ring → Ring) : (setRing s r f).par = s.par := rfl
@[simp] theorem setRing_mc (s : State) (r : Nat) (f : Ring → Ring) : (setRing s r f).mc = s.mc := rfl
@[simp] theorem setRing_mov (s : State) (r : Nat) (f : Ring → Ring) : (setRing s r f).mov = s.mov := rfl
@[simp] theorem setRing_ctl (s : State) (r : Nat) (f : Ring → Ring) : (setRing s r f).ctl = s.ctl := rfl
@[simp] theorem setRing_stby (s : State) (r : Nat) (f : Ring → Ring) : (setRing s r f).stby = s.stby := rfl
@[simp] theorem setRing_rails (s : State) (r : Nat) (f : Ring → Ring) : (setRing s r f).rails = s.rails := rfl
@[simp] theorem setRing_dom (s : State) (r : Nat) (f : Ring → Ring) : (setRing s r f).dom = s.dom := rfl
@[simp] theorem setRing_boot (s : State) (r : Nat) (f : Ring → Ring) : (setRing s r f).boot = s.boot := rfl
@[simp] theorem setRing_clk (s : State) (r : Nat) (f : Ring → Ring) : (setRing s r f).clk = s.clk := rfl
@[simp] theorem setRing_sep (s : State) (r : Nat) (f : Ring → Ring) : (setRing s r f).sep = s.sep := rfl
@[simp] theorem setRing_tel (s : State) (r : Nat) (f : Ring → Ring) : (setRing s r f).tel = s.tel := rfl
@[simp] theorem setRing_dimms (s : State) (r : Nat) (f : Ring → Ring) : (setRing s r f).dimms = s.dimms := rfl
@[simp] theorem setRing_chainE (s : State) (r : Nat) (f : Ring → Ring) : (setRing s r f).chainE = s.chainE := rfl
@[simp] theorem setRing_chainW (s : State) (r : Nat) (f : Ring → Ring) : (setRing s r f).chainW = s.chainW := rfl
@[simp] theorem setRing_txWait (s : State) (r : Nat) (f : Ring → Ring) : (setRing s r f).txWait = s.txWait := rfl
@[simp] theorem setRing_out (s : State) (r : Nat) (f : Ring → Ring) : (setRing s r f).out = s.out := rfl
@[simp] theorem setRing_fresh (s : State) (r : Nat) (f : Ring → Ring) : (setRing s r f).fresh = s.fresh := rfl
@[simp] theorem setRing_pending (s : State) (r : Nat) (f : Ring → Ring) : (setRing s r f).pending = s.pending := rfl

@[simp] theorem setConn_bank (s : State) (c : Nat) (f : Conn → Conn) : (setConn s c f).bank = s.bank := rfl
@[simp] theorem setConn_decValid (s : State) (c : Nat) (f : Conn → Conn) : (setConn s c f).decValid = s.decValid := rfl
@[simp] theorem setConn_decCount (s : State) (c : Nat) (f : Conn → Conn) : (setConn s c f).decCount = s.decCount := rfl
@[simp] theorem setConn_decSrc (s : State) (c : Nat) (f : Conn → Conn) : (setConn s c f).decSrc = s.decSrc := rfl
@[simp] theorem setConn_decAddr (s : State) (c : Nat) (f : Conn → Conn) : (setConn s c f).decAddr = s.decAddr := rfl
@[simp] theorem setConn_mem (s : State) (c : Nat) (f : Conn → Conn) : (setConn s c f).mem = s.mem := rfl
@[simp] theorem setConn_net (s : State) (c : Nat) (f : Conn → Conn) : (setConn s c f).net = s.net := rfl
@[simp] theorem setConn_rdma (s : State) (c : Nat) (f : Conn → Conn) : (setConn s c f).rdma = s.rdma := rfl
@[simp] theorem setConn_pools (s : State) (c : Nat) (f : Conn → Conn) : (setConn s c f).pools = s.pools := rfl
@[simp] theorem setConn_volumes (s : State) (c : Nat) (f : Conn → Conn) : (setConn s c f).volumes = s.volumes := rfl
@[simp] theorem setConn_drives (s : State) (c : Nat) (f : Conn → Conn) : (setConn s c f).drives = s.drives := rfl
@[simp] theorem setConn_hbx (s : State) (c : Nat) (f : Conn → Conn) : (setConn s c f).hbx = s.hbx := rfl
@[simp] theorem setConn_fab (s : State) (c : Nat) (f : Conn → Conn) : (setConn s c f).fab = s.fab := rfl
@[simp] theorem setConn_par (s : State) (c : Nat) (f : Conn → Conn) : (setConn s c f).par = s.par := rfl
@[simp] theorem setConn_mc (s : State) (c : Nat) (f : Conn → Conn) : (setConn s c f).mc = s.mc := rfl
@[simp] theorem setConn_mov (s : State) (c : Nat) (f : Conn → Conn) : (setConn s c f).mov = s.mov := rfl
@[simp] theorem setConn_ctl (s : State) (c : Nat) (f : Conn → Conn) : (setConn s c f).ctl = s.ctl := rfl
@[simp] theorem setConn_stby (s : State) (c : Nat) (f : Conn → Conn) : (setConn s c f).stby = s.stby := rfl
@[simp] theorem setConn_rails (s : State) (c : Nat) (f : Conn → Conn) : (setConn s c f).rails = s.rails := rfl
@[simp] theorem setConn_dom (s : State) (c : Nat) (f : Conn → Conn) : (setConn s c f).dom = s.dom := rfl
@[simp] theorem setConn_boot (s : State) (c : Nat) (f : Conn → Conn) : (setConn s c f).boot = s.boot := rfl
@[simp] theorem setConn_clk (s : State) (c : Nat) (f : Conn → Conn) : (setConn s c f).clk = s.clk := rfl
@[simp] theorem setConn_sep (s : State) (c : Nat) (f : Conn → Conn) : (setConn s c f).sep = s.sep := rfl
@[simp] theorem setConn_tel (s : State) (c : Nat) (f : Conn → Conn) : (setConn s c f).tel = s.tel := rfl
@[simp] theorem setConn_dimms (s : State) (c : Nat) (f : Conn → Conn) : (setConn s c f).dimms = s.dimms := rfl
@[simp] theorem setConn_chainE (s : State) (c : Nat) (f : Conn → Conn) : (setConn s c f).chainE = s.chainE := rfl
@[simp] theorem setConn_chainW (s : State) (c : Nat) (f : Conn → Conn) : (setConn s c f).chainW = s.chainW := rfl
@[simp] theorem setConn_txWait (s : State) (c : Nat) (f : Conn → Conn) : (setConn s c f).txWait = s.txWait := rfl
@[simp] theorem setConn_out (s : State) (c : Nat) (f : Conn → Conn) : (setConn s c f).out = s.out := rfl
@[simp] theorem setConn_fresh (s : State) (c : Nat) (f : Conn → Conn) : (setConn s c f).fresh = s.fresh := rfl
@[simp] theorem setConn_pending (s : State) (c : Nat) (f : Conn → Conn) : (setConn s c f).pending = s.pending := rfl

@[simp] theorem setCmd_bank (s : State) (k : Nat) (f : Cmd → Cmd) : (setCmd s k f).bank = s.bank := rfl
@[simp] theorem setCmd_decValid (s : State) (k : Nat) (f : Cmd → Cmd) : (setCmd s k f).decValid = s.decValid := rfl
@[simp] theorem setCmd_decCount (s : State) (k : Nat) (f : Cmd → Cmd) : (setCmd s k f).decCount = s.decCount := rfl
@[simp] theorem setCmd_decSrc (s : State) (k : Nat) (f : Cmd → Cmd) : (setCmd s k f).decSrc = s.decSrc := rfl
@[simp] theorem setCmd_decAddr (s : State) (k : Nat) (f : Cmd → Cmd) : (setCmd s k f).decAddr = s.decAddr := rfl
@[simp] theorem setCmd_mem (s : State) (k : Nat) (f : Cmd → Cmd) : (setCmd s k f).mem = s.mem := rfl
@[simp] theorem setCmd_net (s : State) (k : Nat) (f : Cmd → Cmd) : (setCmd s k f).net = s.net := rfl
@[simp] theorem setCmd_rdma (s : State) (k : Nat) (f : Cmd → Cmd) : (setCmd s k f).rdma = s.rdma := rfl
@[simp] theorem setCmd_pools (s : State) (k : Nat) (f : Cmd → Cmd) : (setCmd s k f).pools = s.pools := rfl
@[simp] theorem setCmd_volumes (s : State) (k : Nat) (f : Cmd → Cmd) : (setCmd s k f).volumes = s.volumes := rfl
@[simp] theorem setCmd_drives (s : State) (k : Nat) (f : Cmd → Cmd) : (setCmd s k f).drives = s.drives := rfl
@[simp] theorem setCmd_hbx (s : State) (k : Nat) (f : Cmd → Cmd) : (setCmd s k f).hbx = s.hbx := rfl
@[simp] theorem setCmd_fab (s : State) (k : Nat) (f : Cmd → Cmd) : (setCmd s k f).fab = s.fab := rfl
@[simp] theorem setCmd_par (s : State) (k : Nat) (f : Cmd → Cmd) : (setCmd s k f).par = s.par := rfl
@[simp] theorem setCmd_mc (s : State) (k : Nat) (f : Cmd → Cmd) : (setCmd s k f).mc = s.mc := rfl
@[simp] theorem setCmd_mov (s : State) (k : Nat) (f : Cmd → Cmd) : (setCmd s k f).mov = s.mov := rfl
@[simp] theorem setCmd_ctl (s : State) (k : Nat) (f : Cmd → Cmd) : (setCmd s k f).ctl = s.ctl := rfl
@[simp] theorem setCmd_stby (s : State) (k : Nat) (f : Cmd → Cmd) : (setCmd s k f).stby = s.stby := rfl
@[simp] theorem setCmd_rails (s : State) (k : Nat) (f : Cmd → Cmd) : (setCmd s k f).rails = s.rails := rfl
@[simp] theorem setCmd_dom (s : State) (k : Nat) (f : Cmd → Cmd) : (setCmd s k f).dom = s.dom := rfl
@[simp] theorem setCmd_boot (s : State) (k : Nat) (f : Cmd → Cmd) : (setCmd s k f).boot = s.boot := rfl
@[simp] theorem setCmd_clk (s : State) (k : Nat) (f : Cmd → Cmd) : (setCmd s k f).clk = s.clk := rfl
@[simp] theorem setCmd_sep (s : State) (k : Nat) (f : Cmd → Cmd) : (setCmd s k f).sep = s.sep := rfl
@[simp] theorem setCmd_tel (s : State) (k : Nat) (f : Cmd → Cmd) : (setCmd s k f).tel = s.tel := rfl
@[simp] theorem setCmd_dimms (s : State) (k : Nat) (f : Cmd → Cmd) : (setCmd s k f).dimms = s.dimms := rfl
@[simp] theorem setCmd_chainE (s : State) (k : Nat) (f : Cmd → Cmd) : (setCmd s k f).chainE = s.chainE := rfl
@[simp] theorem setCmd_chainW (s : State) (k : Nat) (f : Cmd → Cmd) : (setCmd s k f).chainW = s.chainW := rfl
@[simp] theorem setCmd_txWait (s : State) (k : Nat) (f : Cmd → Cmd) : (setCmd s k f).txWait = s.txWait := rfl
@[simp] theorem setCmd_out (s : State) (k : Nat) (f : Cmd → Cmd) : (setCmd s k f).out = s.out := rfl
@[simp] theorem setCmd_fresh (s : State) (k : Nat) (f : Cmd → Cmd) : (setCmd s k f).fresh = s.fresh := rfl
@[simp] theorem setCmd_pending (s : State) (k : Nat) (f : Cmd → Cmd) : (setCmd s k f).pending = s.pending := rfl

@[simp] theorem setQp_bank (s : State) (i : Nat) (f : Qp → Qp) : (setQp s i f).bank = s.bank := rfl
@[simp] theorem setQp_decValid (s : State) (i : Nat) (f : Qp → Qp) : (setQp s i f).decValid = s.decValid := rfl
@[simp] theorem setQp_decCount (s : State) (i : Nat) (f : Qp → Qp) : (setQp s i f).decCount = s.decCount := rfl
@[simp] theorem setQp_decSrc (s : State) (i : Nat) (f : Qp → Qp) : (setQp s i f).decSrc = s.decSrc := rfl
@[simp] theorem setQp_decAddr (s : State) (i : Nat) (f : Qp → Qp) : (setQp s i f).decAddr = s.decAddr := rfl
@[simp] theorem setQp_mem (s : State) (i : Nat) (f : Qp → Qp) : (setQp s i f).mem = s.mem := rfl
@[simp] theorem setQp_net (s : State) (i : Nat) (f : Qp → Qp) : (setQp s i f).net = s.net := rfl
@[simp] theorem setQp_hq (s : State) (i : Nat) (f : Qp → Qp) : (setQp s i f).hq = s.hq := rfl
@[simp] theorem setQp_pools (s : State) (i : Nat) (f : Qp → Qp) : (setQp s i f).pools = s.pools := rfl
@[simp] theorem setQp_volumes (s : State) (i : Nat) (f : Qp → Qp) : (setQp s i f).volumes = s.volumes := rfl
@[simp] theorem setQp_drives (s : State) (i : Nat) (f : Qp → Qp) : (setQp s i f).drives = s.drives := rfl
@[simp] theorem setQp_hbx (s : State) (i : Nat) (f : Qp → Qp) : (setQp s i f).hbx = s.hbx := rfl
@[simp] theorem setQp_fab (s : State) (i : Nat) (f : Qp → Qp) : (setQp s i f).fab = s.fab := rfl
@[simp] theorem setQp_par (s : State) (i : Nat) (f : Qp → Qp) : (setQp s i f).par = s.par := rfl
@[simp] theorem setQp_mc (s : State) (i : Nat) (f : Qp → Qp) : (setQp s i f).mc = s.mc := rfl
@[simp] theorem setQp_mov (s : State) (i : Nat) (f : Qp → Qp) : (setQp s i f).mov = s.mov := rfl
@[simp] theorem setQp_ctl (s : State) (i : Nat) (f : Qp → Qp) : (setQp s i f).ctl = s.ctl := rfl
@[simp] theorem setQp_stby (s : State) (i : Nat) (f : Qp → Qp) : (setQp s i f).stby = s.stby := rfl
@[simp] theorem setQp_rails (s : State) (i : Nat) (f : Qp → Qp) : (setQp s i f).rails = s.rails := rfl
@[simp] theorem setQp_dom (s : State) (i : Nat) (f : Qp → Qp) : (setQp s i f).dom = s.dom := rfl
@[simp] theorem setQp_boot (s : State) (i : Nat) (f : Qp → Qp) : (setQp s i f).boot = s.boot := rfl
@[simp] theorem setQp_clk (s : State) (i : Nat) (f : Qp → Qp) : (setQp s i f).clk = s.clk := rfl
@[simp] theorem setQp_sep (s : State) (i : Nat) (f : Qp → Qp) : (setQp s i f).sep = s.sep := rfl
@[simp] theorem setQp_tel (s : State) (i : Nat) (f : Qp → Qp) : (setQp s i f).tel = s.tel := rfl
@[simp] theorem setQp_dimms (s : State) (i : Nat) (f : Qp → Qp) : (setQp s i f).dimms = s.dimms := rfl
@[simp] theorem setQp_chainE (s : State) (i : Nat) (f : Qp → Qp) : (setQp s i f).chainE = s.chainE := rfl
@[simp] theorem setQp_chainW (s : State) (i : Nat) (f : Qp → Qp) : (setQp s i f).chainW = s.chainW := rfl
@[simp] theorem setQp_txWait (s : State) (i : Nat) (f : Qp → Qp) : (setQp s i f).txWait = s.txWait := rfl
@[simp] theorem setQp_out (s : State) (i : Nat) (f : Qp → Qp) : (setQp s i f).out = s.out := rfl
@[simp] theorem setQp_fresh (s : State) (i : Nat) (f : Qp → Qp) : (setQp s i f).fresh = s.fresh := rfl
@[simp] theorem setQp_pending (s : State) (i : Nat) (f : Qp → Qp) : (setQp s i f).pending = s.pending := rfl

@[simp] theorem setRegion_bank (s : State) (i : Nat) (f : Region → Region) : (setRegion s i f).bank = s.bank := rfl
@[simp] theorem setRegion_decValid (s : State) (i : Nat) (f : Region → Region) : (setRegion s i f).decValid = s.decValid := rfl
@[simp] theorem setRegion_decCount (s : State) (i : Nat) (f : Region → Region) : (setRegion s i f).decCount = s.decCount := rfl
@[simp] theorem setRegion_decSrc (s : State) (i : Nat) (f : Region → Region) : (setRegion s i f).decSrc = s.decSrc := rfl
@[simp] theorem setRegion_decAddr (s : State) (i : Nat) (f : Region → Region) : (setRegion s i f).decAddr = s.decAddr := rfl
@[simp] theorem setRegion_mem (s : State) (i : Nat) (f : Region → Region) : (setRegion s i f).mem = s.mem := rfl
@[simp] theorem setRegion_net (s : State) (i : Nat) (f : Region → Region) : (setRegion s i f).net = s.net := rfl
@[simp] theorem setRegion_hq (s : State) (i : Nat) (f : Region → Region) : (setRegion s i f).hq = s.hq := rfl
@[simp] theorem setRegion_pools (s : State) (i : Nat) (f : Region → Region) : (setRegion s i f).pools = s.pools := rfl
@[simp] theorem setRegion_volumes (s : State) (i : Nat) (f : Region → Region) : (setRegion s i f).volumes = s.volumes := rfl
@[simp] theorem setRegion_drives (s : State) (i : Nat) (f : Region → Region) : (setRegion s i f).drives = s.drives := rfl
@[simp] theorem setRegion_hbx (s : State) (i : Nat) (f : Region → Region) : (setRegion s i f).hbx = s.hbx := rfl
@[simp] theorem setRegion_fab (s : State) (i : Nat) (f : Region → Region) : (setRegion s i f).fab = s.fab := rfl
@[simp] theorem setRegion_par (s : State) (i : Nat) (f : Region → Region) : (setRegion s i f).par = s.par := rfl
@[simp] theorem setRegion_mc (s : State) (i : Nat) (f : Region → Region) : (setRegion s i f).mc = s.mc := rfl
@[simp] theorem setRegion_mov (s : State) (i : Nat) (f : Region → Region) : (setRegion s i f).mov = s.mov := rfl
@[simp] theorem setRegion_ctl (s : State) (i : Nat) (f : Region → Region) : (setRegion s i f).ctl = s.ctl := rfl
@[simp] theorem setRegion_stby (s : State) (i : Nat) (f : Region → Region) : (setRegion s i f).stby = s.stby := rfl
@[simp] theorem setRegion_rails (s : State) (i : Nat) (f : Region → Region) : (setRegion s i f).rails = s.rails := rfl
@[simp] theorem setRegion_dom (s : State) (i : Nat) (f : Region → Region) : (setRegion s i f).dom = s.dom := rfl
@[simp] theorem setRegion_boot (s : State) (i : Nat) (f : Region → Region) : (setRegion s i f).boot = s.boot := rfl
@[simp] theorem setRegion_clk (s : State) (i : Nat) (f : Region → Region) : (setRegion s i f).clk = s.clk := rfl
@[simp] theorem setRegion_sep (s : State) (i : Nat) (f : Region → Region) : (setRegion s i f).sep = s.sep := rfl
@[simp] theorem setRegion_tel (s : State) (i : Nat) (f : Region → Region) : (setRegion s i f).tel = s.tel := rfl
@[simp] theorem setRegion_dimms (s : State) (i : Nat) (f : Region → Region) : (setRegion s i f).dimms = s.dimms := rfl
@[simp] theorem setRegion_chainE (s : State) (i : Nat) (f : Region → Region) : (setRegion s i f).chainE = s.chainE := rfl
@[simp] theorem setRegion_chainW (s : State) (i : Nat) (f : Region → Region) : (setRegion s i f).chainW = s.chainW := rfl
@[simp] theorem setRegion_txWait (s : State) (i : Nat) (f : Region → Region) : (setRegion s i f).txWait = s.txWait := rfl
@[simp] theorem setRegion_out (s : State) (i : Nat) (f : Region → Region) : (setRegion s i f).out = s.out := rfl
@[simp] theorem setRegion_fresh (s : State) (i : Nat) (f : Region → Region) : (setRegion s i f).fresh = s.fresh := rfl
@[simp] theorem setRegion_pending (s : State) (i : Nat) (f : Region → Region) : (setRegion s i f).pending = s.pending := rfl

@[simp] theorem setMc_bank (s : State) (f : MapCache → MapCache) : (setMc s f).bank = s.bank := rfl
@[simp] theorem setMc_decValid (s : State) (f : MapCache → MapCache) : (setMc s f).decValid = s.decValid := rfl
@[simp] theorem setMc_decCount (s : State) (f : MapCache → MapCache) : (setMc s f).decCount = s.decCount := rfl
@[simp] theorem setMc_decSrc (s : State) (f : MapCache → MapCache) : (setMc s f).decSrc = s.decSrc := rfl
@[simp] theorem setMc_decAddr (s : State) (f : MapCache → MapCache) : (setMc s f).decAddr = s.decAddr := rfl
@[simp] theorem setMc_mem (s : State) (f : MapCache → MapCache) : (setMc s f).mem = s.mem := rfl
@[simp] theorem setMc_net (s : State) (f : MapCache → MapCache) : (setMc s f).net = s.net := rfl
@[simp] theorem setMc_rdma (s : State) (f : MapCache → MapCache) : (setMc s f).rdma = s.rdma := rfl
@[simp] theorem setMc_hq (s : State) (f : MapCache → MapCache) : (setMc s f).hq = s.hq := rfl
@[simp] theorem setMc_pools (s : State) (f : MapCache → MapCache) : (setMc s f).pools = s.pools := rfl
@[simp] theorem setMc_volumes (s : State) (f : MapCache → MapCache) : (setMc s f).volumes = s.volumes := rfl
@[simp] theorem setMc_drives (s : State) (f : MapCache → MapCache) : (setMc s f).drives = s.drives := rfl
@[simp] theorem setMc_hbx (s : State) (f : MapCache → MapCache) : (setMc s f).hbx = s.hbx := rfl
@[simp] theorem setMc_fab (s : State) (f : MapCache → MapCache) : (setMc s f).fab = s.fab := rfl
@[simp] theorem setMc_par (s : State) (f : MapCache → MapCache) : (setMc s f).par = s.par := rfl
@[simp] theorem setMc_mov (s : State) (f : MapCache → MapCache) : (setMc s f).mov = s.mov := rfl
@[simp] theorem setMc_ctl (s : State) (f : MapCache → MapCache) : (setMc s f).ctl = s.ctl := rfl
@[simp] theorem setMc_stby (s : State) (f : MapCache → MapCache) : (setMc s f).stby = s.stby := rfl
@[simp] theorem setMc_rails (s : State) (f : MapCache → MapCache) : (setMc s f).rails = s.rails := rfl
@[simp] theorem setMc_dom (s : State) (f : MapCache → MapCache) : (setMc s f).dom = s.dom := rfl
@[simp] theorem setMc_boot (s : State) (f : MapCache → MapCache) : (setMc s f).boot = s.boot := rfl
@[simp] theorem setMc_clk (s : State) (f : MapCache → MapCache) : (setMc s f).clk = s.clk := rfl
@[simp] theorem setMc_sep (s : State) (f : MapCache → MapCache) : (setMc s f).sep = s.sep := rfl
@[simp] theorem setMc_tel (s : State) (f : MapCache → MapCache) : (setMc s f).tel = s.tel := rfl
@[simp] theorem setMc_dimms (s : State) (f : MapCache → MapCache) : (setMc s f).dimms = s.dimms := rfl
@[simp] theorem setMc_chainE (s : State) (f : MapCache → MapCache) : (setMc s f).chainE = s.chainE := rfl
@[simp] theorem setMc_chainW (s : State) (f : MapCache → MapCache) : (setMc s f).chainW = s.chainW := rfl
@[simp] theorem setMc_txWait (s : State) (f : MapCache → MapCache) : (setMc s f).txWait = s.txWait := rfl
@[simp] theorem setMc_out (s : State) (f : MapCache → MapCache) : (setMc s f).out = s.out := rfl
@[simp] theorem setMc_fresh (s : State) (f : MapCache → MapCache) : (setMc s f).fresh = s.fresh := rfl
@[simp] theorem setMc_pending (s : State) (f : MapCache → MapCache) : (setMc s f).pending = s.pending := rfl

@[simp] theorem setNetPort_bank (s : State) (l : Nat) (f : NetPort → NetPort) : (setNetPort s l f).bank = s.bank := rfl
@[simp] theorem setNetPort_decValid (s : State) (l : Nat) (f : NetPort → NetPort) : (setNetPort s l f).decValid = s.decValid := rfl
@[simp] theorem setNetPort_decCount (s : State) (l : Nat) (f : NetPort → NetPort) : (setNetPort s l f).decCount = s.decCount := rfl
@[simp] theorem setNetPort_decSrc (s : State) (l : Nat) (f : NetPort → NetPort) : (setNetPort s l f).decSrc = s.decSrc := rfl
@[simp] theorem setNetPort_decAddr (s : State) (l : Nat) (f : NetPort → NetPort) : (setNetPort s l f).decAddr = s.decAddr := rfl
@[simp] theorem setNetPort_mem (s : State) (l : Nat) (f : NetPort → NetPort) : (setNetPort s l f).mem = s.mem := rfl
@[simp] theorem setNetPort_rdma (s : State) (l : Nat) (f : NetPort → NetPort) : (setNetPort s l f).rdma = s.rdma := rfl
@[simp] theorem setNetPort_hq (s : State) (l : Nat) (f : NetPort → NetPort) : (setNetPort s l f).hq = s.hq := rfl
@[simp] theorem setNetPort_pools (s : State) (l : Nat) (f : NetPort → NetPort) : (setNetPort s l f).pools = s.pools := rfl
@[simp] theorem setNetPort_volumes (s : State) (l : Nat) (f : NetPort → NetPort) : (setNetPort s l f).volumes = s.volumes := rfl
@[simp] theorem setNetPort_drives (s : State) (l : Nat) (f : NetPort → NetPort) : (setNetPort s l f).drives = s.drives := rfl
@[simp] theorem setNetPort_hbx (s : State) (l : Nat) (f : NetPort → NetPort) : (setNetPort s l f).hbx = s.hbx := rfl
@[simp] theorem setNetPort_fab (s : State) (l : Nat) (f : NetPort → NetPort) : (setNetPort s l f).fab = s.fab := rfl
@[simp] theorem setNetPort_par (s : State) (l : Nat) (f : NetPort → NetPort) : (setNetPort s l f).par = s.par := rfl
@[simp] theorem setNetPort_mc (s : State) (l : Nat) (f : NetPort → NetPort) : (setNetPort s l f).mc = s.mc := rfl
@[simp] theorem setNetPort_mov (s : State) (l : Nat) (f : NetPort → NetPort) : (setNetPort s l f).mov = s.mov := rfl
@[simp] theorem setNetPort_ctl (s : State) (l : Nat) (f : NetPort → NetPort) : (setNetPort s l f).ctl = s.ctl := rfl
@[simp] theorem setNetPort_stby (s : State) (l : Nat) (f : NetPort → NetPort) : (setNetPort s l f).stby = s.stby := rfl
@[simp] theorem setNetPort_rails (s : State) (l : Nat) (f : NetPort → NetPort) : (setNetPort s l f).rails = s.rails := rfl
@[simp] theorem setNetPort_dom (s : State) (l : Nat) (f : NetPort → NetPort) : (setNetPort s l f).dom = s.dom := rfl
@[simp] theorem setNetPort_boot (s : State) (l : Nat) (f : NetPort → NetPort) : (setNetPort s l f).boot = s.boot := rfl
@[simp] theorem setNetPort_clk (s : State) (l : Nat) (f : NetPort → NetPort) : (setNetPort s l f).clk = s.clk := rfl
@[simp] theorem setNetPort_sep (s : State) (l : Nat) (f : NetPort → NetPort) : (setNetPort s l f).sep = s.sep := rfl
@[simp] theorem setNetPort_tel (s : State) (l : Nat) (f : NetPort → NetPort) : (setNetPort s l f).tel = s.tel := rfl
@[simp] theorem setNetPort_dimms (s : State) (l : Nat) (f : NetPort → NetPort) : (setNetPort s l f).dimms = s.dimms := rfl
@[simp] theorem setNetPort_chainE (s : State) (l : Nat) (f : NetPort → NetPort) : (setNetPort s l f).chainE = s.chainE := rfl
@[simp] theorem setNetPort_chainW (s : State) (l : Nat) (f : NetPort → NetPort) : (setNetPort s l f).chainW = s.chainW := rfl
@[simp] theorem setNetPort_txWait (s : State) (l : Nat) (f : NetPort → NetPort) : (setNetPort s l f).txWait = s.txWait := rfl
@[simp] theorem setNetPort_out (s : State) (l : Nat) (f : NetPort → NetPort) : (setNetPort s l f).out = s.out := rfl
@[simp] theorem setNetPort_fresh (s : State) (l : Nat) (f : NetPort → NetPort) : (setNetPort s l f).fresh = s.fresh := rfl
@[simp] theorem setNetPort_pending (s : State) (l : Nat) (f : NetPort → NetPort) : (setNetPort s l f).pending = s.pending := rfl

@[simp] theorem setOut_bank (s : State) (p : Nat) (f : OutPort → OutPort) : (setOut s p f).bank = s.bank := rfl
@[simp] theorem setOut_decValid (s : State) (p : Nat) (f : OutPort → OutPort) : (setOut s p f).decValid = s.decValid := rfl
@[simp] theorem setOut_decCount (s : State) (p : Nat) (f : OutPort → OutPort) : (setOut s p f).decCount = s.decCount := rfl
@[simp] theorem setOut_decSrc (s : State) (p : Nat) (f : OutPort → OutPort) : (setOut s p f).decSrc = s.decSrc := rfl
@[simp] theorem setOut_decAddr (s : State) (p : Nat) (f : OutPort → OutPort) : (setOut s p f).decAddr = s.decAddr := rfl
@[simp] theorem setOut_mem (s : State) (p : Nat) (f : OutPort → OutPort) : (setOut s p f).mem = s.mem := rfl
@[simp] theorem setOut_net (s : State) (p : Nat) (f : OutPort → OutPort) : (setOut s p f).net = s.net := rfl
@[simp] theorem setOut_rdma (s : State) (p : Nat) (f : OutPort → OutPort) : (setOut s p f).rdma = s.rdma := rfl
@[simp] theorem setOut_hq (s : State) (p : Nat) (f : OutPort → OutPort) : (setOut s p f).hq = s.hq := rfl
@[simp] theorem setOut_pools (s : State) (p : Nat) (f : OutPort → OutPort) : (setOut s p f).pools = s.pools := rfl
@[simp] theorem setOut_volumes (s : State) (p : Nat) (f : OutPort → OutPort) : (setOut s p f).volumes = s.volumes := rfl
@[simp] theorem setOut_drives (s : State) (p : Nat) (f : OutPort → OutPort) : (setOut s p f).drives = s.drives := rfl
@[simp] theorem setOut_hbx (s : State) (p : Nat) (f : OutPort → OutPort) : (setOut s p f).hbx = s.hbx := rfl
@[simp] theorem setOut_par (s : State) (p : Nat) (f : OutPort → OutPort) : (setOut s p f).par = s.par := rfl
@[simp] theorem setOut_mc (s : State) (p : Nat) (f : OutPort → OutPort) : (setOut s p f).mc = s.mc := rfl
@[simp] theorem setOut_mov (s : State) (p : Nat) (f : OutPort → OutPort) : (setOut s p f).mov = s.mov := rfl
@[simp] theorem setOut_ctl (s : State) (p : Nat) (f : OutPort → OutPort) : (setOut s p f).ctl = s.ctl := rfl
@[simp] theorem setOut_stby (s : State) (p : Nat) (f : OutPort → OutPort) : (setOut s p f).stby = s.stby := rfl
@[simp] theorem setOut_rails (s : State) (p : Nat) (f : OutPort → OutPort) : (setOut s p f).rails = s.rails := rfl
@[simp] theorem setOut_dom (s : State) (p : Nat) (f : OutPort → OutPort) : (setOut s p f).dom = s.dom := rfl
@[simp] theorem setOut_boot (s : State) (p : Nat) (f : OutPort → OutPort) : (setOut s p f).boot = s.boot := rfl
@[simp] theorem setOut_clk (s : State) (p : Nat) (f : OutPort → OutPort) : (setOut s p f).clk = s.clk := rfl
@[simp] theorem setOut_sep (s : State) (p : Nat) (f : OutPort → OutPort) : (setOut s p f).sep = s.sep := rfl
@[simp] theorem setOut_tel (s : State) (p : Nat) (f : OutPort → OutPort) : (setOut s p f).tel = s.tel := rfl
@[simp] theorem setOut_dimms (s : State) (p : Nat) (f : OutPort → OutPort) : (setOut s p f).dimms = s.dimms := rfl
@[simp] theorem setOut_chainE (s : State) (p : Nat) (f : OutPort → OutPort) : (setOut s p f).chainE = s.chainE := rfl
@[simp] theorem setOut_chainW (s : State) (p : Nat) (f : OutPort → OutPort) : (setOut s p f).chainW = s.chainW := rfl
@[simp] theorem setOut_txWait (s : State) (p : Nat) (f : OutPort → OutPort) : (setOut s p f).txWait = s.txWait := rfl
@[simp] theorem setOut_out (s : State) (p : Nat) (f : OutPort → OutPort) : (setOut s p f).out = s.out := rfl
@[simp] theorem setOut_fresh (s : State) (p : Nat) (f : OutPort → OutPort) : (setOut s p f).fresh = s.fresh := rfl
@[simp] theorem setOut_pending (s : State) (p : Nat) (f : OutPort → OutPort) : (setOut s p f).pending = s.pending := rfl

/-! The field that an update writes. -/

@[simp] theorem emit_out (s : State) (o : Out) : (emit s o).out = o :: s.out := rfl
@[simp] theorem reach_now (s : State) (t : Nat) : (reach s t).clk.now = max s.clk.now t := rfl
@[simp] theorem store_mem (s : State) (a : Nat) (b : Bytes) : (store s a b).mem = memWrites s.mem a b := rfl

end Sys2Proof.Machine
end

