-- ==== Sys2Proof/Laws/Tables.lean ====
section
/-! SUPPORT. Laws of the sparse tables, of memory in its canonical form, and of the register bank. -/

namespace Sys2Proof.Machine

/-! ## Sparse tables -/

@[simp] theorem tget_nil {α : Type} (k : Nat) : tget ([] : Tab α) k = none := rfl

theorem tget_cons {α : Type} (j : Nat) (w : α) (r : Tab α) (k : Nat) :
    tget ((j, w) :: r) k = if j = k then some w else tget r k := rfl

/-- A key that has been set reads as set. -/
@[simp] theorem tget_tput_same {α : Type} (t : Tab α) (k : Nat) (v : α) : tget (tput t k v) k = some v := by
  induction t with
  | nil => simp [tput, tget]
  | cons e r ih =>
    obtain ⟨j, w⟩ := e
    by_cases h : k < j
    · simp [tput, h, tget]
    · by_cases h2 : j = k
      · simp [tput, h2, tget]
      · simp [tput, h, h2, tget, ih]

/-- Setting a key leaves every other key. -/
theorem tget_tput_other {α : Type} (t : Tab α) (k j : Nat) (v : α) (h : j ≠ k) : tget (tput t k v) j = tget t j := by
  induction t with
  | nil => simp [tput, tget, Ne.symm h]
  | cons e r ih =>
    obtain ⟨i, w⟩ := e
    by_cases h1 : k < i
    · simp [tput, h1, tget, Ne.symm h]
    · by_cases h2 : i = k
      · subst h2; simp [tput, tget, Ne.symm h]
      · simp [tput, h1, h2, tget, ih]

/-- Changing an entry changes what its key reads and no other. -/
theorem tget_tmod {α : Type} (t : Tab α) (k j : Nat) (f : α → α) :
    tget (tmod t k f) j = if j = k then (tget t j).map f else tget t j := by
  induction t with
  | nil => simp [tmod, tget]
  | cons e r ih =>
    obtain ⟨i, w⟩ := e
    have hm : tmod ((i, w) :: r) k f = (if i = k then (i, f w) else (i, w)) :: tmod r k f := rfl
    rw [hm]
    by_cases hik : i = k
    · subst hik
      by_cases hij : i = j
      · subst hij; simp [tget]
      · simp [tget, hij, ih, Ne.symm hij]
    · by_cases hij : i = j
      · subst hij; simp [tget, hik]
      · simp [tget, hik, hij, ih]

/-! ## Memory -/

/-- Every entry lies above an address. -/
def memAbove (a : Nat) : List Host.Cell → Prop
  | [] => True
  | (j, _) :: _ => a < j

theorem memWf_tail {e : Host.Cell} {r : List Host.Cell} (h : memWf (e :: r) = true) : memWf r = true := by
  cases r with
  | nil => rfl
  | cons f r => simp [memWf] at h; exact h.2

theorem memWf_head {e : Host.Cell} {r : List Host.Cell} (h : memWf (e :: r) = true) : e.2 ≠ 0 := by
  cases r with
  | nil => simpa [memWf] using h
  | cons f r => simp [memWf] at h; exact h.1.1

theorem memWf_above {e : Host.Cell} {r : List Host.Cell} (h : memWf (e :: r) = true) : memAbove e.1 r := by
  cases r with
  | nil => trivial
  | cons f r => simp [memWf] at h; exact h.1.2

theorem memWf_cons {e : Host.Cell} {r : List Host.Cell} (h0 : e.2 ≠ 0) (ha : memAbove e.1 r) (hr : memWf r = true) :
    memWf (e :: r) = true := by
  cases r with
  | nil => simpa [memWf] using h0
  | cons f r => simp only [memWf, Bool.and_eq_true, bne_iff_ne, decide_eq_true_eq]; exact ⟨⟨h0, ha⟩, hr⟩

theorem memAbove_write {m : List Host.Cell} {a b : Nat} (v : Byte) (hm : memAbove b m) (hw : memWf m = true) (hab : b < a) :
    memAbove b (memWrite m a v) := by
  cases m with
  | nil => by_cases h : v = 0#8 <;> simp [memWrite, h, memAbove, hab]
  | cons e r =>
    obtain ⟨j, c⟩ := e
    have hj : b < j := hm
    by_cases h1 : a < j
    · by_cases h : v = 0#8 <;> simp [memWrite, h1, h, memAbove, hab, hj]
    · by_cases h2 : j = a
      · subst h2
        by_cases h : v = 0#8
        · simp only [memWrite, BitVec.ofNat_eq_ofNat, Nat.lt_irrefl, if_false, if_true, h]
          have ha := memWf_above hw
          cases r with
          | nil => trivial
          | cons f r => exact Nat.lt_trans hj ha
        · simp [memWrite, h, memAbove, hj]
      · simp [memWrite, h1, h2, memAbove, hj]

/-- A write keeps the canonical form. -/
theorem memWrite_wf (m : List Host.Cell) (a : Nat) (v : Byte) (h : memWf m = true) : memWf (memWrite m a v) = true := by
  induction m with
  | nil => by_cases hv : v = 0#8 <;> simp [memWrite, hv, memWf]
  | cons e r ih =>
    obtain ⟨j, b⟩ := e
    by_cases h1 : a < j
    · by_cases hv : v = 0#8
      · simpa [memWrite, h1, hv] using h
      · simp only [memWrite, BitVec.ofNat_eq_ofNat, h1, if_true, hv, if_false]
        exact memWf_cons hv h1 h
    · by_cases h2 : j = a
      · by_cases hv : v = 0#8
        · simp only [memWrite, BitVec.ofNat_eq_ofNat, h2, Nat.lt_irrefl, if_false, if_true, hv]; exact memWf_tail h
        · subst h2
          simp only [memWrite, BitVec.ofNat_eq_ofNat, Nat.lt_irrefl, if_false, if_true, hv]
          exact memWf_cons hv (memWf_above (e := (j, b)) h) (memWf_tail h)
      · simp only [memWrite, BitVec.ofNat_eq_ofNat, h1, if_false, h2]
        exact memWf_cons (memWf_head h) (memAbove_write v (memWf_above h) (memWf_tail h) (by omega)) (ih (memWf_tail h))

theorem memWrites_wf (m : List Host.Cell) (a : Nat) (b : Bytes) (h : memWf m = true) : memWf (memWrites m a b) = true := by
  induction b generalizing m a with
  | nil => exact h
  | cons x r ih => exact ih _ _ (memWrite_wf m a x h)

theorem memRead_above {m : List Host.Cell} {a : Nat} (ha : memAbove a m) (hw : memWf m = true) : memRead m a = 0 := by
  induction m generalizing a with
  | nil => rfl
  | cons e r ih =>
    obtain ⟨j, b⟩ := e
    have hj : a < j := ha
    have hr : memAbove a r := by
      have := memWf_above hw
      cases r with
      | nil => trivial
      | cons f r => exact Nat.lt_trans hj this
    simp only [memRead, show ¬ (j = a) by omega, if_false]
    exact ih hr (memWf_tail hw)

/-- What a byte reads after a write: the value at the address written, and what it read before everywhere else. -/
theorem memRead_memWrite (m : List Host.Cell) (a c : Nat) (v : Byte) (h : memWf m = true) :
    memRead (memWrite m a v) c = if c = a then v else memRead m c := by
  induction m with
  | nil =>
    by_cases hv : v = 0#8
    · simp [memWrite, hv, memRead]
    · by_cases hc : c = a
      · simp [memWrite, hv, memRead, hc]
      · simp [memWrite, hv, memRead, hc, Ne.symm hc]
  | cons e r ih =>
    obtain ⟨j, b⟩ := e
    by_cases h1 : a < j
    · by_cases hv : v = 0#8
      · by_cases hc : c = a
        · subst hc
          have : memRead ((j, b) :: r) c = 0 := memRead_above (show memAbove c ((j, b) :: r) from h1) h
          simp only [memWrite, BitVec.ofNat_eq_ofNat, h1, if_true, hv]; exact this
        · simp [memWrite, h1, hv, hc]
      · by_cases hc : c = a
        · simp [memWrite, h1, hv, memRead, hc]
        · simp [memWrite, h1, hv, memRead, hc, Ne.symm hc]
    · by_cases h2 : j = a
      · subst h2
        by_cases hv : v = 0#8
        · by_cases hc : c = j
          · subst hc
            simp only [memWrite, BitVec.ofNat_eq_ofNat, Nat.lt_irrefl, if_false, if_true, hv]
            exact memRead_above (memWf_above h) (memWf_tail h)
          · simp [memWrite, hv, hc, memRead, Ne.symm hc]
        · by_cases hc : c = j
          · simp [memWrite, hv, memRead, hc]
          · simp [memWrite, hv, memRead, hc, Ne.symm hc]
      · simp only [memWrite, BitVec.ofNat_eq_ofNat, h1, if_false, h2]
        by_cases hc : j = c
        · have hne : c ≠ a := by omega
          simp [memRead, hc, hne]
        · simp only [memRead, hc, if_false]; exact ih (memWf_tail h)

/-- A store keeps the canonical form. -/
theorem store_wf (s : State) (a : Nat) (b : Bytes) (h : memWf s.mem = true) : memWf (store s a b).mem = true := memWrites_wf _ _ _ h

/-- A byte outside the stored range reads as before. -/
theorem memRead_memWrites_other (m : List Host.Cell) (a c : Nat) (b : Bytes) (hw : memWf m = true) (h : c < a ∨ a + b.length ≤ c) :
    memRead (memWrites m a b) c = memRead m c := by
  induction b generalizing m a with
  | nil => rfl
  | cons x r ih =>
    have hl : (x :: r).length = r.length + 1 := rfl
    rw [hl] at h
    show memRead (memWrites (memWrite m a x) (a + 1) r) c = memRead m c
    rw [ih (memWrite m a x) (a + 1) (memWrite_wf m a x hw) (by omega), memRead_memWrite m a c x hw]
    simp [show c ≠ a by omega]

/-! ## Register bank -/

/-- A register that has been set reads as set. -/
@[simp] theorem bankGet_bankSet_same (s : State) (r : Reg) (v : Word) : bankGet (bankSet s r v) r = v := by
  simp [bankGet, bankSet]

/-- Setting a register leaves every register at another address. -/
theorem bankGet_bankSet_other (s : State) (r q : Reg) (v : Word) (h : regAddr q ≠ regAddr r) : bankGet (bankSet s r v) q = bankGet s q := by
  simp [bankGet, bankSet, tget_tput_other _ _ _ _ h]

@[simp] theorem bankGet_setBit_same (s : State) (r : Reg) (i : Nat) : bankGet (setBit s r i) r = bankGet s r ||| (1#64 <<< i) := by
  simp [setBit]

theorem bankGet_setBit_other (s : State) (r q : Reg) (i : Nat) (h : regAddr q ≠ regAddr r) : bankGet (setBit s r i) q = bankGet s q :=
  bankGet_bankSet_other _ _ _ _ h

@[simp] theorem bankGet_clearBit_same (s : State) (r : Reg) (i : Nat) : bankGet (clearBit s r i) r = bankGet s r &&& ~~~(1#64 <<< i) := by
  simp [clearBit]

theorem bankGet_clearBit_other (s : State) (r q : Reg) (i : Nat) (h : regAddr q ≠ regAddr r) : bankGet (clearBit s r i) q = bankGet s q :=
  bankGet_bankSet_other _ _ _ _ h

/-! ## Access codes (R6, R7) -/

/-- The three kinds of a register's stored bits do not overlap in a bit: what a write leaves in a bit of one kind alone. -/
theorem accessWrite_rw (i : RegInfo) (old v sets clears : Word) (k : Nat) (h1 : i.rw.getLsbD k = true) (h2 : i.w1c.getLsbD k = false)
    (h3 : i.w1s.getLsbD k = false) : (accessWrite i old v sets clears).getLsbD k = v.getLsbD k := by
  simp [accessWrite, h1, h2, h3]

theorem accessWrite_w1c (i : RegInfo) (old v sets clears : Word) (k : Nat) (hk : k < 64) (h1 : i.rw.getLsbD k = false) (h2 : i.w1c.getLsbD k = true)
    (h3 : i.w1s.getLsbD k = false) :
    (accessWrite i old v sets clears).getLsbD k = ((old.getLsbD k && !(v.getLsbD k)) || sets.getLsbD k) := by
  rw [BitVec.getLsbD_eq_getElem hk] at h1 h2 h3 ⊢
  simp only [BitVec.getLsbD_eq_getElem hk]
  simp [accessWrite, h1, h2, h3]

theorem accessWrite_w1s (i : RegInfo) (old v sets clears : Word) (k : Nat) (hk : k < 64) (h1 : i.rw.getLsbD k = false) (h2 : i.w1c.getLsbD k = false)
    (h3 : i.w1s.getLsbD k = true) :
    (accessWrite i old v sets clears).getLsbD k = ((old.getLsbD k && !(clears.getLsbD k)) || v.getLsbD k) := by
  rw [BitVec.getLsbD_eq_getElem hk] at h1 h2 h3 ⊢
  simp only [BitVec.getLsbD_eq_getElem hk]
  simp [accessWrite, h1, h2, h3]

end Sys2Proof.Machine
end

