-- ==== Sys2Proof/Laws/Shared.lean ====
section
/-! SUPPORT. What each shared operation can change: one lemma that says all of it, and from it one lemma per untouched field. -/

namespace Sys2Proof.Machine

/-- A wrap changes counters and TEL_EVENT alone (R359). -/
theorem ctrWrap_frame (s : State) (n : Nat) :
    ∃ b c, ctrWrap s n = { s with bank := b, tel := { s.tel with ctrs := c } } := by
  unfold ctrWrap
  by_cases h1 : (ctrOf s.tel.ctrs n).chain = true
  · simp only [h1, if_true]
    generalize ctrAdd s.tel.ctrs (n + 1) 1 = p
    obtain ⟨t, w⟩ := p
    cases w
    · exact ⟨_, _, rfl⟩
    · exact ⟨_, _, rfl⟩
  · simp only [h1]
    exact ⟨_, _, rfl⟩

/-- Counting changes a counter table and TEL_EVENT alone (R358, R359). -/
theorem countBy_frame (s : State) (n v : Nat) :
    ∃ b c, countBy s n v = { s with bank := b, tel := { s.tel with ctrs := c } } := by
  unfold countBy
  by_cases h : v = 0 ∨ ctrHigh s.tel.ctrs n
  · exact ⟨s.bank, s.tel.ctrs, by rw [if_pos h]⟩
  · rw [if_neg h]
    dsimp only
    generalize ctrAdd s.tel.ctrs n (if (ctrOf s.tel.ctrs n).edge then 1 else v) = p
    obtain ⟨t, w⟩ := p
    cases w
    · exact ⟨_, _, rfl⟩
    · obtain ⟨b, c, h⟩ := ctrWrap_frame { s with tel := { s.tel with ctrs := t } } n
      exact ⟨b, c, h⟩

/-- One occurrence of an event likewise. -/
theorem count_frame (s : State) (n : Nat) : ∃ b c, count s n = { s with bank := b, tel := { s.tel with ctrs := c } } :=
  countBy_frame s n 1

/-- A vector signalled changes the endpoint's functions and the emissions alone (R346, R352). -/
theorem msixVector_frame (s : State) (pf v : Nat) : ∃ e o, msixVector s pf v = { s with sep := e, out := o } := by
  unfold msixVector
  simp only []
  split
  · exact ⟨_, _, rfl⟩
  · split
    · unfold setSepFn
      split
      · exact ⟨_, _, rfl⟩
      · exact ⟨_, _, rfl⟩
    · exact ⟨_, _, rfl⟩

/-- So does PF0's message. -/
theorem msiSend_frame (s : State) : ∃ e o, msiSend s = { s with sep := e, out := o } := by
  unfold msiSend
  simp only []
  split
  · exact ⟨_, _, rfl⟩
  · split
    · exact ⟨_, _, rfl⟩
    · exact ⟨_, _, rfl⟩

/-- A PF0 source raised changes the endpoint and the emissions alone (R346). -/
theorem pf0Source_frame (s : State) (v : Nat) : ∃ e o, pf0Source s v = { s with sep := e, out := o } := by
  unfold pf0Source
  simp only [pf0Signal]
  split
  · obtain ⟨e, o, h⟩ := msixVector_frame { s with sep := { s.sep with intPend := s.sep.intPend ||| (1#64 <<< v) } } 0 v
    exact ⟨e, o, by rw [h]⟩
  · split
    · obtain ⟨e, o, h⟩ := msiSend_frame { s with sep := { s.sep with intPend := s.sep.intPend ||| (1#64 <<< v) } }
      exact ⟨e, o, by rw [h]⟩
    · exact ⟨_, _, rfl⟩

/-- A management event changes CTL_EVENT, the event list, the number kept in MRAM, the endpoint and the emissions alone (R286). -/
theorem mgmt_frame (s : State) (c o d : Nat) :
    ∃ b k h e p, mgmt s c o d = { s with bank := b, ctl := k, hbx := h, sep := e, out := p } := by
  have key : ∀ x : State, (∃ k h, x = { s with ctl := k, hbx := h }) → ∃ b k h e p,
      pf0Source (setBit x .ctlEvent 5) 4 = { s with bank := b, ctl := k, hbx := h, sep := e, out := p } := by
    intro x hx
    obtain ⟨k, h, rfl⟩ := hx
    obtain ⟨e, p, hp⟩ := pf0Source_frame (setBit { s with ctl := k, hbx := h } .ctlEvent 5) 4
    exact ⟨_, _, _, _, _, hp⟩
  exact key _ ⟨_, _, rfl⟩

/-- A DRAM error changes the channel's figures alone (Table 15.5). -/
theorem dramError_frame (s : State) (a k : Nat) : ∃ d, dramError s a k = { s with dimms := d } := by
  unfold dramError
  simp only []
  split
  · exact ⟨_, rfl⟩
  · exact ⟨_, rfl⟩

/-- A configuration write turned away changes an event bit of its block alone (R6). -/
theorem cfgReject_frame (s : State) (r : Reg) : ∃ b, cfgReject s r = { s with bank := b } := by
  unfold cfgReject
  generalize rejectBit r = o
  cases o with
  | none => exact ⟨s.bank, rfl⟩
  | some p => exact ⟨(setBit s p.1 p.2).bank, rfl⟩

/-- An undecoded access changes the decode log alone (R388). -/
theorem undecoded_frame (s : State) (src a : Nat) :
    ∃ v c r d, undecoded s src a = { s with decValid := v, decCount := c, decSrc := r, decAddr := d } := by
  unfold undecoded
  split
  · exact ⟨_, _, _, _, rfl⟩
  · exact ⟨_, _, _, _, rfl⟩

/-- Pacing changes queue pairs alone (R216). -/
theorem paceOn_frame (s : State) (p : Packet) : ∃ q, paceOn s p = { s with rdma := { s.rdma with qps := q } } := by
  unfold paceOn
  split
  · exact ⟨_, rfl⟩
  · split
    · exact ⟨_, rfl⟩
    · exact ⟨_, rfl⟩

/-- A packet at a network output is lost, counted, kept, or sent and counted (R199, R200, R216). -/
theorem netOut_frame (s : State) (e : Nat × Nat × Packet) :
    ∃ b c w q o, netOut s e = { s with bank := b, tel := { s.tel with ctrs := c }, txWait := w, rdma := { s.rdma with qps := q }, out := o } := by
  unfold netOut
  split
  · exact ⟨_, _, _, _, _, rfl⟩
  · split
    · obtain ⟨b, c, h⟩ := countBy_frame s (0x3C0 + e.1) e.2.1
      exact ⟨b, c, s.txWait, s.rdma.qps, s.out, h⟩
    · split
      · exact ⟨_, _, _, _, _, rfl⟩
      · obtain ⟨q, hq⟩ := paceOn_frame s e.2.2
        obtain ⟨b, c, h⟩ := countBy_frame (emit (paceOn s e.2.2) (.roce (roceHdr s e.1 e.2.2) e.2.2)) (0x240 + e.1) e.2.1
        refine ⟨b, c, s.txWait, q, .roce (roceHdr s e.1 e.2.2) e.2.2 :: s.out, ?_⟩
        rw [h, hq]
        rfl

/-- So are the packets that wait. -/
theorem netDrain_frame (s : State) :
    ∃ b c w q o, netDrain s = { s with bank := b, tel := { s.tel with ctrs := c }, txWait := w, rdma := { s.rdma with qps := q }, out := o } := by
  have key : ∀ (l : List (Nat × Nat × Packet)) (x : State),
      ∃ b c w q o, forAll l netOut x = { x with bank := b, tel := { x.tel with ctrs := c }, txWait := w, rdma := { x.rdma with qps := q }, out := o } := by
    intro l
    induction l with
    | nil => intro x; exact ⟨_, _, _, _, _, rfl⟩
    | cons e l ih =>
      intro x
      obtain ⟨b, c, w, q, o, h⟩ := netOut_frame x e
      obtain ⟨b', c', w', q', o', h'⟩ := ih (netOut x e)
      refine ⟨b', c', w', q', o', ?_⟩
      show forAll l netOut (netOut x e) = _
      rw [h', h]
  unfold netDrain
  split
  · exact ⟨_, _, _, _, _, rfl⟩
  · obtain ⟨b, c, w, q, o, h⟩ := key s.txWait { s with txWait := [] }
    exact ⟨b, c, w, q, o, h⟩

/-- A packet that the device sends changes counters, its queue pair's pace, the packets that wait and the emissions alone. -/
theorem netSend_frame (s : State) (lane n : Nat) (p : Packet) :
    ∃ b c w q o, netSend s lane n p = { s with bank := b, tel := { s.tel with ctrs := c }, txWait := w, rdma := { s.rdma with qps := q }, out := o } := by
  obtain ⟨b, c, w, q, o, h⟩ := netDrain_frame s
  obtain ⟨b', c', w', q', o', h'⟩ := netOut_frame (netDrain s) (lane, n, p)
  refine ⟨b', c', w', q', o', ?_⟩
  show netOut (netDrain s) (lane, n, p) = _
  rw [h', h]

/-- On a port that sends at once, a packet that no rate holds is emitted and counted. -/
theorem netSend_now (s : State) (lane n : Nat) (p : Packet) (h : sendsNow s lane = true) (hp : paceHeld s p = false) :
    netSend s lane n p = countBy (emit (paceOn s p) (.roce (roceHdr s lane p) p)) (0x240 + lane) n := by
  simp only [sendsNow, Bool.and_eq_true, Bool.not_eq_true'] at h
  obtain ⟨⟨⟨h1, h2⟩, h3⟩, h4⟩ := h
  have hw : s.txWait = [] := List.isEmpty_iff.mp h4
  simp [netSend, netDrain, netOut, hw, h1, h2, h3, hp]

/-- Only data is held to a rate (R216). -/
theorem paceHeld_control (s : State) (p : Packet) (h : pacedData p = none) : paceHeld s p = false := by
  simp [paceHeld, h]

/-- A packet that is no data leaves the pace as it is. -/
theorem paceOn_control (s : State) (p : Packet) (h : pacedData p = none) : paceOn s p = s := by
  simp [paceOn, h]


@[simp] theorem countBy_decValid (s : State) (n v : Nat) : (countBy s n v).decValid = s.decValid := by obtain ⟨_, _, h⟩ := countBy_frame s n v; rw [h]
@[simp] theorem countBy_decCount (s : State) (n v : Nat) : (countBy s n v).decCount = s.decCount := by obtain ⟨_, _, h⟩ := countBy_frame s n v; rw [h]
@[simp] theorem countBy_decSrc (s : State) (n v : Nat) : (countBy s n v).decSrc = s.decSrc := by obtain ⟨_, _, h⟩ := countBy_frame s n v; rw [h]
@[simp] theorem countBy_decAddr (s : State) (n v : Nat) : (countBy s n v).decAddr = s.decAddr := by obtain ⟨_, _, h⟩ := countBy_frame s n v; rw [h]
@[simp] theorem countBy_mem (s : State) (n v : Nat) : (countBy s n v).mem = s.mem := by obtain ⟨_, _, h⟩ := countBy_frame s n v; rw [h]
@[simp] theorem countBy_net (s : State) (n v : Nat) : (countBy s n v).net = s.net := by obtain ⟨_, _, h⟩ := countBy_frame s n v; rw [h]
@[simp] theorem countBy_rdma (s : State) (n v : Nat) : (countBy s n v).rdma = s.rdma := by obtain ⟨_, _, h⟩ := countBy_frame s n v; rw [h]
@[simp] theorem countBy_hq (s : State) (n v : Nat) : (countBy s n v).hq = s.hq := by obtain ⟨_, _, h⟩ := countBy_frame s n v; rw [h]
@[simp] theorem countBy_pools (s : State) (n v : Nat) : (countBy s n v).pools = s.pools := by obtain ⟨_, _, h⟩ := countBy_frame s n v; rw [h]
@[simp] theorem countBy_volumes (s : State) (n v : Nat) : (countBy s n v).volumes = s.volumes := by obtain ⟨_, _, h⟩ := countBy_frame s n v; rw [h]
@[simp] theorem countBy_drives (s : State) (n v : Nat) : (countBy s n v).drives = s.drives := by obtain ⟨_, _, h⟩ := countBy_frame s n v; rw [h]
@[simp] theorem countBy_hbx (s : State) (n v : Nat) : (countBy s n v).hbx = s.hbx := by obtain ⟨_, _, h⟩ := countBy_frame s n v; rw [h]
@[simp] theorem countBy_fab (s : State) (n v : Nat) : (countBy s n v).fab = s.fab := by obtain ⟨_, _, h⟩ := countBy_frame s n v; rw [h]
@[simp] theorem countBy_par (s : State) (n v : Nat) : (countBy s n v).par = s.par := by obtain ⟨_, _, h⟩ := countBy_frame s n v; rw [h]
@[simp] theorem countBy_mc (s : State) (n v : Nat) : (countBy s n v).mc = s.mc := by obtain ⟨_, _, h⟩ := countBy_frame s n v; rw [h]
@[simp] theorem countBy_mov (s : State) (n v : Nat) : (countBy s n v).mov = s.mov := by obtain ⟨_, _, h⟩ := countBy_frame s n v; rw [h]
@[simp] theorem countBy_ctl (s : State) (n v : Nat) : (countBy s n v).ctl = s.ctl := by obtain ⟨_, _, h⟩ := countBy_frame s n v; rw [h]
@[simp] theorem countBy_stby (s : State) (n v : Nat) : (countBy s n v).stby = s.stby := by obtain ⟨_, _, h⟩ := countBy_frame s n v; rw [h]
@[simp] theorem countBy_rails (s : State) (n v : Nat) : (countBy s n v).rails = s.rails := by obtain ⟨_, _, h⟩ := countBy_frame s n v; rw [h]
@[simp] theorem countBy_dom (s : State) (n v : Nat) : (countBy s n v).dom = s.dom := by obtain ⟨_, _, h⟩ := countBy_frame s n v; rw [h]
@[simp] theorem countBy_boot (s : State) (n v : Nat) : (countBy s n v).boot = s.boot := by obtain ⟨_, _, h⟩ := countBy_frame s n v; rw [h]
@[simp] theorem countBy_clk (s : State) (n v : Nat) : (countBy s n v).clk = s.clk := by obtain ⟨_, _, h⟩ := countBy_frame s n v; rw [h]
@[simp] theorem countBy_sep (s : State) (n v : Nat) : (countBy s n v).sep = s.sep := by obtain ⟨_, _, h⟩ := countBy_frame s n v; rw [h]
@[simp] theorem countBy_dimms (s : State) (n v : Nat) : (countBy s n v).dimms = s.dimms := by obtain ⟨_, _, h⟩ := countBy_frame s n v; rw [h]
@[simp] theorem countBy_chainE (s : State) (n v : Nat) : (countBy s n v).chainE = s.chainE := by obtain ⟨_, _, h⟩ := countBy_frame s n v; rw [h]
@[simp] theorem countBy_chainW (s : State) (n v : Nat) : (countBy s n v).chainW = s.chainW := by obtain ⟨_, _, h⟩ := countBy_frame s n v; rw [h]
@[simp] theorem countBy_txWait (s : State) (n v : Nat) : (countBy s n v).txWait = s.txWait := by obtain ⟨_, _, h⟩ := countBy_frame s n v; rw [h]
@[simp] theorem countBy_out (s : State) (n v : Nat) : (countBy s n v).out = s.out := by obtain ⟨_, _, h⟩ := countBy_frame s n v; rw [h]
@[simp] theorem countBy_fresh (s : State) (n v : Nat) : (countBy s n v).fresh = s.fresh := by obtain ⟨_, _, h⟩ := countBy_frame s n v; rw [h]
@[simp] theorem countBy_pending (s : State) (n v : Nat) : (countBy s n v).pending = s.pending := by obtain ⟨_, _, h⟩ := countBy_frame s n v; rw [h]

@[simp] theorem count_decValid (s : State) (n : Nat) : (count s n).decValid = s.decValid := by obtain ⟨_, _, h⟩ := count_frame s n; rw [h]
@[simp] theorem count_decCount (s : State) (n : Nat) : (count s n).decCount = s.decCount := by obtain ⟨_, _, h⟩ := count_frame s n; rw [h]
@[simp] theorem count_decSrc (s : State) (n : Nat) : (count s n).decSrc = s.decSrc := by obtain ⟨_, _, h⟩ := count_frame s n; rw [h]
@[simp] theorem count_decAddr (s : State) (n : Nat) : (count s n).decAddr = s.decAddr := by obtain ⟨_, _, h⟩ := count_frame s n; rw [h]
@[simp] theorem count_mem (s : State) (n : Nat) : (count s n).mem = s.mem := by obtain ⟨_, _, h⟩ := count_frame s n; rw [h]
@[simp] theorem count_net (s : State) (n : Nat) : (count s n).net = s.net := by obtain ⟨_, _, h⟩ := count_frame s n; rw [h]
@[simp] theorem count_rdma (s : State) (n : Nat) : (count s n).rdma = s.rdma := by obtain ⟨_, _, h⟩ := count_frame s n; rw [h]
@[simp] theorem count_hq (s : State) (n : Nat) : (count s n).hq = s.hq := by obtain ⟨_, _, h⟩ := count_frame s n; rw [h]
@[simp] theorem count_pools (s : State) (n : Nat) : (count s n).pools = s.pools := by obtain ⟨_, _, h⟩ := count_frame s n; rw [h]
@[simp] theorem count_volumes (s : State) (n : Nat) : (count s n).volumes = s.volumes := by obtain ⟨_, _, h⟩ := count_frame s n; rw [h]
@[simp] theorem count_drives (s : State) (n : Nat) : (count s n).drives = s.drives := by obtain ⟨_, _, h⟩ := count_frame s n; rw [h]
@[simp] theorem count_hbx (s : State) (n : Nat) : (count s n).hbx = s.hbx := by obtain ⟨_, _, h⟩ := count_frame s n; rw [h]
@[simp] theorem count_fab (s : State) (n : Nat) : (count s n).fab = s.fab := by obtain ⟨_, _, h⟩ := count_frame s n; rw [h]
@[simp] theorem count_par (s : State) (n : Nat) : (count s n).par = s.par := by obtain ⟨_, _, h⟩ := count_frame s n; rw [h]
@[simp] theorem count_mc (s : State) (n : Nat) : (count s n).mc = s.mc := by obtain ⟨_, _, h⟩ := count_frame s n; rw [h]
@[simp] theorem count_mov (s : State) (n : Nat) : (count s n).mov = s.mov := by obtain ⟨_, _, h⟩ := count_frame s n; rw [h]
@[simp] theorem count_ctl (s : State) (n : Nat) : (count s n).ctl = s.ctl := by obtain ⟨_, _, h⟩ := count_frame s n; rw [h]
@[simp] theorem count_stby (s : State) (n : Nat) : (count s n).stby = s.stby := by obtain ⟨_, _, h⟩ := count_frame s n; rw [h]
@[simp] theorem count_rails (s : State) (n : Nat) : (count s n).rails = s.rails := by obtain ⟨_, _, h⟩ := count_frame s n; rw [h]
@[simp] theorem count_dom (s : State) (n : Nat) : (count s n).dom = s.dom := by obtain ⟨_, _, h⟩ := count_frame s n; rw [h]
@[simp] theorem count_boot (s : State) (n : Nat) : (count s n).boot = s.boot := by obtain ⟨_, _, h⟩ := count_frame s n; rw [h]
@[simp] theorem count_clk (s : State) (n : Nat) : (count s n).clk = s.clk := by obtain ⟨_, _, h⟩ := count_frame s n; rw [h]
@[simp] theorem count_sep (s : State) (n : Nat) : (count s n).sep = s.sep := by obtain ⟨_, _, h⟩ := count_frame s n; rw [h]
@[simp] theorem count_dimms (s : State) (n : Nat) : (count s n).dimms = s.dimms := by obtain ⟨_, _, h⟩ := count_frame s n; rw [h]
@[simp] theorem count_chainE (s : State) (n : Nat) : (count s n).chainE = s.chainE := by obtain ⟨_, _, h⟩ := count_frame s n; rw [h]
@[simp] theorem count_chainW (s : State) (n : Nat) : (count s n).chainW = s.chainW := by obtain ⟨_, _, h⟩ := count_frame s n; rw [h]
@[simp] theorem count_txWait (s : State) (n : Nat) : (count s n).txWait = s.txWait := by obtain ⟨_, _, h⟩ := count_frame s n; rw [h]
@[simp] theorem count_out (s : State) (n : Nat) : (count s n).out = s.out := by obtain ⟨_, _, h⟩ := count_frame s n; rw [h]
@[simp] theorem count_fresh (s : State) (n : Nat) : (count s n).fresh = s.fresh := by obtain ⟨_, _, h⟩ := count_frame s n; rw [h]
@[simp] theorem count_pending (s : State) (n : Nat) : (count s n).pending = s.pending := by obtain ⟨_, _, h⟩ := count_frame s n; rw [h]

@[simp] theorem msixVector_bank (s : State) (pf v : Nat) : (msixVector s pf v).bank = s.bank := by obtain ⟨_, _, h⟩ := msixVector_frame s pf v; rw [h]
@[simp] theorem msixVector_decValid (s : State) (pf v : Nat) : (msixVector s pf v).decValid = s.decValid := by obtain ⟨_, _, h⟩ := msixVector_frame s pf v; rw [h]
@[simp] theorem msixVector_decCount (s : State) (pf v : Nat) : (msixVector s pf v).decCount = s.decCount := by obtain ⟨_, _, h⟩ := msixVector_frame s pf v; rw [h]
@[simp] theorem msixVector_decSrc (s : State) (pf v : Nat) : (msixVector s pf v).decSrc = s.decSrc := by obtain ⟨_, _, h⟩ := msixVector_frame s pf v; rw [h]
@[simp] theorem msixVector_decAddr (s : State) (pf v : Nat) : (msixVector s pf v).decAddr = s.decAddr := by obtain ⟨_, _, h⟩ := msixVector_frame s pf v; rw [h]
@[simp] theorem msixVector_mem (s : State) (pf v : Nat) : (msixVector s pf v).mem = s.mem := by obtain ⟨_, _, h⟩ := msixVector_frame s pf v; rw [h]
@[simp] theorem msixVector_net (s : State) (pf v : Nat) : (msixVector s pf v).net = s.net := by obtain ⟨_, _, h⟩ := msixVector_frame s pf v; rw [h]
@[simp] theorem msixVector_rdma (s : State) (pf v : Nat) : (msixVector s pf v).rdma = s.rdma := by obtain ⟨_, _, h⟩ := msixVector_frame s pf v; rw [h]
@[simp] theorem msixVector_hq (s : State) (pf v : Nat) : (msixVector s pf v).hq = s.hq := by obtain ⟨_, _, h⟩ := msixVector_frame s pf v; rw [h]
@[simp] theorem msixVector_pools (s : State) (pf v : Nat) : (msixVector s pf v).pools = s.pools := by obtain ⟨_, _, h⟩ := msixVector_frame s pf v; rw [h]
@[simp] theorem msixVector_volumes (s : State) (pf v : Nat) : (msixVector s pf v).volumes = s.volumes := by obtain ⟨_, _, h⟩ := msixVector_frame s pf v; rw [h]
@[simp] theorem msixVector_drives (s : State) (pf v : Nat) : (msixVector s pf v).drives = s.drives := by obtain ⟨_, _, h⟩ := msixVector_frame s pf v; rw [h]
@[simp] theorem msixVector_hbx (s : State) (pf v : Nat) : (msixVector s pf v).hbx = s.hbx := by obtain ⟨_, _, h⟩ := msixVector_frame s pf v; rw [h]
@[simp] theorem msixVector_fab (s : State) (pf v : Nat) : (msixVector s pf v).fab = s.fab := by obtain ⟨_, _, h⟩ := msixVector_frame s pf v; rw [h]
@[simp] theorem msixVector_par (s : State) (pf v : Nat) : (msixVector s pf v).par = s.par := by obtain ⟨_, _, h⟩ := msixVector_frame s pf v; rw [h]
@[simp] theorem msixVector_mc (s : State) (pf v : Nat) : (msixVector s pf v).mc = s.mc := by obtain ⟨_, _, h⟩ := msixVector_frame s pf v; rw [h]
@[simp] theorem msixVector_mov (s : State) (pf v : Nat) : (msixVector s pf v).mov = s.mov := by obtain ⟨_, _, h⟩ := msixVector_frame s pf v; rw [h]
@[simp] theorem msixVector_ctl (s : State) (pf v : Nat) : (msixVector s pf v).ctl = s.ctl := by obtain ⟨_, _, h⟩ := msixVector_frame s pf v; rw [h]
@[simp] theorem msixVector_stby (s : State) (pf v : Nat) : (msixVector s pf v).stby = s.stby := by obtain ⟨_, _, h⟩ := msixVector_frame s pf v; rw [h]
@[simp] theorem msixVector_rails (s : State) (pf v : Nat) : (msixVector s pf v).rails = s.rails := by obtain ⟨_, _, h⟩ := msixVector_frame s pf v; rw [h]
@[simp] theorem msixVector_dom (s : State) (pf v : Nat) : (msixVector s pf v).dom = s.dom := by obtain ⟨_, _, h⟩ := msixVector_frame s pf v; rw [h]
@[simp] theorem msixVector_boot (s : State) (pf v : Nat) : (msixVector s pf v).boot = s.boot := by obtain ⟨_, _, h⟩ := msixVector_frame s pf v; rw [h]
@[simp] theorem msixVector_clk (s : State) (pf v : Nat) : (msixVector s pf v).clk = s.clk := by obtain ⟨_, _, h⟩ := msixVector_frame s pf v; rw [h]
@[simp] theorem msixVector_tel (s : State) (pf v : Nat) : (msixVector s pf v).tel = s.tel := by obtain ⟨_, _, h⟩ := msixVector_frame s pf v; rw [h]
@[simp] theorem msixVector_dimms (s : State) (pf v : Nat) : (msixVector s pf v).dimms = s.dimms := by obtain ⟨_, _, h⟩ := msixVector_frame s pf v; rw [h]
@[simp] theorem msixVector_chainE (s : State) (pf v : Nat) : (msixVector s pf v).chainE = s.chainE := by obtain ⟨_, _, h⟩ := msixVector_frame s pf v; rw [h]
@[simp] theorem msixVector_chainW (s : State) (pf v : Nat) : (msixVector s pf v).chainW = s.chainW := by obtain ⟨_, _, h⟩ := msixVector_frame s pf v; rw [h]
@[simp] theorem msixVector_txWait (s : State) (pf v : Nat) : (msixVector s pf v).txWait = s.txWait := by obtain ⟨_, _, h⟩ := msixVector_frame s pf v; rw [h]
@[simp] theorem msixVector_fresh (s : State) (pf v : Nat) : (msixVector s pf v).fresh = s.fresh := by obtain ⟨_, _, h⟩ := msixVector_frame s pf v; rw [h]
@[simp] theorem msixVector_pending (s : State) (pf v : Nat) : (msixVector s pf v).pending = s.pending := by obtain ⟨_, _, h⟩ := msixVector_frame s pf v; rw [h]

@[simp] theorem msiSend_bank (s : State) : (msiSend s).bank = s.bank := by obtain ⟨_, _, h⟩ := msiSend_frame s; rw [h]
@[simp] theorem msiSend_decValid (s : State) : (msiSend s).decValid = s.decValid := by obtain ⟨_, _, h⟩ := msiSend_frame s; rw [h]
@[simp] theorem msiSend_decCount (s : State) : (msiSend s).decCount = s.decCount := by obtain ⟨_, _, h⟩ := msiSend_frame s; rw [h]
@[simp] theorem msiSend_decSrc (s : State) : (msiSend s).decSrc = s.decSrc := by obtain ⟨_, _, h⟩ := msiSend_frame s; rw [h]
@[simp] theorem msiSend_decAddr (s : State) : (msiSend s).decAddr = s.decAddr := by obtain ⟨_, _, h⟩ := msiSend_frame s; rw [h]
@[simp] theorem msiSend_mem (s : State) : (msiSend s).mem = s.mem := by obtain ⟨_, _, h⟩ := msiSend_frame s; rw [h]
@[simp] theorem msiSend_net (s : State) : (msiSend s).net = s.net := by obtain ⟨_, _, h⟩ := msiSend_frame s; rw [h]
@[simp] theorem msiSend_rdma (s : State) : (msiSend s).rdma = s.rdma := by obtain ⟨_, _, h⟩ := msiSend_frame s; rw [h]
@[simp] theorem msiSend_hq (s : State) : (msiSend s).hq = s.hq := by obtain ⟨_, _, h⟩ := msiSend_frame s; rw [h]
@[simp] theorem msiSend_pools (s : State) : (msiSend s).pools = s.pools := by obtain ⟨_, _, h⟩ := msiSend_frame s; rw [h]
@[simp] theorem msiSend_volumes (s : State) : (msiSend s).volumes = s.volumes := by obtain ⟨_, _, h⟩ := msiSend_frame s; rw [h]
@[simp] theorem msiSend_drives (s : State) : (msiSend s).drives = s.drives := by obtain ⟨_, _, h⟩ := msiSend_frame s; rw [h]
@[simp] theorem msiSend_hbx (s : State) : (msiSend s).hbx = s.hbx := by obtain ⟨_, _, h⟩ := msiSend_frame s; rw [h]
@[simp] theorem msiSend_fab (s : State) : (msiSend s).fab = s.fab := by obtain ⟨_, _, h⟩ := msiSend_frame s; rw [h]
@[simp] theorem msiSend_par (s : State) : (msiSend s).par = s.par := by obtain ⟨_, _, h⟩ := msiSend_frame s; rw [h]
@[simp] theorem msiSend_mc (s : State) : (msiSend s).mc = s.mc := by obtain ⟨_, _, h⟩ := msiSend_frame s; rw [h]
@[simp] theorem msiSend_mov (s : State) : (msiSend s).mov = s.mov := by obtain ⟨_, _, h⟩ := msiSend_frame s; rw [h]
@[simp] theorem msiSend_ctl (s : State) : (msiSend s).ctl = s.ctl := by obtain ⟨_, _, h⟩ := msiSend_frame s; rw [h]
@[simp] theorem msiSend_stby (s : State) : (msiSend s).stby = s.stby := by obtain ⟨_, _, h⟩ := msiSend_frame s; rw [h]
@[simp] theorem msiSend_rails (s : State) : (msiSend s).rails = s.rails := by obtain ⟨_, _, h⟩ := msiSend_frame s; rw [h]
@[simp] theorem msiSend_dom (s : State) : (msiSend s).dom = s.dom := by obtain ⟨_, _, h⟩ := msiSend_frame s; rw [h]
@[simp] theorem msiSend_boot (s : State) : (msiSend s).boot = s.boot := by obtain ⟨_, _, h⟩ := msiSend_frame s; rw [h]
@[simp] theorem msiSend_clk (s : State) : (msiSend s).clk = s.clk := by obtain ⟨_, _, h⟩ := msiSend_frame s; rw [h]
@[simp] theorem msiSend_tel (s : State) : (msiSend s).tel = s.tel := by obtain ⟨_, _, h⟩ := msiSend_frame s; rw [h]
@[simp] theorem msiSend_dimms (s : State) : (msiSend s).dimms = s.dimms := by obtain ⟨_, _, h⟩ := msiSend_frame s; rw [h]
@[simp] theorem msiSend_chainE (s : State) : (msiSend s).chainE = s.chainE := by obtain ⟨_, _, h⟩ := msiSend_frame s; rw [h]
@[simp] theorem msiSend_chainW (s : State) : (msiSend s).chainW = s.chainW := by obtain ⟨_, _, h⟩ := msiSend_frame s; rw [h]
@[simp] theorem msiSend_txWait (s : State) : (msiSend s).txWait = s.txWait := by obtain ⟨_, _, h⟩ := msiSend_frame s; rw [h]
@[simp] theorem msiSend_fresh (s : State) : (msiSend s).fresh = s.fresh := by obtain ⟨_, _, h⟩ := msiSend_frame s; rw [h]
@[simp] theorem msiSend_pending (s : State) : (msiSend s).pending = s.pending := by obtain ⟨_, _, h⟩ := msiSend_frame s; rw [h]

@[simp] theorem pf0Source_bank (s : State) (v : Nat) : (pf0Source s v).bank = s.bank := by obtain ⟨_, _, h⟩ := pf0Source_frame s v; rw [h]
@[simp] theorem pf0Source_decValid (s : State) (v : Nat) : (pf0Source s v).decValid = s.decValid := by obtain ⟨_, _, h⟩ := pf0Source_frame s v; rw [h]
@[simp] theorem pf0Source_decCount (s : State) (v : Nat) : (pf0Source s v).decCount = s.decCount := by obtain ⟨_, _, h⟩ := pf0Source_frame s v; rw [h]
@[simp] theorem pf0Source_decSrc (s : State) (v : Nat) : (pf0Source s v).decSrc = s.decSrc := by obtain ⟨_, _, h⟩ := pf0Source_frame s v; rw [h]
@[simp] theorem pf0Source_decAddr (s : State) (v : Nat) : (pf0Source s v).decAddr = s.decAddr := by obtain ⟨_, _, h⟩ := pf0Source_frame s v; rw [h]
@[simp] theorem pf0Source_mem (s : State) (v : Nat) : (pf0Source s v).mem = s.mem := by obtain ⟨_, _, h⟩ := pf0Source_frame s v; rw [h]
@[simp] theorem pf0Source_net (s : State) (v : Nat) : (pf0Source s v).net = s.net := by obtain ⟨_, _, h⟩ := pf0Source_frame s v; rw [h]
@[simp] theorem pf0Source_rdma (s : State) (v : Nat) : (pf0Source s v).rdma = s.rdma := by obtain ⟨_, _, h⟩ := pf0Source_frame s v; rw [h]
@[simp] theorem pf0Source_hq (s : State) (v : Nat) : (pf0Source s v).hq = s.hq := by obtain ⟨_, _, h⟩ := pf0Source_frame s v; rw [h]
@[simp] theorem pf0Source_pools (s : State) (v : Nat) : (pf0Source s v).pools = s.pools := by obtain ⟨_, _, h⟩ := pf0Source_frame s v; rw [h]
@[simp] theorem pf0Source_volumes (s : State) (v : Nat) : (pf0Source s v).volumes = s.volumes := by obtain ⟨_, _, h⟩ := pf0Source_frame s v; rw [h]
@[simp] theorem pf0Source_drives (s : State) (v : Nat) : (pf0Source s v).drives = s.drives := by obtain ⟨_, _, h⟩ := pf0Source_frame s v; rw [h]
@[simp] theorem pf0Source_hbx (s : State) (v : Nat) : (pf0Source s v).hbx = s.hbx := by obtain ⟨_, _, h⟩ := pf0Source_frame s v; rw [h]
@[simp] theorem pf0Source_fab (s : State) (v : Nat) : (pf0Source s v).fab = s.fab := by obtain ⟨_, _, h⟩ := pf0Source_frame s v; rw [h]
@[simp] theorem pf0Source_par (s : State) (v : Nat) : (pf0Source s v).par = s.par := by obtain ⟨_, _, h⟩ := pf0Source_frame s v; rw [h]
@[simp] theorem pf0Source_mc (s : State) (v : Nat) : (pf0Source s v).mc = s.mc := by obtain ⟨_, _, h⟩ := pf0Source_frame s v; rw [h]
@[simp] theorem pf0Source_mov (s : State) (v : Nat) : (pf0Source s v).mov = s.mov := by obtain ⟨_, _, h⟩ := pf0Source_frame s v; rw [h]
@[simp] theorem pf0Source_ctl (s : State) (v : Nat) : (pf0Source s v).ctl = s.ctl := by obtain ⟨_, _, h⟩ := pf0Source_frame s v; rw [h]
@[simp] theorem pf0Source_stby (s : State) (v : Nat) : (pf0Source s v).stby = s.stby := by obtain ⟨_, _, h⟩ := pf0Source_frame s v; rw [h]
@[simp] theorem pf0Source_rails (s : State) (v : Nat) : (pf0Source s v).rails = s.rails := by obtain ⟨_, _, h⟩ := pf0Source_frame s v; rw [h]
@[simp] theorem pf0Source_dom (s : State) (v : Nat) : (pf0Source s v).dom = s.dom := by obtain ⟨_, _, h⟩ := pf0Source_frame s v; rw [h]
@[simp] theorem pf0Source_boot (s : State) (v : Nat) : (pf0Source s v).boot = s.boot := by obtain ⟨_, _, h⟩ := pf0Source_frame s v; rw [h]
@[simp] theorem pf0Source_clk (s : State) (v : Nat) : (pf0Source s v).clk = s.clk := by obtain ⟨_, _, h⟩ := pf0Source_frame s v; rw [h]
@[simp] theorem pf0Source_tel (s : State) (v : Nat) : (pf0Source s v).tel = s.tel := by obtain ⟨_, _, h⟩ := pf0Source_frame s v; rw [h]
@[simp] theorem pf0Source_dimms (s : State) (v : Nat) : (pf0Source s v).dimms = s.dimms := by obtain ⟨_, _, h⟩ := pf0Source_frame s v; rw [h]
@[simp] theorem pf0Source_chainE (s : State) (v : Nat) : (pf0Source s v).chainE = s.chainE := by obtain ⟨_, _, h⟩ := pf0Source_frame s v; rw [h]
@[simp] theorem pf0Source_chainW (s : State) (v : Nat) : (pf0Source s v).chainW = s.chainW := by obtain ⟨_, _, h⟩ := pf0Source_frame s v; rw [h]
@[simp] theorem pf0Source_txWait (s : State) (v : Nat) : (pf0Source s v).txWait = s.txWait := by obtain ⟨_, _, h⟩ := pf0Source_frame s v; rw [h]
@[simp] theorem pf0Source_fresh (s : State) (v : Nat) : (pf0Source s v).fresh = s.fresh := by obtain ⟨_, _, h⟩ := pf0Source_frame s v; rw [h]
@[simp] theorem pf0Source_pending (s : State) (v : Nat) : (pf0Source s v).pending = s.pending := by obtain ⟨_, _, h⟩ := pf0Source_frame s v; rw [h]

@[simp] theorem mgmt_decValid (s : State) (c o d : Nat) : (mgmt s c o d).decValid = s.decValid := by obtain ⟨_, _, _, _, _, h⟩ := mgmt_frame s c o d; rw [h]
@[simp] theorem mgmt_decCount (s : State) (c o d : Nat) : (mgmt s c o d).decCount = s.decCount := by obtain ⟨_, _, _, _, _, h⟩ := mgmt_frame s c o d; rw [h]
@[simp] theorem mgmt_decSrc (s : State) (c o d : Nat) : (mgmt s c o d).decSrc = s.decSrc := by obtain ⟨_, _, _, _, _, h⟩ := mgmt_frame s c o d; rw [h]
@[simp] theorem mgmt_decAddr (s : State) (c o d : Nat) : (mgmt s c o d).decAddr = s.decAddr := by obtain ⟨_, _, _, _, _, h⟩ := mgmt_frame s c o d; rw [h]
@[simp] theorem mgmt_mem (s : State) (c o d : Nat) : (mgmt s c o d).mem = s.mem := by obtain ⟨_, _, _, _, _, h⟩ := mgmt_frame s c o d; rw [h]
@[simp] theorem mgmt_net (s : State) (c o d : Nat) : (mgmt s c o d).net = s.net := by obtain ⟨_, _, _, _, _, h⟩ := mgmt_frame s c o d; rw [h]
@[simp] theorem mgmt_rdma (s : State) (c o d : Nat) : (mgmt s c o d).rdma = s.rdma := by obtain ⟨_, _, _, _, _, h⟩ := mgmt_frame s c o d; rw [h]
@[simp] theorem mgmt_hq (s : State) (c o d : Nat) : (mgmt s c o d).hq = s.hq := by obtain ⟨_, _, _, _, _, h⟩ := mgmt_frame s c o d; rw [h]
@[simp] theorem mgmt_pools (s : State) (c o d : Nat) : (mgmt s c o d).pools = s.pools := by obtain ⟨_, _, _, _, _, h⟩ := mgmt_frame s c o d; rw [h]
@[simp] theorem mgmt_volumes (s : State) (c o d : Nat) : (mgmt s c o d).volumes = s.volumes := by obtain ⟨_, _, _, _, _, h⟩ := mgmt_frame s c o d; rw [h]
@[simp] theorem mgmt_drives (s : State) (c o d : Nat) : (mgmt s c o d).drives = s.drives := by obtain ⟨_, _, _, _, _, h⟩ := mgmt_frame s c o d; rw [h]
@[simp] theorem mgmt_fab (s : State) (c o d : Nat) : (mgmt s c o d).fab = s.fab := by obtain ⟨_, _, _, _, _, h⟩ := mgmt_frame s c o d; rw [h]
@[simp] theorem mgmt_par (s : State) (c o d : Nat) : (mgmt s c o d).par = s.par := by obtain ⟨_, _, _, _, _, h⟩ := mgmt_frame s c o d; rw [h]
@[simp] theorem mgmt_mc (s : State) (c o d : Nat) : (mgmt s c o d).mc = s.mc := by obtain ⟨_, _, _, _, _, h⟩ := mgmt_frame s c o d; rw [h]
@[simp] theorem mgmt_mov (s : State) (c o d : Nat) : (mgmt s c o d).mov = s.mov := by obtain ⟨_, _, _, _, _, h⟩ := mgmt_frame s c o d; rw [h]
@[simp] theorem mgmt_stby (s : State) (c o d : Nat) : (mgmt s c o d).stby = s.stby := by obtain ⟨_, _, _, _, _, h⟩ := mgmt_frame s c o d; rw [h]
@[simp] theorem mgmt_rails (s : State) (c o d : Nat) : (mgmt s c o d).rails = s.rails := by obtain ⟨_, _, _, _, _, h⟩ := mgmt_frame s c o d; rw [h]
@[simp] theorem mgmt_dom (s : State) (c o d : Nat) : (mgmt s c o d).dom = s.dom := by obtain ⟨_, _, _, _, _, h⟩ := mgmt_frame s c o d; rw [h]
@[simp] theorem mgmt_boot (s : State) (c o d : Nat) : (mgmt s c o d).boot = s.boot := by obtain ⟨_, _, _, _, _, h⟩ := mgmt_frame s c o d; rw [h]
@[simp] theorem mgmt_clk (s : State) (c o d : Nat) : (mgmt s c o d).clk = s.clk := by obtain ⟨_, _, _, _, _, h⟩ := mgmt_frame s c o d; rw [h]
@[simp] theorem mgmt_tel (s : State) (c o d : Nat) : (mgmt s c o d).tel = s.tel := by obtain ⟨_, _, _, _, _, h⟩ := mgmt_frame s c o d; rw [h]
@[simp] theorem mgmt_dimms (s : State) (c o d : Nat) : (mgmt s c o d).dimms = s.dimms := by obtain ⟨_, _, _, _, _, h⟩ := mgmt_frame s c o d; rw [h]
@[simp] theorem mgmt_chainE (s : State) (c o d : Nat) : (mgmt s c o d).chainE = s.chainE := by obtain ⟨_, _, _, _, _, h⟩ := mgmt_frame s c o d; rw [h]
@[simp] theorem mgmt_chainW (s : State) (c o d : Nat) : (mgmt s c o d).chainW = s.chainW := by obtain ⟨_, _, _, _, _, h⟩ := mgmt_frame s c o d; rw [h]
@[simp] theorem mgmt_txWait (s : State) (c o d : Nat) : (mgmt s c o d).txWait = s.txWait := by obtain ⟨_, _, _, _, _, h⟩ := mgmt_frame s c o d; rw [h]
@[simp] theorem mgmt_fresh (s : State) (c o d : Nat) : (mgmt s c o d).fresh = s.fresh := by obtain ⟨_, _, _, _, _, h⟩ := mgmt_frame s c o d; rw [h]
@[simp] theorem mgmt_pending (s : State) (c o d : Nat) : (mgmt s c o d).pending = s.pending := by obtain ⟨_, _, _, _, _, h⟩ := mgmt_frame s c o d; rw [h]

@[simp] theorem dramError_bank (s : State) (a k : Nat) : (dramError s a k).bank = s.bank := by obtain ⟨_, h⟩ := dramError_frame s a k; rw [h]
@[simp] theorem dramError_decValid (s : State) (a k : Nat) : (dramError s a k).decValid = s.decValid := by obtain ⟨_, h⟩ := dramError_frame s a k; rw [h]
@[simp] theorem dramError_decCount (s : State) (a k : Nat) : (dramError s a k).decCount = s.decCount := by obtain ⟨_, h⟩ := dramError_frame s a k; rw [h]
@[simp] theorem dramError_decSrc (s : State) (a k : Nat) : (dramError s a k).decSrc = s.decSrc := by obtain ⟨_, h⟩ := dramError_frame s a k; rw [h]
@[simp] theorem dramError_decAddr (s : State) (a k : Nat) : (dramError s a k).decAddr = s.decAddr := by obtain ⟨_, h⟩ := dramError_frame s a k; rw [h]
@[simp] theorem dramError_mem (s : State) (a k : Nat) : (dramError s a k).mem = s.mem := by obtain ⟨_, h⟩ := dramError_frame s a k; rw [h]
@[simp] theorem dramError_net (s : State) (a k : Nat) : (dramError s a k).net = s.net := by obtain ⟨_, h⟩ := dramError_frame s a k; rw [h]
@[simp] theorem dramError_rdma (s : State) (a k : Nat) : (dramError s a k).rdma = s.rdma := by obtain ⟨_, h⟩ := dramError_frame s a k; rw [h]
@[simp] theorem dramError_hq (s : State) (a k : Nat) : (dramError s a k).hq = s.hq := by obtain ⟨_, h⟩ := dramError_frame s a k; rw [h]
@[simp] theorem dramError_pools (s : State) (a k : Nat) : (dramError s a k).pools = s.pools := by obtain ⟨_, h⟩ := dramError_frame s a k; rw [h]
@[simp] theorem dramError_volumes (s : State) (a k : Nat) : (dramError s a k).volumes = s.volumes := by obtain ⟨_, h⟩ := dramError_frame s a k; rw [h]
@[simp] theorem dramError_drives (s : State) (a k : Nat) : (dramError s a k).drives = s.drives := by obtain ⟨_, h⟩ := dramError_frame s a k; rw [h]
@[simp] theorem dramError_hbx (s : State) (a k : Nat) : (dramError s a k).hbx = s.hbx := by obtain ⟨_, h⟩ := dramError_frame s a k; rw [h]
@[simp] theorem dramError_fab (s : State) (a k : Nat) : (dramError s a k).fab = s.fab := by obtain ⟨_, h⟩ := dramError_frame s a k; rw [h]
@[simp] theorem dramError_par (s : State) (a k : Nat) : (dramError s a k).par = s.par := by obtain ⟨_, h⟩ := dramError_frame s a k; rw [h]
@[simp] theorem dramError_mc (s : State) (a k : Nat) : (dramError s a k).mc = s.mc := by obtain ⟨_, h⟩ := dramError_frame s a k; rw [h]
@[simp] theorem dramError_mov (s : State) (a k : Nat) : (dramError s a k).mov = s.mov := by obtain ⟨_, h⟩ := dramError_frame s a k; rw [h]
@[simp] theorem dramError_ctl (s : State) (a k : Nat) : (dramError s a k).ctl = s.ctl := by obtain ⟨_, h⟩ := dramError_frame s a k; rw [h]
@[simp] theorem dramError_stby (s : State) (a k : Nat) : (dramError s a k).stby = s.stby := by obtain ⟨_, h⟩ := dramError_frame s a k; rw [h]
@[simp] theorem dramError_rails (s : State) (a k : Nat) : (dramError s a k).rails = s.rails := by obtain ⟨_, h⟩ := dramError_frame s a k; rw [h]
@[simp] theorem dramError_dom (s : State) (a k : Nat) : (dramError s a k).dom = s.dom := by obtain ⟨_, h⟩ := dramError_frame s a k; rw [h]
@[simp] theorem dramError_boot (s : State) (a k : Nat) : (dramError s a k).boot = s.boot := by obtain ⟨_, h⟩ := dramError_frame s a k; rw [h]
@[simp] theorem dramError_clk (s : State) (a k : Nat) : (dramError s a k).clk = s.clk := by obtain ⟨_, h⟩ := dramError_frame s a k; rw [h]
@[simp] theorem dramError_sep (s : State) (a k : Nat) : (dramError s a k).sep = s.sep := by obtain ⟨_, h⟩ := dramError_frame s a k; rw [h]
@[simp] theorem dramError_tel (s : State) (a k : Nat) : (dramError s a k).tel = s.tel := by obtain ⟨_, h⟩ := dramError_frame s a k; rw [h]
@[simp] theorem dramError_chainE (s : State) (a k : Nat) : (dramError s a k).chainE = s.chainE := by obtain ⟨_, h⟩ := dramError_frame s a k; rw [h]
@[simp] theorem dramError_chainW (s : State) (a k : Nat) : (dramError s a k).chainW = s.chainW := by obtain ⟨_, h⟩ := dramError_frame s a k; rw [h]
@[simp] theorem dramError_txWait (s : State) (a k : Nat) : (dramError s a k).txWait = s.txWait := by obtain ⟨_, h⟩ := dramError_frame s a k; rw [h]
@[simp] theorem dramError_out (s : State) (a k : Nat) : (dramError s a k).out = s.out := by obtain ⟨_, h⟩ := dramError_frame s a k; rw [h]
@[simp] theorem dramError_fresh (s : State) (a k : Nat) : (dramError s a k).fresh = s.fresh := by obtain ⟨_, h⟩ := dramError_frame s a k; rw [h]
@[simp] theorem dramError_pending (s : State) (a k : Nat) : (dramError s a k).pending = s.pending := by obtain ⟨_, h⟩ := dramError_frame s a k; rw [h]

@[simp] theorem cfgReject_decValid (s : State) (r : Reg) : (cfgReject s r).decValid = s.decValid := by obtain ⟨_, h⟩ := cfgReject_frame s r; rw [h]
@[simp] theorem cfgReject_decCount (s : State) (r : Reg) : (cfgReject s r).decCount = s.decCount := by obtain ⟨_, h⟩ := cfgReject_frame s r; rw [h]
@[simp] theorem cfgReject_decSrc (s : State) (r : Reg) : (cfgReject s r).decSrc = s.decSrc := by obtain ⟨_, h⟩ := cfgReject_frame s r; rw [h]
@[simp] theorem cfgReject_decAddr (s : State) (r : Reg) : (cfgReject s r).decAddr = s.decAddr := by obtain ⟨_, h⟩ := cfgReject_frame s r; rw [h]
@[simp] theorem cfgReject_mem (s : State) (r : Reg) : (cfgReject s r).mem = s.mem := by obtain ⟨_, h⟩ := cfgReject_frame s r; rw [h]
@[simp] theorem cfgReject_net (s : State) (r : Reg) : (cfgReject s r).net = s.net := by obtain ⟨_, h⟩ := cfgReject_frame s r; rw [h]
@[simp] theorem cfgReject_rdma (s : State) (r : Reg) : (cfgReject s r).rdma = s.rdma := by obtain ⟨_, h⟩ := cfgReject_frame s r; rw [h]
@[simp] theorem cfgReject_hq (s : State) (r : Reg) : (cfgReject s r).hq = s.hq := by obtain ⟨_, h⟩ := cfgReject_frame s r; rw [h]
@[simp] theorem cfgReject_pools (s : State) (r : Reg) : (cfgReject s r).pools = s.pools := by obtain ⟨_, h⟩ := cfgReject_frame s r; rw [h]
@[simp] theorem cfgReject_volumes (s : State) (r : Reg) : (cfgReject s r).volumes = s.volumes := by obtain ⟨_, h⟩ := cfgReject_frame s r; rw [h]
@[simp] theorem cfgReject_drives (s : State) (r : Reg) : (cfgReject s r).drives = s.drives := by obtain ⟨_, h⟩ := cfgReject_frame s r; rw [h]
@[simp] theorem cfgReject_hbx (s : State) (r : Reg) : (cfgReject s r).hbx = s.hbx := by obtain ⟨_, h⟩ := cfgReject_frame s r; rw [h]
@[simp] theorem cfgReject_fab (s : State) (r : Reg) : (cfgReject s r).fab = s.fab := by obtain ⟨_, h⟩ := cfgReject_frame s r; rw [h]
@[simp] theorem cfgReject_par (s : State) (r : Reg) : (cfgReject s r).par = s.par := by obtain ⟨_, h⟩ := cfgReject_frame s r; rw [h]
@[simp] theorem cfgReject_mc (s : State) (r : Reg) : (cfgReject s r).mc = s.mc := by obtain ⟨_, h⟩ := cfgReject_frame s r; rw [h]
@[simp] theorem cfgReject_mov (s : State) (r : Reg) : (cfgReject s r).mov = s.mov := by obtain ⟨_, h⟩ := cfgReject_frame s r; rw [h]
@[simp] theorem cfgReject_ctl (s : State) (r : Reg) : (cfgReject s r).ctl = s.ctl := by obtain ⟨_, h⟩ := cfgReject_frame s r; rw [h]
@[simp] theorem cfgReject_stby (s : State) (r : Reg) : (cfgReject s r).stby = s.stby := by obtain ⟨_, h⟩ := cfgReject_frame s r; rw [h]
@[simp] theorem cfgReject_rails (s : State) (r : Reg) : (cfgReject s r).rails = s.rails := by obtain ⟨_, h⟩ := cfgReject_frame s r; rw [h]
@[simp] theorem cfgReject_dom (s : State) (r : Reg) : (cfgReject s r).dom = s.dom := by obtain ⟨_, h⟩ := cfgReject_frame s r; rw [h]
@[simp] theorem cfgReject_boot (s : State) (r : Reg) : (cfgReject s r).boot = s.boot := by obtain ⟨_, h⟩ := cfgReject_frame s r; rw [h]
@[simp] theorem cfgReject_clk (s : State) (r : Reg) : (cfgReject s r).clk = s.clk := by obtain ⟨_, h⟩ := cfgReject_frame s r; rw [h]
@[simp] theorem cfgReject_sep (s : State) (r : Reg) : (cfgReject s r).sep = s.sep := by obtain ⟨_, h⟩ := cfgReject_frame s r; rw [h]
@[simp] theorem cfgReject_tel (s : State) (r : Reg) : (cfgReject s r).tel = s.tel := by obtain ⟨_, h⟩ := cfgReject_frame s r; rw [h]
@[simp] theorem cfgReject_dimms (s : State) (r : Reg) : (cfgReject s r).dimms = s.dimms := by obtain ⟨_, h⟩ := cfgReject_frame s r; rw [h]
@[simp] theorem cfgReject_chainE (s : State) (r : Reg) : (cfgReject s r).chainE = s.chainE := by obtain ⟨_, h⟩ := cfgReject_frame s r; rw [h]
@[simp] theorem cfgReject_chainW (s : State) (r : Reg) : (cfgReject s r).chainW = s.chainW := by obtain ⟨_, h⟩ := cfgReject_frame s r; rw [h]
@[simp] theorem cfgReject_txWait (s : State) (r : Reg) : (cfgReject s r).txWait = s.txWait := by obtain ⟨_, h⟩ := cfgReject_frame s r; rw [h]
@[simp] theorem cfgReject_out (s : State) (r : Reg) : (cfgReject s r).out = s.out := by obtain ⟨_, h⟩ := cfgReject_frame s r; rw [h]
@[simp] theorem cfgReject_fresh (s : State) (r : Reg) : (cfgReject s r).fresh = s.fresh := by obtain ⟨_, h⟩ := cfgReject_frame s r; rw [h]
@[simp] theorem cfgReject_pending (s : State) (r : Reg) : (cfgReject s r).pending = s.pending := by obtain ⟨_, h⟩ := cfgReject_frame s r; rw [h]

@[simp] theorem netSend_decValid (s : State) (lane n : Nat) (p : Packet) : (netSend s lane n p).decValid = s.decValid := by obtain ⟨_, _, _, _, _, h⟩ := netSend_frame s lane n p; rw [h]
@[simp] theorem netSend_decCount (s : State) (lane n : Nat) (p : Packet) : (netSend s lane n p).decCount = s.decCount := by obtain ⟨_, _, _, _, _, h⟩ := netSend_frame s lane n p; rw [h]
@[simp] theorem netSend_decSrc (s : State) (lane n : Nat) (p : Packet) : (netSend s lane n p).decSrc = s.decSrc := by obtain ⟨_, _, _, _, _, h⟩ := netSend_frame s lane n p; rw [h]
@[simp] theorem netSend_decAddr (s : State) (lane n : Nat) (p : Packet) : (netSend s lane n p).decAddr = s.decAddr := by obtain ⟨_, _, _, _, _, h⟩ := netSend_frame s lane n p; rw [h]
@[simp] theorem netSend_mem (s : State) (lane n : Nat) (p : Packet) : (netSend s lane n p).mem = s.mem := by obtain ⟨_, _, _, _, _, h⟩ := netSend_frame s lane n p; rw [h]
@[simp] theorem netSend_net (s : State) (lane n : Nat) (p : Packet) : (netSend s lane n p).net = s.net := by obtain ⟨_, _, _, _, _, h⟩ := netSend_frame s lane n p; rw [h]
@[simp] theorem netSend_hq (s : State) (lane n : Nat) (p : Packet) : (netSend s lane n p).hq = s.hq := by obtain ⟨_, _, _, _, _, h⟩ := netSend_frame s lane n p; rw [h]
@[simp] theorem netSend_pools (s : State) (lane n : Nat) (p : Packet) : (netSend s lane n p).pools = s.pools := by obtain ⟨_, _, _, _, _, h⟩ := netSend_frame s lane n p; rw [h]
@[simp] theorem netSend_volumes (s : State) (lane n : Nat) (p : Packet) : (netSend s lane n p).volumes = s.volumes := by obtain ⟨_, _, _, _, _, h⟩ := netSend_frame s lane n p; rw [h]
@[simp] theorem netSend_drives (s : State) (lane n : Nat) (p : Packet) : (netSend s lane n p).drives = s.drives := by obtain ⟨_, _, _, _, _, h⟩ := netSend_frame s lane n p; rw [h]
@[simp] theorem netSend_hbx (s : State) (lane n : Nat) (p : Packet) : (netSend s lane n p).hbx = s.hbx := by obtain ⟨_, _, _, _, _, h⟩ := netSend_frame s lane n p; rw [h]
@[simp] theorem netSend_fab (s : State) (lane n : Nat) (p : Packet) : (netSend s lane n p).fab = s.fab := by obtain ⟨_, _, _, _, _, h⟩ := netSend_frame s lane n p; rw [h]
@[simp] theorem netSend_par (s : State) (lane n : Nat) (p : Packet) : (netSend s lane n p).par = s.par := by obtain ⟨_, _, _, _, _, h⟩ := netSend_frame s lane n p; rw [h]
@[simp] theorem netSend_mc (s : State) (lane n : Nat) (p : Packet) : (netSend s lane n p).mc = s.mc := by obtain ⟨_, _, _, _, _, h⟩ := netSend_frame s lane n p; rw [h]
@[simp] theorem netSend_mov (s : State) (lane n : Nat) (p : Packet) : (netSend s lane n p).mov = s.mov := by obtain ⟨_, _, _, _, _, h⟩ := netSend_frame s lane n p; rw [h]
@[simp] theorem netSend_ctl (s : State) (lane n : Nat) (p : Packet) : (netSend s lane n p).ctl = s.ctl := by obtain ⟨_, _, _, _, _, h⟩ := netSend_frame s lane n p; rw [h]
@[simp] theorem netSend_stby (s : State) (lane n : Nat) (p : Packet) : (netSend s lane n p).stby = s.stby := by obtain ⟨_, _, _, _, _, h⟩ := netSend_frame s lane n p; rw [h]
@[simp] theorem netSend_rails (s : State) (lane n : Nat) (p : Packet) : (netSend s lane n p).rails = s.rails := by obtain ⟨_, _, _, _, _, h⟩ := netSend_frame s lane n p; rw [h]
@[simp] theorem netSend_dom (s : State) (lane n : Nat) (p : Packet) : (netSend s lane n p).dom = s.dom := by obtain ⟨_, _, _, _, _, h⟩ := netSend_frame s lane n p; rw [h]
@[simp] theorem netSend_boot (s : State) (lane n : Nat) (p : Packet) : (netSend s lane n p).boot = s.boot := by obtain ⟨_, _, _, _, _, h⟩ := netSend_frame s lane n p; rw [h]
@[simp] theorem netSend_clk (s : State) (lane n : Nat) (p : Packet) : (netSend s lane n p).clk = s.clk := by obtain ⟨_, _, _, _, _, h⟩ := netSend_frame s lane n p; rw [h]
@[simp] theorem netSend_sep (s : State) (lane n : Nat) (p : Packet) : (netSend s lane n p).sep = s.sep := by obtain ⟨_, _, _, _, _, h⟩ := netSend_frame s lane n p; rw [h]
@[simp] theorem netSend_dimms (s : State) (lane n : Nat) (p : Packet) : (netSend s lane n p).dimms = s.dimms := by obtain ⟨_, _, _, _, _, h⟩ := netSend_frame s lane n p; rw [h]
@[simp] theorem netSend_chainE (s : State) (lane n : Nat) (p : Packet) : (netSend s lane n p).chainE = s.chainE := by obtain ⟨_, _, _, _, _, h⟩ := netSend_frame s lane n p; rw [h]
@[simp] theorem netSend_chainW (s : State) (lane n : Nat) (p : Packet) : (netSend s lane n p).chainW = s.chainW := by obtain ⟨_, _, _, _, _, h⟩ := netSend_frame s lane n p; rw [h]
@[simp] theorem netSend_fresh (s : State) (lane n : Nat) (p : Packet) : (netSend s lane n p).fresh = s.fresh := by obtain ⟨_, _, _, _, _, h⟩ := netSend_frame s lane n p; rw [h]
@[simp] theorem netSend_pending (s : State) (lane n : Nat) (p : Packet) : (netSend s lane n p).pending = s.pending := by obtain ⟨_, _, _, _, _, h⟩ := netSend_frame s lane n p; rw [h]

@[simp] theorem undecoded_bank (s : State) (src a : Nat) : (undecoded s src a).bank = s.bank := by obtain ⟨_, _, _, _, h⟩ := undecoded_frame s src a; rw [h]
@[simp] theorem undecoded_mem (s : State) (src a : Nat) : (undecoded s src a).mem = s.mem := by obtain ⟨_, _, _, _, h⟩ := undecoded_frame s src a; rw [h]
@[simp] theorem undecoded_net (s : State) (src a : Nat) : (undecoded s src a).net = s.net := by obtain ⟨_, _, _, _, h⟩ := undecoded_frame s src a; rw [h]
@[simp] theorem undecoded_rdma (s : State) (src a : Nat) : (undecoded s src a).rdma = s.rdma := by obtain ⟨_, _, _, _, h⟩ := undecoded_frame s src a; rw [h]
@[simp] theorem undecoded_hq (s : State) (src a : Nat) : (undecoded s src a).hq = s.hq := by obtain ⟨_, _, _, _, h⟩ := undecoded_frame s src a; rw [h]
@[simp] theorem undecoded_pools (s : State) (src a : Nat) : (undecoded s src a).pools = s.pools := by obtain ⟨_, _, _, _, h⟩ := undecoded_frame s src a; rw [h]
@[simp] theorem undecoded_volumes (s : State) (src a : Nat) : (undecoded s src a).volumes = s.volumes := by obtain ⟨_, _, _, _, h⟩ := undecoded_frame s src a; rw [h]
@[simp] theorem undecoded_drives (s : State) (src a : Nat) : (undecoded s src a).drives = s.drives := by obtain ⟨_, _, _, _, h⟩ := undecoded_frame s src a; rw [h]
@[simp] theorem undecoded_hbx (s : State) (src a : Nat) : (undecoded s src a).hbx = s.hbx := by obtain ⟨_, _, _, _, h⟩ := undecoded_frame s src a; rw [h]
@[simp] theorem undecoded_fab (s : State) (src a : Nat) : (undecoded s src a).fab = s.fab := by obtain ⟨_, _, _, _, h⟩ := undecoded_frame s src a; rw [h]
@[simp] theorem undecoded_par (s : State) (src a : Nat) : (undecoded s src a).par = s.par := by obtain ⟨_, _, _, _, h⟩ := undecoded_frame s src a; rw [h]
@[simp] theorem undecoded_mc (s : State) (src a : Nat) : (undecoded s src a).mc = s.mc := by obtain ⟨_, _, _, _, h⟩ := undecoded_frame s src a; rw [h]
@[simp] theorem undecoded_mov (s : State) (src a : Nat) : (undecoded s src a).mov = s.mov := by obtain ⟨_, _, _, _, h⟩ := undecoded_frame s src a; rw [h]
@[simp] theorem undecoded_ctl (s : State) (src a : Nat) : (undecoded s src a).ctl = s.ctl := by obtain ⟨_, _, _, _, h⟩ := undecoded_frame s src a; rw [h]
@[simp] theorem undecoded_stby (s : State) (src a : Nat) : (undecoded s src a).stby = s.stby := by obtain ⟨_, _, _, _, h⟩ := undecoded_frame s src a; rw [h]
@[simp] theorem undecoded_rails (s : State) (src a : Nat) : (undecoded s src a).rails = s.rails := by obtain ⟨_, _, _, _, h⟩ := undecoded_frame s src a; rw [h]
@[simp] theorem undecoded_dom (s : State) (src a : Nat) : (undecoded s src a).dom = s.dom := by obtain ⟨_, _, _, _, h⟩ := undecoded_frame s src a; rw [h]
@[simp] theorem undecoded_boot (s : State) (src a : Nat) : (undecoded s src a).boot = s.boot := by obtain ⟨_, _, _, _, h⟩ := undecoded_frame s src a; rw [h]
@[simp] theorem undecoded_clk (s : State) (src a : Nat) : (undecoded s src a).clk = s.clk := by obtain ⟨_, _, _, _, h⟩ := undecoded_frame s src a; rw [h]
@[simp] theorem undecoded_sep (s : State) (src a : Nat) : (undecoded s src a).sep = s.sep := by obtain ⟨_, _, _, _, h⟩ := undecoded_frame s src a; rw [h]
@[simp] theorem undecoded_tel (s : State) (src a : Nat) : (undecoded s src a).tel = s.tel := by obtain ⟨_, _, _, _, h⟩ := undecoded_frame s src a; rw [h]
@[simp] theorem undecoded_dimms (s : State) (src a : Nat) : (undecoded s src a).dimms = s.dimms := by obtain ⟨_, _, _, _, h⟩ := undecoded_frame s src a; rw [h]
@[simp] theorem undecoded_chainE (s : State) (src a : Nat) : (undecoded s src a).chainE = s.chainE := by obtain ⟨_, _, _, _, h⟩ := undecoded_frame s src a; rw [h]
@[simp] theorem undecoded_chainW (s : State) (src a : Nat) : (undecoded s src a).chainW = s.chainW := by obtain ⟨_, _, _, _, h⟩ := undecoded_frame s src a; rw [h]
@[simp] theorem undecoded_txWait (s : State) (src a : Nat) : (undecoded s src a).txWait = s.txWait := by obtain ⟨_, _, _, _, h⟩ := undecoded_frame s src a; rw [h]
@[simp] theorem undecoded_out (s : State) (src a : Nat) : (undecoded s src a).out = s.out := by obtain ⟨_, _, _, _, h⟩ := undecoded_frame s src a; rw [h]
@[simp] theorem undecoded_fresh (s : State) (src a : Nat) : (undecoded s src a).fresh = s.fresh := by obtain ⟨_, _, _, _, h⟩ := undecoded_frame s src a; rw [h]
@[simp] theorem undecoded_pending (s : State) (src a : Nat) : (undecoded s src a).pending = s.pending := by obtain ⟨_, _, _, _, h⟩ := undecoded_frame s src a; rw [h]

/-- Counting leaves every register but TEL_EVENT. -/
theorem ctrWrap_bank (s : State) (n : Nat) :
    (ctrWrap s n).bank = s.bank ∨ ∃ w, (ctrWrap s n).bank = tput s.bank (regAddr .telEvent) w := by
  unfold ctrWrap
  by_cases h1 : (ctrOf s.tel.ctrs n).chain = true
  · simp only [h1, if_true]
    generalize ctrAdd s.tel.ctrs (n + 1) 1 = p
    obtain ⟨t, w⟩ := p
    cases w
    · exact .inl rfl
    · exact .inr ⟨_, rfl⟩
  · simp only [h1]
    exact .inr ⟨_, rfl⟩

theorem countBy_bank (s : State) (n v : Nat) :
    (countBy s n v).bank = s.bank ∨ ∃ w, (countBy s n v).bank = tput s.bank (regAddr .telEvent) w := by
  unfold countBy
  by_cases h : v = 0 ∨ ctrHigh s.tel.ctrs n
  · rw [if_pos h]; exact .inl rfl
  · rw [if_neg h]
    dsimp only
    generalize ctrAdd s.tel.ctrs n (if (ctrOf s.tel.ctrs n).edge then 1 else v) = p
    obtain ⟨t, w⟩ := p
    cases w
    · exact .inl rfl
    · exact ctrWrap_bank { s with tel := { s.tel with ctrs := t } } n

/-- Counting leaves every register but TEL_EVENT. -/
theorem bankGet_countBy (s : State) (n v : Nat) (r : Reg) (hr : regAddr r ≠ regAddr .telEvent) :
    bankGet (countBy s n v) r = bankGet s r := by
  obtain h | ⟨w, h⟩ := countBy_bank s n v
  · simp [bankGet, h]
  · simp [bankGet, h, tget_tput_other _ _ _ _ hr]

theorem bankGet_count (s : State) (n : Nat) (r : Reg) (hr : regAddr r ≠ regAddr .telEvent) :
    bankGet (count s n) r = bankGet s r := bankGet_countBy s n 1 r hr

/-- A counter below its largest value that is no high half goes up by one (R357 to R359). -/
theorem count_value (s : State) (n : Nat) (h : ctrHigh s.tel.ctrs n = false) (hv : (ctrOf s.tel.ctrs n).value + 1 < 2 ^ 48) :
    (ctrOf (count s n).tel.ctrs n).value = (ctrOf s.tel.ctrs n).value + 1 := by
  have hp : ctrAdd s.tel.ctrs n (if (ctrOf s.tel.ctrs n).edge then 1 else 1) =
      (tput s.tel.ctrs n { ctrOf s.tel.ctrs n with value := (ctrOf s.tel.ctrs n).value + 1 }, false) := by
    rw [ite_self]
    simp only [ctrAdd, Nat.mod_eq_of_lt hv, decide_eq_false (Nat.not_le.mpr hv)]
  have h0 : ¬ ((1 : Nat) = 0 ∨ ctrHigh s.tel.ctrs n = true) := by simp [h]
  unfold count countBy
  rw [if_neg h0]
  dsimp only
  rw [hp]
  simp [ctrOf]

end Sys2Proof.Machine
end

