-- ==== Sys2Proof/WellFormed.lean ====
section
/-! DEFINITION. Well-formed commands: every operand within the range that the spec's structure gives it (lanes 0 to 63, slots 0 to 63, fabric ports 0 to 159
and so on). A mailbox row's channel is not bounded: keys from 8 up name requests that a reset of PF0 left to run (R353). -/

namespace Sys2Proof

/-- A priority mark: a DSCP of 6 bits, a PCP of 3. -/
def markOk (m : RxMark) : Bool := decide (m.dscp < 64) && m.pcp.all (fun p => decide (p < 8))

/-- Whether a command's operands are in range. -/
def wellFormed (i : Instr) : Bool :=
  match i with
  | .registerWrite src addr size value _ _ => decide (src < 160) && decide (addr < 2 ^ 48) && decide (1 ≤ size ∧ size ≤ 4096) && decide (value < 2 ^ (8 * size))
  | .netLinkChange lane _ => decide (lane < 64)
  | .arpRequest lane _ _ => decide (lane < 64)
  | .neighbourSolicitation lane _ _ => decide (lane < 64)
  | .echoRequest lane _ _ _ => decide (lane < 64)
  | .ptpMessage lane _ => decide (lane < 64)
  | .controlFrame lane _ _ _ => decide (lane < 64)
  | .pfcFrame lane _ quanta => decide (lane < 64) && decide (quanta.length = 8)
  | .badFrame lane _ _ => decide (lane < 64)
  | .unreliableDatagram lane qpn => decide (lane < 64) && decide (qpn < 16777216)
  | .xon lane prio => decide (lane < 64) && decide (prio < 8)
  | .pfcStormEgress lane prio => decide (lane < 64) && decide (prio < 8)
  | .pfcStormIngress lane prio => decide (lane < 64) && decide (prio < 8)
  | .pfcWatchdogRestore lane prio _ => decide (lane < 64) && decide (prio < 8)
  | .ptpTxtsPop => true
  | .gidSelect _ => true
  | .gidCommit _ => true
  | .cmReq r => decide (r.lane < 64) && decide (r.mtu = 1024 ∨ r.mtu = 2048 ∨ r.mtu = 4096) && decide (r.gid < 16) && markOk r.mark
  | .cmRtu qp => decide (qp < 65536)
  | .cmDreq qp => decide (qp < 65536)
  | .cmDrep qp => decide (qp < 65536)
  | .sqdTimeout qp => decide (qp < 65536)
  | .errorStateTimeout qp => decide (qp < 65536)
  | .sendPacket p => decide (p.qp < 65536 ∧ p.psn < 2 ^ 24 ∧ markOk p.mark = true)
  | .rdmaWritePacket p => decide (p.qp < 65536 ∧ p.psn < 2 ^ 24 ∧ markOk p.mark = true)
  | .readResponsePacket p => decide (p.qp < 65536 ∧ p.psn < 2 ^ 24 ∧ markOk p.mark = true)
  | .ackPacket qp psn => decide (qp < 65536) && decide (psn < 16777216)
  | .sequenceErrorNak qp psn => decide (qp < 65536) && decide (psn < 16777216)
  | .rnrNak qp psn _ => decide (qp < 65536) && decide (psn < 16777216)
  | .errorNak qp _ => decide (qp < 65536)
  | .invalidRequest qp psn => decide (qp < 65536) && decide (psn < 16777216)
  | .contextFetchDone qp _ => decide (qp < 65536)
  | .ackCoalesceTimer qp => decide (qp < 65536)
  | .retransmissionTimeout qp => decide (qp < 65536)
  | .rnrTimer qp => decide (qp < 65536)
  | .resequenceGapTimeout qp => decide (qp < 65536)
  | .readResponseGapTimeout qp => decide (qp < 65536)
  | .pathProbe qp path => decide (qp < 65536) && decide (path < 8)
  | .baseWindowRoll qp => decide (qp < 65536)
  | .qpRevoke rkey => decide (rkey < 4294967296)
  | .revokeTimeout region => decide (region < 16384)
  | .capsule conn queue => decide (conn < 1024) && decide (queue < 64)
  | .flush conn queue => decide (conn < 1024) && decide (queue < 64)
  | .write conn queue => decide (conn < 1024) && decide (queue < 64)
  | .read conn queue => decide (conn < 1024) && decide (queue < 64)
  | .writeZeroes conn queue => decide (conn < 1024) && decide (queue < 64)
  | .deallocate conn queue => decide (conn < 1024) && decide (queue < 64)
  | .identify conn => decide (conn < 1024)
  | .getErrorLog conn => decide (conn < 1024)
  | .restartQueue conn => decide (conn < 1024)
  | .restartComplete conn queue => decide (conn < 1024) && decide (queue < 64)
  | .regionRegister conn => decide (conn < 1024)
  | .regionRelease conn => decide (conn < 1024)
  | .reset conn => decide (conn < 1024)
  | .resetTimeout conn => decide (conn < 1024)
  | .authSend conn _ => decide (conn < 1024)
  | .authReceive conn => decide (conn < 1024)
  | .authTimeout conn => decide (conn < 1024)
  | .eventWait conn => decide (conn < 1024)
  | .disconnect conn => decide (conn < 1024)
  | .commandCompletion _ => true
  | .connectionLingerExpiry conn => decide (conn < 1024)
  | .writeCapWindow => true
  | .holdStart => true
  | .holdRelease => true
  | .holdWindowEnd => true
  | .nvmfConnect conn queue _ _ => decide (conn < 1024) && decide (queue < 64)
  | .propertyGet conn => decide (conn < 1024)
  | .propertySet conn => decide (conn < 1024)
  | .authenticationSend conn _ => decide (conn < 1024)
  | .authenticationReceive conn => decide (conn < 1024)
  | .nvmfDisconnect conn queue => decide (conn < 1024) && decide (queue < 64)
  | .nvmfIdentify conn => decide (conn < 1024)
  | .getLogPage conn => decide (conn < 1024)
  | .setFeatures conn => decide (conn < 1024)
  | .getFeatures conn => decide (conn < 1024)
  | .asynchronousEventRequest conn => decide (conn < 1024)
  | .keepAlive conn => decide (conn < 1024)
  | .keepAliveExpiry conn => decide (conn < 1024)
  | .abort conn => decide (conn < 1024)
  | .nvmfFlush conn queue => decide (conn < 1024) && decide (queue < 64)
  | .nvmfWrite conn queue => decide (conn < 1024) && decide (queue < 64)
  | .nvmfRead conn queue => decide (conn < 1024) && decide (queue < 64)
  | .nvmfWriteZeroes conn queue => decide (conn < 1024) && decide (queue < 64)
  | .datasetManagement conn queue _ => decide (conn < 1024) && decide (queue < 64)
  | .stripeAllocate pool _ => decide (pool < 4)
  | .pullReadIssue pool _ => decide (pool < 4)
  | .driveWriteIssue pool _ _ => decide (pool < 4)
  | .driveCellRead port pool _ _ _ => decide (port < 64) && decide (pool < 4)
  | .cellReadTimeout port => decide (port < 64)
  | .nvmeWriteComplete slot _ _ => decide (slot < 64)
  | .nvmeReadComplete slot _ _ _ => decide (slot < 64)
  | .nvmeFlushSubmit slot => decide (slot < 64)
  | .nvmeFlushComplete slot => decide (slot < 64)
  | .headerRingWrite pool => decide (pool < 4)
  | .logRecordIssue pool stream => decide (pool < 4) && decide (stream < 4096)
  | .writeAck pool _ => decide (pool < 4)
  | .undeliveredNotice pool _ _ _ => decide (pool < 4)
  | .foldStripe pool _ => decide (pool < 4)
  | .foldWatermarkAdjust pool => decide (pool < 4)
  | .reclaimBand pool _ => decide (pool < 4)
  | .bandFree pool _ => decide (pool < 4)
  | .stripeLockGrant pool _ _ => decide (pool < 4)
  | .inplaceWriteIssue pool _ => decide (pool < 4)
  | .intentClose pool _ => decide (pool < 4)
  | .rotationStep vol _ => decide (vol < 4096)
  | .hatboxRecordAccept ring => decide (ring < 4)
  | .mramWriteComplete ring _ _ => decide (ring < 4)
  | .remapCopyDone ring => decide (ring < 4)
  | .watermark ring => decide (ring < 4)
  | .journalPageIssue pool => decide (pool < 4)
  | .lagStall pool => decide (pool < 4)
  | .copyMemberEvict pool member => decide (pool < 4) && decide (member < 64)
  | .epochOpen pool reason => decide (pool < 4) && decide (1 ≤ reason ∧ reason < 256)
  | .epochCommit pool => decide (pool < 4)
  | .hatboxDieFault => true
  | .forceDriveJournal => true
  | .hbxSelftestStart => true
  | .hbxSelftestDone failed => failed.all (fun g => decide (g < 512))
  | .poolTailAdvance ring _ => decide (ring < 4)
  | .replay pool _ => decide (pool < 4)
  | .readAroundTimer _ _ => true
  | .latencyWindow => true
  | .driveCommandTimeout slot _ => decide (slot < 64)
  | .driveLinkDownTimeout slot => decide (slot < 64)
  | .controllerFatalStatus slot => decide (slot < 64)
  | .controllerResetTimeout slot => decide (slot < 64)
  | .repairStripe pool _ => decide (pool < 4)
  | .repairPaceAdjust pool => decide (pool < 4)
  | .latencyDriftWindow => true
  | .evacuationStart slot _ => decide (slot < 64)
  | .evacBand slot _ => decide (slot < 64)
  | .scrubStripe pool _ _ _ => decide (pool < 4)
  | .bandConvert pool _ _ => decide (pool < 4)
  | .checkpointStart vol => decide (vol < 4096)
  | .checkpointRoot vol => decide (vol < 4096)
  | .checkpointFree vol => decide (vol < 4096)
  | .leafPageIn vol _ => decide (vol < 4096)
  | .nodeRebuild vol _ _ => decide (vol < 4096)
  | .mapCacheLoad requester addr _ => decide (requester < 160) && decide (addr < 2 ^ 41)
  | .mapCacheStore addr _ => decide (addr < 2 ^ 41)
  | .mapCacheFill addr => decide (addr < 2 ^ 41)
  | .writeThroughDrain slice => decide (slice < 4)
  | .invalidate tag _ => decide (tag < 256)
  | .prefetch tag => decide (tag < 256)
  | .lock tag => decide (tag < 256)
  | .unlock tag => decide (tag < 256)
  | .verify tag => decide (tag < 256)
  | .rangeOpComplete _ => true
  | .cacheDisable => true
  | .diagWindowAccess off _ => decide (off < 2 ^ 30 ∧ off % 8 = 0)
  | .cellAdmission input cell => decide (input < 160) && decide (cell.hdr.src < 160 ∧ cell.hdr.priority < 4 ∧ cell.hdr.lenM1 < 256) && markOk cell.mark
  | .cellDepart port _ => decide (port < 160)
  | .fabricPortDown port => decide (port < 160)
  | .accumulatorBind b => decide (b.acc < 2048)
  | .accumulatorCell acc _ _ _ _ _ => decide (acc < 2048)
  | .accumulatorTimeout acc => decide (acc < 2048)
  | .pairMismatch pair => decide (pair < 2)
  | .doorbellRing ch => decide (ch < 8)
  | .doorbellAck ch => decide (ch < 8)
  | .operationEnd _ => true
  | .entdaa addr => decide (addr < 128)
  | .mctpMessage endpoint _ _ => decide (endpoint < 256)
  | .setEndpointId eid => decide (eid < 256)
  | .getEndpointId => true
  | .getMctpVersionSupport => true
  | .getMessageTypeSupport => true
  | .getVendorDefinedMessageSupport => true
  | .inbandDatagram lane _ port _ => decide (lane < 64) && decide (port < 65536)
  | .mailboxIdentify _ => true
  | .getOperation _ => true
  | .getEvents _ => true
  | .poolCreate _ => true
  | .poolImport _ _ => true
  | .poolExport _ => true
  | .poolDelete _ => true
  | .poolQuery _ => true
  | .poolSet _ => true
  | .poolConvert _ => true
  | .lossRead _ => true
  | .lossAck _ => true
  | .volumeCreate _ => true
  | .volumeDelete _ => true
  | .volumeSet _ => true
  | .volumeQuery _ => true
  | .volumeAccess _ => true
  | .driveInventory _ => true
  | .driveAdmit _ _ => true
  | .driveFail _ => true
  | .driveEvacuate _ => true
  | .driveRelease _ => true
  | .policyGet _ => true
  | .policySet _ => true
  | .fwDownload _ => true
  | .fwVerify _ => true
  | .fwActivate _ => true
  | .activationAdopt => true
  | .activationTimeout => true
  | .fwStatus _ => true
  | .fwCommit _ => true
  | .kekSession _ => true
  | .kekSessionLapse _ => true
  | .kekLoad _ => true
  | .keyLoad _ => true
  | .keyRotate _ => true
  | .keyUnload _ => true
  | .hostSecretSet _ => true
  | .inbandSecretSet _ => true
  | .healthReport _ => true
  | .counterRead _ => true
  | .dumpConfig _ => true
  | .sampleConfig _ => true
  | .feedStatus _ => true
  | .crownHandover _ => true
  | .slotPower _ => true
  | .softReset _ => true
  | .regRead _ => true
  | .regWrite _ => true
  | .selfTest _ _ => true
  | .rollbackRaise value => decide (value < 2 ^ 32)
  | .shadowWrite ch reg _ => decide (ch < 64) && decide (reg < 4)
  | .shadowArm ch _ => decide (ch < 64)
  | .disarm ch => decide (ch < 64)
  | .stop ch => decide (ch < 64)
  | .stopDrained ch => decide (ch < 64)
  | .clear ch => decide (ch < 64)
  | .shadowHandOver ch => decide (ch < 64)
  | .nextFetch ch _ => decide (ch < 64)
  | .moverReadGrant half => decide (half < 2)
  | .moverDataReturn ch _ => decide (ch < 64)
  | .descriptorComplete ch => decide (ch < 64)
  | .gloveAlive _ => true
  | .feedConversion _ _ _ _ _ _ _ _ _ => true
  | .feedStateChange _ => true
  | .gloveFrameSend _ => true
  | .gloveFrameReceive _ _ _ => true
  | .linkLost _ => true
  | .linkUp _ => true
  | .leaseExpiry _ => true
  | .crownWaitExpiry _ => true
  | .gateFbTimeout _ => true
  | .gateReraise _ => true
  | .interlockConflict => true
  | .conflictClear => true
  | .deadTimeExpiry => true
  | .senseWireTest _ _ => true
  | .adcReferenceTest _ _ => true
  | .adcAgreementTest => true
  | .oscTimebaseTest _ _ => true
  | .standbyRailTest _ _ => true
  | .interlockTest _ _ => true
  | .crownCmdHandover _ => true
  | .powerGoodFall rail => decide (rail < 8)
  | .feedOkRestart => true
  | .domainRequest _ => true
  | .domainSwitch => true
  | .domainPowerGoodTimeout domain => decide (domain < 62)
  | .railSequenceStart => true
  | .railPgRise rail => decide (rail < 8)
  | .railPgTimeout rail => decide (rail < 8)
  | .railRetry => true
  | .sysRstNAssert => true
  | .sysRstNRelease => true
  | .bootRom => true
  | .imageCheck => true
  | .startSelfTest _ => true
  | .ddrTrainingDone => true
  | .networkBringUp => true
  | .driveEnumeration slot _ => decide (slot < 64)
  | .ledgerRead => true
  | .mapRootLoad vol => decide (vol < 4096)
  | .esLevelSet level => decide (level < 8)
  | .warmStartDrainTimeout => true
  | .bootWdogDone => true
  | .bootWdogKick => true
  | .wdogWarn => true
  | .watchdogExpiry => true
  | .clockLoss _ => true
  | .referenceReturn => true
  | .pllLockLost _ => true
  | .lastTimeUpdate => true
  | .timeSet _ => true
  | .timeAdj _ _ => true
  | .sepLinkTraining _ _ => true
  | .bar0Request pf tlp => decide (pf < 2) && decide (1 ≤ tlp.len ∧ tlp.len ≤ 4096)
  | .bar2Request tlp _ => decide (1 ≤ tlp.len ∧ tlp.len ≤ 4096)
  | .masterEnableClear pf => decide (pf < 2)
  | .functionLevelReset pf => decide (pf < 2)
  | .flrReady pf => decide (pf < 2)
  | .d3hotEntry pf => decide (pf < 2)
  | .winCommit entry => decide (entry < 64)
  | .windowDrainDone entry => decide (entry < 64)
  | .pf0Raise vector => decide (vector < 64)
  | .pf1DumpWrite => true
  | .counterWrap counter value => decide (counter < 2048) && decide (value < 16)
  | .snapshotPeriodic => true
  | .snap => true
  | .dumpWriteComplete buffer => decide (buffer < 2)
  | .frameSampleExport => true
  | .sgFrame _ inputs => decide (inputs.length ≤ 32)
  | .presenceDebounce slot => decide (slot < 64)
  | .perstRelease slot => decide (slot < 64)
  | .driveLinkTraining slot _ => decide (slot < 64)
  | .sidebandRead slot _ => decide (slot < 64)
  | .thermtrip _ => true
  | .gloveLoss _ => true
  | .criticalWarning slot _ => decide (slot < 64)
  | .cmRej qp => decide (qp < 65536)
  | .sepLinkDown _ => true
  | .masterEnableSet pf => decide (pf < 2)
  | .d0Return pf => decide (pf < 2)
  | .completionTimeout ch => decide (ch < 64)

end Sys2Proof
end

