-- ==== Sys2Proof/Tests/Slice0.lean ====
section
/-! SUPPORT. The model's own tests: ill-formed terms refused, worked values, and for every statement states that meet its hypotheses. -/

set_option linter.unusedVariables false
set_option maxRecDepth 4000

namespace Sys2Proof.Tests

open Sys2Proof Sys2Proof.Machine

/-- A state with some registers at given values. -/
def withRegs (l : List (Reg × Word)) : State := l.foldl (fun s e => bankSet s e.1 e.2) State.reset

/-- Network enables set and every lane a port of its own. -/
def linkReady : State := withRegs [(.netCtrl, 0xFF01), (.netGroupCfg 0, 0xFF), (.netPortCtrl 3, 0x17B8000008080003)]

/-- One port with its link up and a GID. -/
def linkWith (lane : Nat) (addr : BitVec 128) : State :=
  { withRegs [(.netGroupCfg (lane / 8), 0xFF)] with
    net := { ports := [(lane, { link := true, gids := [(0, { addr := addr, valid := true })] })] } }

def linkUp4 : State := linkWith 3 0xFFFF0A000001
def linkUp6 : State := linkWith 3 0xFE800000000000000000000000000001
def linkUp0 : State := linkWith 0 0
def linkUp63 : State := linkWith 63 0

/-- A port with priority 3 paused both ways and priority 4 under the egress watchdog. -/
def xoffState : State :=
  { State.reset with
    net := { ports := [(0, { link := true
                             prios := [(3, { pausedFrom := some 5, pausedUntil := 10 ^ 12, xoffFrom := some 5 }), (4, { egressWdAt := some 5 })] })] } }

/-- A whole frame of one cell for port 64. -/
def oneCell : Cell := { hdr := { src := 1, sof := true, eof := true, priority := 0, targets := [64] }, payload := [9] }

/-- Port 64 up. -/
def portsUp : State := withRegs [(.fabPortCtrl 64, 0x400003)]

/-- A cell queued at it. -/
def cellQueued : State :=
  { portsUp with
    fab := { ports := [(64, { wrrLeft := 1, cells := [{ id := 0, cell := oneCell }]
                              frames := [{ src := 1, prio := 0, seq := 0, ct := false, eof := true, cells := 1 }] })] } }

/-- A binding of accumulator 5, and the accumulator bound. -/
def accOne : AccBind :=
  { acc := 5, mode := .full, k := 4, stripBytes := 4096, rows := 1, touched := [], targets := [], prio := 0, engine := 0, band := 0
    firstBlock := 0, generation := 0 }
def parOn : State := withRegs [(.parCtrl, 1)]
def accBound : State := { parOn with par := { accs := [(5, { bind := accOne, boundAt := 0, expected := 4 })] } }

/-- A queue pair in RTS with one message unacknowledged. -/
def qpA : Qp :=
  { state := .rts, cached := true, timerFrom := some 5, unacked := [{ psn := 3, packets := 1, kind := .send, bytes := [] }], nextPsn := 4 }
def withQp (q : Qp) : State :=
  { linkUp0 with bank := (bankSet linkUp0 .qpCtrl 0xFF01).bank, rdma := { qps := [(0, q)] } }
def pausedQp : State :=
  { withQp { qpA with oldestUnacked := some 5 } with
    net := { ports := [(0, { link := true, prios := [(3, { pausedFrom := some 0, pausedUntil := 1000000000 })] })] } }
def withRegion : State :=
  { withRegs [(.qpCtrl, 0xFF01), (.netGroupCfg 0, 0xFF), (.qpRegionCfg, 0x40010), (.fabGwCfg, 0x100)] with
    net := linkUp0.net, rdma := { qps := [(0, qpA)], regions := [(5, { state := .active, tag := 1, base := 4096, length := 4096 })] } }
def fetching : State := { withQp { qpA with cached := false } with rdma := { qps := [(0, { qpA with cached := false })], fetches := [0] } }
def readA : ReadReq := { psn := 0, packets := 4, rkey := 0, addr := 0, pool := 0, wseq := 0, firstByte := 0, bytes := 16384, gapFrom := some 5 }
def pacedQp : State :=
  { linkUp0 with bank := (bankSet linkUp0 .qpCtrl 0xFF05).bank, rdma := { qps := [(0, { qpA with reads := [readA], paceAt := 30000 })] } }
def qpSpray : Qp := { qpA with sprayed := true, txPaths := 2, paths := [(1, { congested := true })] }

/-- An admin connect request for MSP 3.3, and a device that takes it. -/
def reqA : CmReq :=
  { lane := 0, serviceId := 0x01061BC8, remoteQpn := 1, startPsn := 0, mtu := 4096, retryCount := 7, rnrRetry := 7, reads := 16
    priv := List.replicate 36 0 ++ pack 56 [(0, 2, 0x4D53), (2, 1, 0x10), (3, 1, 0x33), (6, 2, 16), (16, 16, 1)] }
def mspA : MspPriv := parseMsp reqA.priv
def hostReady : State :=
  { withRegs [(.netGroupCfg 0, 0xFF), (.qpCtrl, 0x1BC8114400000F07), (.hqCtrl, 0x3307), (.hqAreaSize, 1)] with
    net := linkUp0.net, volumes := [(1, { pool := 0, kind := .mapped, encrypted := false, passThrough := false, capacity := 8, hosts := [1] })] }

/-- A connection with an admin and an I/O queue. -/
def queueA : Queue := { qp := 0, entries := 16, icd := 0 }
def connA : Conn := { id := 1, hostId := 1, version := 0x33, queues := [(0, queueA), (1, queueA)] }
def connF : Conn := { connA with queues := [(0, queueA), (1, { queueA with frozen := true })] }
def hostWith (p : Qp) (k : Conn) : State :=
  { withRegs [(.netGroupCfg 0, 0xFF), (.qpCtrl, 0x1BC8114400000F07), (.hqCtrl, 0x3307), (.hqAreaSize, 1), (.hqEs, 2)] with
    net := linkUp0.net, rdma := { qps := [(0, p)] }, hq := { conns := [(0, k)] } }
def errA : ErrEntry :=
  { seq := 1, time := 0, subSeq := 0, fetched := 0, queue := 1, opcode := 1, cid := 0, status := 0x28 }
def cmdA : Cmd := { conn := 0, queue := 1, e := { opcode := 1, cid := 9 }, subSeq := 0, acceptedAt := 0, startedAt := 0 }
def withCmd (k : Cmd) : State := { hostWith qpA connA with hq := { conns := [(0, connA)], cmds := [(7, k)] } }

/-- A capsule at the head of the I/O queue, of the admin queue, and of the queues of an NVMe-oF association. -/
def capA (op : Nat) : Capsule := { e := { opcode := op, cid := 3 }, subSeq := 0, acceptedAt := 0 }
/-- A state with congestion control off. -/
def ccOff (s : State) : State := bankSet s .qpCtrl 0x1BC8114400000F03
def capW3 : Capsule := { capA 1 with e := { opcode := 1, cid := 3, dataMode := 2, volumeId := 1, count := 1, length := 4096 } }
def admA (op mode len p0 : Nat) : Capsule :=
  { e := { opcode := op, cid := 3, dataMode := mode, length := len, param0 := p0 }, subSeq := 0, acceptedAt := 0 }
def fabA (t : Nat) : Capsule := { e := { opcode := 0x7F, cid := 3, param0 := t }, subSeq := 0, acceptedAt := 0 }
def hostHead (h : Capsule) : State := hostWith qpA { connA with queues := [(0, queueA), (1, { queueA with ring := [h] })] }
def connQ (h : Capsule) : Conn := { connA with queues := [(0, { queueA with ring := [h] }), (1, queueA)] }
def hostHead0 (h : Capsule) : State := hostWith qpA { connA with queues := [(0, { queueA with ring := [h] }), (1, queueA)] }
def hostHead0L (h : Capsule) : State :=
  hostWith qpA { connA with queues := [(0, { queueA with ring := [h] }), (1, queueA)], log := [errA] }
def hostHeadF (h : Capsule) : State := hostWith qpA { connF with queues := [(0, { queueA with ring := [h] }), (1, { queueA with frozen := true })] }
def nvConn (h : Capsule) : Conn := { connA with nvme := true, queues := [(0, { queueA with ring := [h] }), (1, queueA)] }
def nvHead (q : Nat) (h : Capsule) : State :=
  hostWith qpA (if q = 0 then nvConn h else { connA with nvme := true, queues := [(0, queueA), (1, { queueA with ring := [h] })] })
def nvHeadU (h : Capsule) : State :=
  hostWith qpA { connA with nvme := true, queues := [(0, { queueA with ring := [h], connected := false })] }

/-- A pool of one plain drive with an open band, and a unit 5 in it. -/
def driveW : Drive := { state := .member, pool := some 0, member := some 0, linkUp := true, gen := 7 }
def memberW : Member := { uid := 1, state := .active, slots := 1000, capacity := 0, admitted := 0, driveSlot := some 0, used := [1] }
def bandW : Band :=
  { gen := 1, state := .opened, cls := 0, k := 1, w := 1, stripShift := 4, allocCount := 1, allocTime := 0, scrubTime := 0, members := [(0, 1)] }
def poolW : Pool :=
  { id := 1, ring := 0, layout := 3, k := 1, stripShift := 4, spare := 0, balance := 1, logReserve := 1, seed := 1, members := [(0, memberW)]
    bands := [(2, bandW)], openBands := [(0, 2)], wseq := 6 }
def volW : Volume := { pool := 0, kind := .mapped, encrypted := false, passThrough := false, capacity := 8 }
def poolS (p : Pool) : State :=
  { State.reset with pools := [(0, p)], drives := [(0, driveW)], volumes := [(1, volW)], hbx := { rings := [(0, {})] } }
def unitW : Machine.Unit := { vol := 1, cmd := none, start := 0, count := 1, path := .plainRun, stage := .waitPlace, data := [none] }
def edgeW : EdgeBlk := { blk := { data := [], tag := { crc := 0, ref := 0, gen := 0, fmt := 4 } }, guardOk := true }
def withUnit (u : Machine.Unit) : Pool := { poolW with units := [(5, u)] }
def unitD : Machine.Unit := { unitW with stage := .writing, band := 2, targets := [{ pos := 0, slot := 0, lba := slotLba 1, count := 1 }] }
def driveC (c : DrvCmd) (s : State) : State := { s with drives := [(0, { driveW with cmds := [c] })] }
def unitF : Machine.Unit := { unitW with path := .fullFresh, count := 16, data := List.replicate 16 none }
def wholeP : Pool := { poolW with layout := 0, units := [(5, unitF)] }
def wholeS : State := { poolS wholeP with bank := (withRegs [(.parCtrl, 0xF)]).bank }
def fullQueueS : State :=
  { driveC { cid := 3, op := .read, lba := slotLba 1, count := 1, owner := .hostRead 7 0 0, submitAt := 0 } (poolS (withUnit { unitD with data := [some edgeW] })) with
    drives := [(0, { driveW with queues := 1, queueDepth := 2, cmds := [{ cid := 3, op := .read, lba := slotLba 1, count := 1, owner := .hostRead 7 0 0, submitAt := 0 }] })] }
def unitP : Machine.Unit := { unitW with stage := .writing, cmd := some 7 }
def cmdP : Cmd := { cmdA with e := { opcode := 1, cid := 9, dataMode := 2 } }
def pullS : State :=
  { hostWith { qpA with maxReads := 4 } connA with hq := { conns := [(0, connA)], cmds := [(7, cmdP)] }, pools := [(0, withUnit unitP)] }
def hdrW : StripeHdr := { k := 1, w := 1, wseq := 5, band := 2, stripe := 0, gen := 1, vol := 1, keyGen := 0, blockCount := 1, volBlock := 0, time := 0 }
def hdrPool : Pool := { poolW with copy := { hdrQueue := [hdrW], members := [0], band := 2 } }
def logStreamW : LogStream := { band := some 2, recs := [{ band := 2, headerBlock := 0 }] }
def logPool : Pool := { poolW with streams := [logStreamW] }
def unitA : Machine.Unit := { unitD with recValid := true, data := [some edgeW], targets := [] }
def blkR : Blk := { data := [], tag := { crc := crc64 [], ref := volRef 4 1 0, gen := 1, fmt := 4 } }
def dcR : DrvCmd := { cid := 3, op := .read, lba := slotLba 1, count := 1, owner := .hostRead 7 0 0, submitAt := 0 }
def dcW : DrvCmd := { cid := 3, op := .write, lba := slotLba 1, count := 1, owner := .unit 0 5 0 0, submitAt := 0 }
def rdR : RdBlk := { block := 0, src := .flash 2 0 0 }
def cmdR : Cmd := { cmdA with e := { opcode := 2, cid := 9, volumeId := 1, length := 1 }, reads := [rdR] }
def readS : State := { poolS poolW with drives := [(0, { driveW with cmds := [dcR] })], hq := { cmds := [(7, cmdR)] } }
def landS : State := driveC dcW (poolS (withUnit { unitD with data := [some edgeW] }))
def foldPool : Pool := { poolW with bands := [(2, { bandW with cls := 1 })] }
def fullPool : Pool :=
  { poolW with members := [(0, { memberW with slots := 2, used := [0, 1] })], bands := [(2, { bandW with state := .closed, live := 1 })] }
def fullMap : Pool := { fullPool with bands := [(2, { bandW with cls := 3, state := .closed, live := 1 })] }
def relocW : Reloc := { vol := 1, block := 0, band := 2, off := 0, keyGen := 0, data := [1] }
def lostBand : Band := { bandW with w := 2, k := 2, members := [(0, 1), (1, 1)], repairMask := [0], next := 1 }
def volRot : Volume := { volW with kind := .direct, bandList := [2], rotation := some {}, rotating := true }
def rotS : State := { poolS poolW with bank := (withRegs [(.hbxCtrl, 0x11)]).bank, volumes := [(1, volRot)] }
def member1 : Member := { memberW with uid := 2, driveSlot := some 1 }
def lostP : Pool := { poolW with members := [(0, memberW), (1, member1)], bands := [(2, lostBand)] }
def mirrorBand : Band := { bandW with w := 2, members := [(0, 1), (1, 1)], repairMask := [1], next := 1 }
def mirrorPool : Pool := { poolW with layout := 1, members := [(0, memberW), (1, member1)], bands := [(2, mirrorBand)] }
def mirrorPool2 : Pool := { poolW with members := [(0, memberW), (1, member1)] }
def raBand : Band := { mirrorBand with repairMask := [] }
def raPool : Pool := { mirrorPool with bands := [(2, raBand)] }
def raS : State :=
  { poolS raPool with drives := [(0, { driveW with cmds := [dcR] }), (1, { driveW with member := some 1 })]
                      hq := { cmds := [(7, { cmdR with reads := [{ rdR with issuedAt := some 0 }] })] } }
def bgS (p : Pool) : State := { poolS p with bank := (withRegs [(.hqEs, 2)]).bank, drives := [(0, driveW), (1, { driveW with member := some 1 })] }
def evacPool : Pool := { poolW with members := [(0, { memberW with state := .evacuating }), (1, member1)] }
def evacS (p : Pool) : State := { bgS p with drives := [(0, { driveW with state := .evacuating }), (1, { driveW with member := some 1 })] }
def ckptS (v : Volume) : State :=
  { poolS poolW with bank := (withRegs [(.mapCtrl, 1), (.mapCkptCfg, 0x1000000000000)]).bank, volumes := [(1, v)], pools := [(0, { poolW with areaStall := true })] }
def volCk : Volume := { volW with ckpt := some { cut := 0, image := [{ low := 0, high := 4 }] } }
def mapPool : Pool := { poolW with bands := [(2, { bandW with cls := 3 })] }
def volCj : Volume := { volW with ckpt := some { cut := 0, image := [{ low := 0, high := 4, place := some (2, 0) }], job := some 0 } }
def leafLp : Leaf := { low := 0, high := 4, resident := false, dirty := false, place := some (2, 0) }
def volLp : Volume := { volW with leaves := [leafLp] }
def nodeLp : MapNode := { level := 0, vol := 1, mapGen := 0, low := 0, high := 4, seq := 0 }
def lpS : State :=
  { poolS mapPool with volumes := [(1, volLp)], drives := [(0, { driveW with sys := [(slotLba 1, { body := .node nodeLp, ref := sysRef 2 0 })] })] }
def volCf : Volume := { volW with ckpt := some { cut := 0, image := [], rootSent := true } }
def ckFreeS : State :=
  { poolS { poolW with copy := { copied := 1 } } with
    volumes := [(1, volCf)], hbx := { rings := [(0, { slots := [(0, { epoch := 0, seq := 0, body := .mapRoot 1 2 0 1 0 })] })] } }
def volLf : Volume := { volW with leaves := [{ low := 0, high := 4, resident := false }] }

/-- A ring, the Map Cache and a Mover channel. -/
def ringS (r : Ring) : State := { withRegs [(.hbxCtrl, 0x3011)] with hbx := { rings := [(0, r)] } }
def ringFly : Ring := { inflight := [(0, 0)], head := 1, slots := [(0, { epoch := 0, seq := 0, body := .mode 0 0 })] }
def openO : Opening := { epoch := 1, reason := 1, band := 2, members := [0], openSeq := some 0, set := [{ epoch := 1, seq := 0, body := .mode 0 0 }] }
def openPool : Pool := { poolW with copy := { opening := some openO, pagedTo := 2 } }
def openS : State :=
  { poolS openPool with hbx := { rings := [(0, { head := 2, slots := [(1, { epoch := 1, seq := 1, body := .checkpointEnd 1 0 0 0 0 })] })] } }
def pageW : JPage := { idx := 0, band := 0, epoch := 0, time := 0, firstSeq := 0, recs := [], oldestValid := 0, todo := [0] }
def pagePool : Pool := { poolW with copy := { members := [0], inflight := [pageW] } }
def mcOn : State := withRegs [(.mcCtrl, 0xF1), (.mapAreaSize, 1)]
def mcLineW : McLine := { tag := 0, data := [7] }
def mcHit : State := { mcOn with mc := { ways := [(0, mcLineW)] } }
def mcFilling : State := { mcOn with mc := { fills := [{ line := 0, requesters := [1], wayKept := some 3 }] } }
def descH : MovDesc := { src := 0, dst := 0, length := 64, flags := 0x900 }
def movS (x : MovCh) : State := { withRegs [(.movCtrl, 7)] with mov := [(0, x)], sep := { pf0 := { me := true }, pf1 := { me := true } } }
def descS : State :=
  { movS { state := .running, next := some 0 } with mem := [(16, 64), (21, 9)] }

/-- A mailbox request waiting in channel 0. -/
def ctlOn : State := withRegs [(.ctlCtrl, 0xF)]
def busyS (h : Chan) : State := { ctlOn with ctl := { chans := [(0, h)] } }
def reqC (op : Nat) (pay : Bytes) : Chan := { state := .busy, req := pack 32 [(6, 2, op), (12, 4, pay.length)] ++ pay }
def reqS (op : Nat) (pay : Bytes) : State := busyS (reqC op pay)
def opS (id : Nat) (o : Op) : State := { State.reset with ctl := { ops := [(id, o)] } }
def reqOp (op : Nat) (pay : Bytes) (id : Nat) (o : Op) : State := { ctlOn with ctl := { chans := [(0, reqC op pay)], ops := [(id, o)] } }
def i3cS : State := { ctlOn with ctl := { i3cAddr := some 8 } }
def inbandS : State := { ctlOn with net := linkUp0.net, ctl := { inbandSecret := some [], nonce := 0 } }
def reqPool (op : Nat) (pay : Bytes) : State := { reqS op pay with pools := [(0, poolW)], volumes := [(1, volW)], drives := [(0, driveW)] }
def readyD : Drive := { driveW with state := .ready, pool := none, member := none }
def createS : State :=
  { reqS 0x200 (pack 16 [(0, 1, 1), (1, 1, 1), (5, 1, 2), (9, 1, 1)]) with drives := [(0, readyD), (1, readyD)] }
def identW : DriveIdent :=
  { uniqueId := 1, serial := [], capacity := 0, lbaData := 4096, metaBytes := 16, protInfo := false, offers16 := true, offers64 := false, formatOk := true
    sepMeta := true, sgl := true, vwc := true, mdts := 0, queuePairs := 64, queueEntries := 1024, fdpHandles := 0 }
def ledW : Ledger := { poolId := 5, gen := 1, seed := 0, controller := 0, layout := 1, k := 1, stripShift := 4, spare := 0, balance := 1, logReserve := 1 }
def importS : State := { reqS 0x201 [5] with drives := [(0, { readyD with ledger0 := some ledW, ident := some identW })] }
theorem import_kept : keptRing importS ledW = none := by
  unfold keptRing; split <;> decide
theorem import_not_refused : importRefused importS ledW (fieldAt (Safety.payOf importS 0) 8 1) = none := by
  have hm : metRing importS ledW = none := by unfold metRing; rw [import_kept]; rfl
  unfold importRefused; rw [import_kept, hm]; decide
def admitS (pay : Bytes) (d : Drive) : State := { reqS 0x401 pay with pools := [(0, poolW)], drives := [(0, d)] }
def actS (hold : Nat) : State :=
  { withRegs [(.ctlCtrl, 0xF), (.hqEs, 4)] with ctl := { chans := [(0, reqC 0x602 [1, BitVec.ofNat 8 hold])] } }
def actW : Activation := { slot := 1, opId := 5, hold := true, holdFrom := 0, waitFrom := 0 }
def sessW : KekSession := { id := 1, pair := 0, clientPub := [], since := 0 }
def sessS : State := { ctlOn with ctl := { chans := [(0, reqC 0x701 [1])], sessions := [sessW] } }
def keyS (op : Nat) (pay : Bytes) (v : Volume) : State :=
  { ctlOn with ctl := { chans := [(0, reqC op pay)], keks := [(0, [])] }, pools := [(0, poolW)], volumes := [(1, v)] }
theorem health_two : healthReport (reqS 0x800 [2]) (fieldAt (Safety.payOf (reqS 0x800 [2]) 0) 0 1)
    (fieldAt (Safety.payOf (reqS 0x800 [2]) 0) 1 1) = some (feedPayload (reqS 0x800 [2])) := by
  have h : fieldAt (Safety.payOf (reqS 0x800 [2]) 0) 0 1 = 2 := by decide
  rw [h]; rfl

/-- Dumps, samples, slots and the service endpoint. -/
def dumpW : Dump := { seq := 0, trigger := 2, period := 0, time := 0, missed := 0, ctrs := [], dramLeft := true, pf1Left := true }
def sampleW : FrameSample :=
  { time := 0, port := 0, egress := false, len := 64, disposition := 0, captured := [], cmd := 0, seq := 0, sampleSeq := 0 }
def lanesW : LaneFindings := { lane0Bad := false, lane1Bad := false, shortTo := none, reversed := false, polInv := false, gen := 5 }
def trainS : State :=
  { withRegs [(.drvCtrl, 3)] with drives := [(0, { state := .present, prsntN := false, prsnt := true, pwren := true, perst := false })] }
def sepS (l : List (Reg × Word)) : State := { withRegs l with sep := { linkUp := true } }
def winBadS : State := withRegs [(.sepWinShdBase 0, 0xB0000000000)]
theorem win_bad : winCommitOk (bankGet winBadS (.sepWinShdBase 0)) (bankGet winBadS (.sepWinShdCtrl 0)) = false := by
  have h1 : (bankGet winBadS (.sepWinShdBase 0)).toNat = 0xB0000000000 := by decide
  have h2 : winBytes (bankGet winBadS (.sepWinShdCtrl 0)) = 4096 := by decide
  have h3 : winRegion 0xB0000000000 4096 = none := by
    unfold winRegion
    have k1 : ¬ (0xB0000000000 + 4096 ≤ Config.installedDramGib * 2 ^ 30 ∧ 0xB0000000000 + 4096 ≤ 2 ^ 41) := fun h => absurd h.2 (by decide)
    rw [if_neg k1]; decide
  unfold winCommitOk; rw [h1, h2, h3]; rfl
def winS : State :=
  { withRegs [(.sepCtrl, 7)] with sep := { linkUp := true, wins := [(0, { base := 4096, ctrl := 7 })] } }
def sepDownS : State :=
  { withRegs [(.sepCtrl, 7)] with boot := { step := 4 }, rails := { State.reset.rails with coreReset := false } }
def lockS : State :=
  { State.reset with
    clk := { State.reset.clk with sepLock := true, netLock := 0xFF, drvLock := 0xFFFF }, rails := { State.reset.rails with coreReset := false } }

/-- Both Gloves running with good feeds, one of them with the Crown; a start at a step. -/
def gloveW : GloveSt := { alive := true, link := true }
def glovesS : State :=
  { State.reset with stby := { feedA := { state := 2 }, feedB := { state := 2 }, a := gloveW, b := gloveW } }
def crownS : State := { glovesS with stby := { glovesS.stby with a := { gloveW with crown := true, request := true } } }
def stepS (n : Nat) : State := { State.reset with rails := { coreReset := false }, boot := { step := n } }
theorem win_out : ¬ (((bankGet winBadS (.sepWinShdBase 0)).toNat + winBytes (bankGet winBadS (.sepWinShdCtrl 0)) ≤ Config.installedDramGib * 2 ^ 30 ∧
      (bankGet winBadS (.sepWinShdBase 0)).toNat + winBytes (bankGet winBadS (.sepWinShdCtrl 0)) ≤ 2 ^ 41) ∨
    (bit (bankGet winBadS (.sepWinShdCtrl 0)) 2 = false ∧
      ((0xA0000000000 ≤ (bankGet winBadS (.sepWinShdBase 0)).toNat ∧
          (bankGet winBadS (.sepWinShdBase 0)).toNat + winBytes (bankGet winBadS (.sepWinShdCtrl 0)) ≤ 0xA0020000000) ∨
        (0xC0000000000 ≤ (bankGet winBadS (.sepWinShdBase 0)).toNat ∧
          (bankGet winBadS (.sepWinShdBase 0)).toNat + winBytes (bankGet winBadS (.sepWinShdCtrl 0)) ≤ 0xC0040000000)))) := by
  rintro (h | h)
  · exact absurd h.2 (by decide)
  · exact absurd h.2 (by decide)
theorem win_good : winCommitOk (bankGet (withRegs [(.sepWinShdBase 63, 0xA0000000000)]) (.sepWinShdBase 63))
    (bankGet (withRegs [(.sepWinShdBase 63, 0xA0000000000)]) (.sepWinShdCtrl 63)) = true := by
  have h1 : bankGet (withRegs [(.sepWinShdBase 63, 0xA0000000000)]) (.sepWinShdBase 63) = 0xA0000000000 := by decide
  have h2 : winBytes (bankGet (withRegs [(.sepWinShdBase 63, 0xA0000000000)]) (.sepWinShdCtrl 63)) = 4096 := by decide
  have h3 : winRegion (BitVec.toNat (0xA0000000000 : Word)) 4096 = some 1 := by
    unfold winRegion
    rw [if_neg (fun h => absurd h.2 (by decide))]; decide
  unfold winCommitOk; rw [h1, h2, h3]; decide
theorem mem_cell : memRegion 0x80000000000 16 = some 1 := by
  unfold memRegion
  rw [if_neg (fun h => absurd h.2 (by decide))]; decide
def chainS : State :=
  { State.reset with tel := { ctrs := [(0, { value := 281474976710655, chain := true }), (5, { value := 281474976710655 })] } }

/-! ## Ill-formed terms are refused -/

theorem test_refuses_lane : wellFormed (.arpRequest 64 0 0) = false ∧ wellFormed (.arpRequest 63 0 0) = true := by decide
theorem test_refuses_priority : wellFormed (.xon 0 8) = false ∧ wellFormed (.xon 0 7) = true := by decide
theorem test_refuses_quanta : wellFormed (.pfcFrame 0 0 [1]) = false := by decide
theorem test_refuses_access : wellFormed (.registerWrite 160 0 8 0 0 0) = false ∧ wellFormed (.registerWrite 0 0 4097 0 0 0) = false ∧
    wellFormed (.registerWrite 0 (2 ^ 48) 8 0 0 0) = false ∧ wellFormed (.registerWrite 159 0 8 0 0 0) = true := by decide
theorem test_refuses_queue_pair : wellFormed (.cmRtu 65536) = false ∧ wellFormed (.ackPacket 0 16777216) = false := by decide
theorem test_refuses_path : wellFormed (.pathProbe 0 8) = false := by decide
theorem test_refuses_region : wellFormed (.revokeTimeout 16384) = false ∧ wellFormed (.qpRevoke 4294967296) = false := by decide
theorem test_refuses_connection : wellFormed (.identify 1024) = false ∧ wellFormed (.flush 0 64) = false := by decide
theorem test_refuses_pool : wellFormed (.writeAck 4 0) = false ∧ wellFormed (.watermark 4) = false := by decide
theorem test_refuses_slot : wellFormed (.nvmeFlushSubmit 64) = false ∧ wellFormed (.cellReadTimeout 64) = false := by decide
theorem test_refuses_stream_and_member : wellFormed (.logRecordIssue 0 4096) = false ∧ wellFormed (.copyMemberEvict 0 64) = false := by decide
theorem test_refuses_volume : wellFormed (.checkpointStart 4096) = false := by decide
theorem test_refuses_epoch_reason : wellFormed (.epochOpen 0 0) = false ∧ wellFormed (.epochOpen 0 256) = false := by decide
theorem test_refuses_test_group : wellFormed (.hbxSelftestDone [512]) = false := by decide
theorem test_refuses_cache_address : wellFormed (.mapCacheFill (2 ^ 41)) = false ∧ wellFormed (.mapCacheLoad 160 0 .ok) = false ∧
    wellFormed (.writeThroughDrain 4) = false ∧ wellFormed (.prefetch 256) = false := by decide
theorem test_refuses_diag_offset : wellFormed (.diagWindowAccess 4 none) = false ∧ wellFormed (.diagWindowAccess (2 ^ 30) none) = false := by decide
theorem test_refuses_port : wellFormed (.cellDepart 160 .ok) = false ∧ wellFormed (.accumulatorTimeout 2048) = false := by decide
theorem test_refuses_pair_and_channel : wellFormed (.pairMismatch 2) = false ∧ wellFormed (.doorbellRing 8) = false := by decide
theorem test_refuses_i3c : wellFormed (.entdaa 128) = false ∧ wellFormed (.setEndpointId 256) = false := by decide
theorem test_refuses_mover : wellFormed (.stop 64) = false ∧ wellFormed (.shadowWrite 0 4 0) = false ∧ wellFormed (.moverReadGrant 2) = false := by decide
theorem test_refuses_rollback : wellFormed (.rollbackRaise (2 ^ 32)) = false := by decide

/-! ## The spec's worked examples -/

/-- The 3+2 stripe of R19. -/
theorem test_parity : parityP 1 [[0x35], [0x8C], [0x5A]] = [0xE3] ∧ parityQ 1 [(0, [0x35]), (1, [0x8C]), (2, [0x5A])] = [0x45] := by decide
theorem test_solve_data_and_p : gfSolve 3 1 [(0, [0x35]), (2, [0x5A]), (4, [0x45])] [1, 3] = some [(1, [0x8C]), (3, [0xE3])] := by decide +kernel
theorem test_solve_two_data : gfSolve 3 1 [(0, [0x35]), (3, [0xE3]), (4, [0x45])] [1, 2] = some [(1, [0x8C]), (2, [0x5A])] := by decide +kernel

/-- The direct volume block after R27, the ring slot after R82, the drive of R13. -/
theorem test_direct_place : directPlace 16 2 10000000 = (2, 1573, 10, 0) := by decide
theorem test_ring_slot : 19088743 % ringN = 1394023 := by decide
theorem test_drive_slots : slotsOf (131072 * 2 ^ 30) = 131071 ∧ slotLba 0 = 0x4000 := by decide

/-- The leaf line of chapter 5 and its place in the diagnostic window. -/
theorem test_map_line : mcSlice (0x1234567AC0 / 64) = 3 ∧ mcSet (0x1234567AC0 / 64) = 5754 ∧ mcTag (0x1234567AC0 / 64) = 0x48D1 := by decide
theorem test_diag_place : diagPlace 0x359E940 = .data (wayKey (0x1234567AC0 / 64) 5) 0 := by decide

/-- Register addresses of chapter 17, byte order of chapter 0. -/
theorem test_register_address : regAddr (.movChStatus 37) = 0xF00007022A8 ∧ regAddr (.telCtr 0x341) = 0xF0000B13418 := by decide
theorem test_register_at : regOfAddr 0xF00007022A8 = some (.movChStatus 37) ∧ regOfAddr 0xF0000B13418 = some (.telCtr 0x341) := by decide
theorem test_byte_order : leBytes 8 0x1122334455667788 = [0x88, 0x77, 0x66, 0x55, 0x44, 0x33, 0x22, 0x11] := by decide

/-- The Brim at reset (R181). -/
theorem test_brim : brimSize State.reset = 491520 ∧ guaranteeSum State.reset = 163840 := by decide +kernel

/-- The chained counters of chapter 15, the window of R349, the start attempts of R327. -/
def pausedS : State := { State.reset with tel := { ctrs := [(0x341, { value := 0xFFFFFFFFFFFE, chain := true }), (0x342, { value := 4 })] } }
theorem test_chain : (ctrOf (countBy (countBy pausedS 0x341 1) 0x341 1).tel.ctrs 0x341).value = 0 ∧
    (ctrOf (countBy (countBy pausedS 0x341 1) 0x341 1).tel.ctrs 0x342).value = 5 := by decide
theorem test_window : winTranslate { State.reset with sep := { wins := [(3, { base := 0x010040000000, ctrl := 0x3FFF0003, version := 7 })] } }
    { off := 0x30000000, len := 8, write := none } = some 0x010040000000 := by decide
theorem test_start_slots : slotOfC { attempts := 0 } = 0 ∧ slotOfC { attempts := 3 } = 1 ∧ slotOfC { attempts := 6 } = 2 := by decide

/-- The check values of CRC-32C and of the CRC-64 taken (log entry 5). -/
theorem test_crc : crc32c [0x31, 0x32, 0x33, 0x34, 0x35, 0x36, 0x37, 0x38, 0x39] = 0xE3069283 ∧
    crc64 [0x31, 0x32, 0x33, 0x34, 0x35, 0x36, 0x37, 0x38, 0x39] = 0xAE8B14860A799888 := by decide +kernel

theorem witness_NetworkLinkAndAnswers :
    (∃ (lane : Nat) (s : State), lane < 64 ∧ (netPortAt s lane).link = false ∧ linkAllowed s lane = true) ∧
    (∃ (lane : Nat) (target : BitVec 128) (mac : BitVec 48) (s : State), lane < 64 ∧ (netPortAt s lane).link = true ∧ isV4 target = true ∧ portGid s lane target = true) ∧
    (∃ (lane : Nat) (target : BitVec 128) (mac : BitVec 48) (s : State), lane < 64 ∧ (netPortAt s lane).link = true ∧ isV4 target = false ∧ portGid s lane target = true) ∧
    (∃ (lane : Nat) (target : BitVec 128) (v6 : Bool) (payload : Bytes) (s : State), (netPortAt s lane).link = true ∧ isV4 target = !v6 ∧ portGid s lane target = true ∧ (rateWindow (netPortAt s lane).echoWin (nowOf s) 1000).2 = true ∧ lane < 64) ∧
    (∃ (lane : Nat) (frame : Bytes) (s : State), (netPortAt s lane).link = true) ∧
    (∃ (lane : Nat) (lldp : Bool) (target : BitVec 128) (frame : Bytes) (s : State), lane < 64 ∧ (netPortAt s lane).link = true ∧ (lldp || portGid s lane target) = true ∧ (rateWindow (netPortAt s lane).ctlWin (nowOf s) 10000).2 = true) ∧
    (∃ (lane : Nat) (fault : FrameFault) (s : State), lane < 64 ∧ (netPortAt s lane).link = true ∧ fault ≠ .notAccepted ∧ Safety.counts s (0x200 + lane) = true ∧ Safety.counts s (0x280 + lane) = true) ∧
    (∃ (lane qpn : Nat) (s : State), lane < 64 ∧ (netPortAt s lane).link = true ∧ qpn ≠ 1 ∧ Safety.counts s (0x200 + lane) = true ∧ Safety.counts s (0x3C0 + lane) = true) :=
  ⟨⟨3, linkReady, by decide⟩,
   ⟨3, 0xFFFF0A000001, 1, linkUp4, by decide⟩,
   ⟨3, 0xFE800000000000000000000000000001, 1, linkUp6, by decide⟩,
   ⟨3, 0xFFFF0A000001, false, [1, 2], linkUp4, by decide⟩,
   ⟨63, [7], linkUp63, by decide⟩,
   ⟨0, true, 0, [7], linkUp0, by decide⟩,
   ⟨63, .icrc, linkUp63, by decide⟩,
   ⟨63, 2, linkUp63, by decide⟩⟩

theorem witness_PriorityFlowControlAndStamps :
    (∃ (lane i : Nat) (enabled : BitVec 8) (quanta : List Nat) (s : State), lane < 64 ∧ i < 8 ∧ (netPortAt s lane).link = true ∧ enabled.getLsbD i = true ∧ bits (bankGet s (.netPortCtrl (portOfLane s lane))) 31 24 / 2 ^ i % 2 = 1 ∧ ((tget (netPortAt s lane).prios i).getD {}).egressWdAt = none) ∧
    (∃ (lane prio : Nat) (s : State), ((tget (netPortAt s lane).prios prio).getD {}).xoffFrom.isSome = true) ∧
    (∃ (lane prio from_ : Nat) (s : State), ((tget (netPortAt s lane).prios prio).getD {}).pausedFrom = some from_ ∧ ((tget (netPortAt s lane).prios prio).getD {}).egressWdAt = none ∧ fld s .netWdogCfg 15 0 ≠ 0 ∧ from_ + 1000000 * fld s .netWdogCfg 15 0 ≤ ((tget (netPortAt s lane).prios prio).getD {}).pausedUntil) ∧
    (∃ (lane prio from_ : Nat) (s : State), ((tget (netPortAt s lane).prios prio).getD {}).xoffFrom = some from_ ∧ ((tget (netPortAt s lane).prios prio).getD {}).ingressWdAt = none ∧ fld s .netWdogCfg 31 16 ≠ 0) ∧
    (∃ (lane prio at_ : Nat) (s : State), ((tget (netPortAt s lane).prios prio).getD {}).egressWdAt = some at_) ∧
    (∃ (e : TxStamp) (r : List TxStamp) (s : State), s.net.stamps = e :: r) :=
  ⟨⟨63, 3, 8, [0, 0, 0, 65535], linkUp63, by decide⟩,
   ⟨0, 3, xoffState, by decide⟩,
   ⟨0, 3, 5, xoffState, by decide⟩,
   ⟨0, 3, 5, xoffState, by decide⟩,
   ⟨0, 4, 5, xoffState, by decide⟩,
   ⟨{ port := 1, tag := 2, time := 3 }, [], { State.reset with net := { stamps := [{ port := 1, tag := 2, time := 3 }] } }, by decide⟩⟩

theorem witness_FabricCellsAndAccumulators :
    (∃ (input q : Nat) (c : Cell) (s : State), s.fab.waiting = [] ∧ headerOk c.hdr = true ∧ c.hdr.poison = false ∧ c.hdr.targets = [q] ∧ portUp s q = true ∧ admits s q 1 = true ∧ (outPort s q).frames.all (fun f => !f.discard) = true) ∧
    (∃ (q prio left rr : Nat) (c : QCell) (s : State), 64 ≤ q ∧ s.fab.waiting = [] ∧ pickCell s q = some (c, prio, left, rr)) ∧
    (∃ (q : Nat) (s : State), q < 160 ∧ s.fab.waiting = [] ∧ portUp s q = true) ∧
    (∃ (b : AccBind) (s : State), s.par.waiting = [] ∧ flag s .parCtrl (b.acc / 512) = true ∧ thas s.par.accs b.acc = false ∧ admits s (136 + b.acc / 512) (2 * b.stripBytes / 256) = true) ∧
    (∃ (i position offset : Nat) (isNew poison : Bool) (payload : Bytes) (a : Acc) (s : State), tget s.par.accs i = some a ∧ a.done = false ∧ a.seen + 1 < a.expected) ∧
    (∃ (i position offset : Nat) (isNew : Bool) (payload : Bytes) (a : Acc) (s : State), tget s.par.accs i = some a ∧ a.done = false ∧ a.seen + 1 = a.expected ∧ a.poisoned = false) ∧
    (∃ (i position offset : Nat) (isNew poison : Bool) (payload : Bytes) (a : Acc) (s : State), tget s.par.accs i = some a ∧ a.done = true) ∧
    (∃ (i : Nat) (a : Acc) (s : State), s.par.waiting = [] ∧ tget s.par.accs i = some a ∧ a.done = false ∧ s.pools.all (fun e => e.2.units.all (fun u => u.2.acc != some i)) = true) ∧
    (∃ (i pi w : Nat) (a : Acc) (s : State), tget s.par.accs i = some a ∧ a.done = false ∧ s.pools.findSome? (fun e => (e.2.units.find? (fun u => u.2.acc == some i)).map (fun u => (e.1, u.1))) = some (pi, w)) :=
  ⟨⟨1, 64, oneCell, portsUp, by decide⟩,
   ⟨64, 0, 0, 2, { id := 0, cell := oneCell }, cellQueued, by decide⟩,
   ⟨64, cellQueued, by decide⟩,
   ⟨accOne, parOn, by decide⟩,
   ⟨5, 0, 0, false, false, [1], { bind := accOne, boundAt := 0, expected := 4 }, accBound, by decide⟩,
   ⟨5, 0, 0, false, [1], { bind := accOne, boundAt := 0, expected := 4, seen := 3 }, { parOn with par := { accs := [(5, { bind := accOne, boundAt := 0, expected := 4, seen := 3 })] } }, by decide⟩,
   ⟨5, 0, 0, false, false, [1], { bind := accOne, boundAt := 0, expected := 4, done := true }, { parOn with par := { accs := [(5, { bind := accOne, boundAt := 0, expected := 4, done := true })] } }, by decide⟩,
   ⟨5, { bind := accOne, boundAt := 0, expected := 4 }, accBound, by decide⟩,
   ⟨5, 0, 5, { bind := accOne, boundAt := 0, expected := 4 }, { accBound with pools := [(0, { poolW with units := [(5, { unitW with acc := some 5 })] })] }, by decide⟩⟩

theorem witness_PacketsRunOnTheirQueuePair :
    (∃ (p : Pkt) (q : Qp) (s : State), qpAt s p.qp = some q ∧ Safety.packetRuns s p.qp true = true ∧ p.psn = q.epsn ∧ q.accepted = []) ∧
    (∃ (p : Pkt) (q : Qp) (idx : Nat) (s : State), qpAt s p.qp = some q ∧ Safety.packetRuns s p.qp true = true ∧ p.psn = q.epsn ∧ q.accepted = [] ∧ writeRegion s q p = some idx ∧ pageFault s q (pagesNeeded (regionAt s idx) (p.va - (regionAt s idx).base) p.payload.length).length = false) ∧
    (∃ (p : Pkt) (q : Qp) (s : State), qpAt s p.qp = some q ∧ Safety.packetRuns s p.qp false = true) ∧
    (∃ (i psn : Nat) (q : Qp) (s : State), qpAt s i = some q ∧ Safety.packetRuns s i false = true ∧ q.state = .rts) ∧
    (∃ (i psn : Nat) (q : Qp) (s : State), qpAt s i = some q ∧ Safety.packetRuns s i false = true ∧ q.state = .rts ∧ sentPsn q psn = true ∧ Safety.nakRetries q psn ≠ 0 ∧ sendsNow s q.lane = true ∧ Safety.paceFree s q = true) ∧
    (∃ (i psn ns : Nat) (q : Qp) (s : State), qpAt s i = some q ∧ Safety.packetRuns s i false = true ∧ sentPsn q psn = true ∧ q.rnrCount = 7) ∧
    (∃ (i code : Nat) (q : Qp) (s : State), qpAt s i = some q ∧ Safety.packetRuns s i false = true ∧ (code = 1 ∨ code = 2 ∨ code = 3)) ∧
    (∃ (i psn : Nat) (q : Qp) (s : State), qpAt s i = some q ∧ Safety.packetRuns s i true = true ∧ psn = q.epsn) :=
  ⟨⟨{ qp := 0, psn := 16777215 }, { qpA with epsn := 16777215 }, withQp { qpA with epsn := 16777215 }, by decide⟩,
   ⟨{ qp := 0, psn := 0, rkey := 16389, va := 4096, payload := [1, 2] }, qpA, 5, withRegion, by decide⟩,
   ⟨{ qp := 0, psn := 0 }, qpA, withQp qpA, by decide⟩,
   ⟨0, 3, qpA, withQp qpA, by decide⟩,
   ⟨0, 3, qpA, withQp qpA, by decide⟩,
   ⟨0, 3, 640, qpA, withQp qpA, by decide⟩,
   ⟨0, 3, qpA, withQp qpA, by decide⟩,
   ⟨0, 0, qpA, withQp qpA, by decide⟩⟩

theorem witness_TransportTimersAndRevokes :
    (∃ (i : Nat) (q : Qp) (s : State), qpAt s i = some q ∧ s.rdma.fetches.contains i = true ∧ q.waiting = []) ∧
    (∃ (i : Nat) (q : Qp) (from_ : Nat) (s : State), qpAt s i = some q ∧ q.oldestUnacked = some from_ ∧ sendsNow s q.lane = true) ∧
    (∃ (i : Nat) (q : Qp) (from_ : Nat) (s : State), qpAt s i = some q ∧ q.oldestUnacked = some from_ ∧ s.txWait = [] ∧ (netPortAt s q.lane).link = true ∧ netDiscards s q.lane = false ∧ netPaused (reach s (from_ + fld s .qpAckCfg 15 0)) q.lane = true) ∧
    (∃ (i : Nat) (q : Qp) (from_ : Nat) (s : State), qpAt s i = some q ∧ q.oldestUnacked = some from_ ∧ s.txWait = [] ∧ (netPortAt s q.lane).link = false) ∧
    (∃ (i : Nat) (q : Qp) (from_ psn : Nat) (s : State), qpAt s i = some q ∧ q.state = .rts ∧ q.timerFrom = some from_ ∧ firstUnacked q = some psn ∧ q.retryLeft ≠ 0 ∧ sendsNow s q.lane = true ∧ Safety.paceFree s q = true) ∧
    (∃ (i : Nat) (q : Qp) (until_ psn : Nat) (s : State), qpAt s i = some q ∧ q.rnrUntil = some (until_, psn) ∧ sendsNow s q.lane = true ∧ Safety.paceFree s q = true) ∧
    (∃ (i : Nat) (q : Qp) (from_ : Nat) (s : State), qpAt s i = some q ∧ q.nakSent = false ∧ q.gapFrom = some from_ ∧ sendsNow s q.lane = true) ∧
    (∃ (i : Nat) (q : Qp) (r : ReadReq) (from_ : Nat) (s : State), qpAt s i = some q ∧ q.reads = [r] ∧ r.gapFrom = some from_ ∧ r.reissued = false ∧ sendsNow s q.lane = true ∧ Safety.paceFree s q = true) ∧
    (∃ (i : Nat) (q : Qp) (r : ReadReq) (from_ : Nat) (s : State), qpAt s i = some q ∧ q.reads = [r] ∧ r.gapFrom = some from_ ∧ r.reissued = false ∧ sendsNow s q.lane = true ∧ flag s .qpCtrl 2 = true ∧ from_ + 20000 < q.paceAt ∧ nowOf s < q.paceAt) ∧
    (∃ (i path : Nat) (q : Qp) (s : State), qpAt s i = some q ∧ q.state = .rts ∧ q.sprayed = true ∧ ((tget q.paths path).getD {}).congested = true ∧ (List.range q.txPaths).all (fun j => ((tget q.paths j).map (·.congested)).getD false) = false ∧ sendsNow s q.lane = true) ∧
    (∃ (i : Nat) (q : Qp) (s : State), qpAt s i = some q) ∧
    (∃ (rkey : Nat) (s : State), revokeBusy s = false ∧ activeKey s rkey = true) ∧
    (∃ (region : Nat) (s : State), (regionAt s region).state = .revoking) :=
  ⟨⟨0, { qpA with cached := false }, fetching, by decide⟩,
   ⟨0, { qpA with oldestUnacked := some 5 }, 5, withQp { qpA with oldestUnacked := some 5 }, by decide⟩,
   ⟨0, { qpA with oldestUnacked := some 5 }, 5, pausedQp, by decide⟩,
   ⟨0, { qpA with oldestUnacked := some 5 }, 5, { withQp { qpA with oldestUnacked := some 5 } with net := {} }, by decide⟩,
   ⟨0, qpA, 5, 3, withQp qpA, by decide⟩,
   ⟨0, { qpA with rnrUntil := some (640, 3) }, 640, 3, withQp { qpA with rnrUntil := some (640, 3) }, by decide⟩,
   ⟨0, { qpA with gapFrom := some 5 }, 5, withQp { qpA with gapFrom := some 5 }, by decide⟩,
   ⟨0, { qpA with reads := [readA] }, readA, 5, withQp { qpA with reads := [readA] }, by decide⟩,
   ⟨0, { qpA with reads := [readA], paceAt := 30000 }, readA, 5, pacedQp, by decide⟩,
   ⟨0, 1, qpSpray, withQp qpSpray, by decide⟩,
   ⟨0, qpSpray, withQp qpSpray, by decide⟩,
   ⟨16389, withRegion, by decide⟩,
   ⟨5, { withRegion with rdma := { withRegion.rdma with regions := [(5, { state := .revoking })] } }, by decide⟩⟩

theorem witness_ConnectionManagement :
    (∃ (r : CmReq) (s : State), r.lane < 64 ∧ sendsNow s r.lane = true ∧ ingressDrops s r.lane (rxPrio s r.mark) = false ∧ flag s .qpCtrl 0 = true ∧ s.hq.hold.active = true) ∧
    (∃ (r : CmReq) (m : MspPriv) (v c i : Nat) (s : State), r.lane < 64 ∧ sendsNow s r.lane = true ∧ ingressDrops s r.lane (rxPrio s r.mark) = false ∧ flag s .qpCtrl 0 = true ∧ s.ctl.activation = none ∧ s.hq.hold.active = false ∧ r.serviceId = 0x01060000 + fld s .qpCtrl 63 48 ∧ flag s .hqCtrl 0 = true ∧ flag s .hqCtrl 1 = true ∧ parseMsp r.priv = m ∧ m.magic = 0x4D53 ∧ 16 ≤ m.queueEntries ∧ m.queueId = 0 ∧ m.connectionId = 0 ∧ chooseVersion s m.minVersion m.maxVersion = some v ∧ hostHasAccess s m.hostId = true ∧ authRequired s m.hostId = false ∧ freeConn s = some c ∧ areaRoom s (min m.queueEntries 256) 0 = true ∧ freeKey s.rdma.qps 0 65536 = some i) ∧
    (∃ (i : Nat) (q : Qp) (s : State), qpAt s i = some q ∧ q.state = .rtr) ∧
    (∃ (i : Nat) (q : Qp) (s : State), qpAt s i = some q ∧ q.state = .rtr) ∧
    (∃ (i : Nat) (q : Qp) (s : State), qpAt s i = some q ∧ q.state = .rts ∧ q.unacked ≠ []) ∧
    (∃ (i : Nat) (q : Qp) (s : State), qpAt s i = some q ∧ q.state = .error) ∧
    (∃ (i : Nat) (q : Qp) (s : State), qpAt s i = some q ∧ q.state = .sqd ∧ q.dreq = true) ∧
    (∃ (i : Nat) (q : Qp) (s : State), qpAt s i = some q ∧ q.state = .error) :=
  ⟨⟨reqA, { hostReady with hq := { hold := { active := true } } }, by decide⟩,
   ⟨reqA, mspA, 0x33, 0, 0, hostReady, by decide⟩,
   ⟨0, { qpA with state := .rtr }, withQp { qpA with state := .rtr }, by decide⟩,
   ⟨0, { qpA with state := .rtr }, withQp { qpA with state := .rtr }, by decide⟩,
   ⟨0, qpA, withQp qpA, by decide⟩,
   ⟨0, { qpA with state := .error }, withQp { qpA with state := .error }, by decide⟩,
   ⟨0, { qpA with state := .sqd, dreq := true }, withQp { qpA with state := .sqd, dreq := true }, by decide⟩,
   ⟨0, { qpA with state := .error }, withQp { qpA with state := .error }, by decide⟩⟩

theorem witness_InputOutputCommandsStart :
    (∃ (c q : Nat) (k : Conn) (u : Queue) (p : Qp) (b : Bytes) (r : List Bytes) (s : State), connAt s c = some k ∧ queueAt s c q = some u ∧ qpAt s u.qp = some p ∧ p.delivered = b :: r ∧ u.lost = false ∧ u.ring.length < u.entries ∧ u.ring.any (fun h => h.e.cid == fieldAt b 2 2) = false ∧ (queueCmds s c q).any (fun e => e.2.e.cid == fieldAt b 2 2) = false) ∧
    (∃ (c q : Nat) (h : Capsule) (s : State), Safety.headReady s c q false (fun e => e.opcode == 0) = true ∧ headOf s c q = some h ∧ h.e.reservedOk = true ∧ h.e.dataMode = 0 ∧ 2 ≤ esLevel s) ∧
    (∃ (c q : Nat) (h : Capsule) (s : State), Safety.headReady (rollCap s) c q false (fun e => e.opcode == 1) = true ∧ headOf s c q = some h ∧ capHolds (rollCap s) c q = false) ∧
    (∃ (c q : Nat) (s : State), Safety.headReady (rollCap s) c q false (fun e => e.opcode == 1) = true ∧ capHolds (rollCap s) c q = true) ∧
    (∃ (c q : Nat) (s : State), Safety.headReady s c q false (fun e => e.opcode == 2) = true) ∧
    (∃ (c q : Nat) (h : Capsule) (s : State), Safety.headReady (rollCap s) c q false (fun e => e.opcode == 8) = true ∧ headOf s c q = some h ∧ capHolds (rollCap s) c q = false) ∧
    (∃ (c q : Nat) (h : Capsule) (s : State), Safety.headReady (rollCap s) c q false (fun e => e.opcode == 9) = true ∧ headOf s c q = some h ∧ capHolds (rollCap s) c q = false) ∧
    (∃ (slot st : Nat) (k : Cmd) (s : State), cmdAt s slot = some k ∧ k.status = some st ∧ lateCommand s k = false ∧ k.e.opcode ≠ 0) ∧
    (∃ (slot st : Nat) (k : Cmd) (s : State), cmdAt s slot = some k ∧ k.status = some st ∧ lateCommand s k = true ∧ s.boot.quiesce.isSome = false) ∧
    (∃ (c q : Nat) (h : Capsule) (s : State), Safety.nvReady s c q (fun e => e.opcode == 0) = true ∧ headOf s c q = some h ∧ h.e.reservedOk = true ∧ 2 ≤ esLevel s) ∧
    (∃ (c q : Nat) (h : Capsule) (s : State), Safety.nvReady (rollCap s) c q (fun e => e.opcode == 1) = true ∧ headOf s c q = some h ∧ capHolds (rollCap s) c q = false) ∧
    (∃ (c q : Nat) (s : State), Safety.nvReady s c q (fun e => e.opcode == 2) = true) ∧
    (∃ (c q : Nat) (h : Capsule) (s : State), Safety.nvReady (rollCap s) c q (fun e => e.opcode == 8) = true ∧ headOf s c q = some h ∧ capHolds (rollCap s) c q = false) ∧
    (∃ (c q : Nat) (ranges : List (Nat × Nat)) (s : State), Safety.nvReady (rollCap s) c q (fun e => e.opcode == 9) = true ∧ (esLevel s ≠ 3 ∨ (rollCap s).hq.capUnits + ranges.length ≤ 5000)) :=
  ⟨⟨0, 1, connA, queueA, { qpA with delivered := [zeros 64] }, zeros 64, [], hostWith { qpA with delivered := [zeros 64] } connA, by decide⟩,
   ⟨0, 1, capA 0, hostHead (capA 0), by decide⟩,
   ⟨0, 1, capA 1, hostHead (capA 1), by decide⟩,
   ⟨0, 1, { hostHead capW3 with bank := (bankSet (hostHead capW3) .hqEs 3).bank, pools := [(0, { poolW with layout := 4 })], volumes := [(1, { volW with hosts := [1] })], hq := { (hostHead capW3).hq with capUnits := 5000 } }, by decide⟩,
   ⟨0, 1, hostHead (capA 2), by decide⟩,
   ⟨0, 1, capA 8, hostHead (capA 8), by decide⟩,
   ⟨0, 1, capA 9, hostHead (capA 9), by decide⟩,
   ⟨7, 0, { cmdA with status := some 0 }, withCmd { cmdA with status := some 0 }, by decide⟩,
   ⟨7, 0, { cmdA with status := some 0 }, { withCmd { cmdA with status := some 0 } with hq := { conns := [(0, { connA with resetCid := some 3 })], cmds := [(7, { cmdA with status := some 0 })] }, clk := { State.reset.clk with now := 50000000 } }, by decide⟩,
   ⟨0, 1, capA 0, nvHead 1 (capA 0), by decide⟩,
   ⟨0, 1, capA 1, nvHead 1 (capA 1), by decide⟩,
   ⟨0, 1, nvHead 1 (capA 2), by decide⟩,
   ⟨0, 1, capA 8, nvHead 1 (capA 8), by decide⟩,
   ⟨0, 1, [(0, 1)], nvHead 1 (capA 9), by decide⟩⟩

theorem witness_AdminCommandsOfMsp :
    (∃ (c : Nat) (k : Conn) (u : Queue) (h : Capsule) (x : Qp) (s : State), Safety.adminReady s c 0x80 2 = true ∧ headOf s c 0 = some h ∧ connAt s c = some k ∧ queueAt s c 0 = some u ∧ qpLive s u.qp = true ∧ qpAt s u.qp = some x ∧ sendsNow s x.lane = true ∧ flag s .qpCtrl 2 = false ∧ h.e.param0 % 256 = 0 ∧ h.e.length = 4096) ∧
    (∃ (c : Nat) (h : Capsule) (s : State), Safety.adminReady s c 0x80 2 = true ∧ headOf s c 0 = some h ∧ h.e.param0 % 256 = 2 ∧ h.e.length = 4096) ∧
    (∃ (c : Nat) (h : Capsule) (v : Volume) (k : Conn) (s : State), Safety.adminReady s c 0x80 2 = true ∧ headOf s c 0 = some h ∧ h.e.param0 % 256 = 1 ∧ h.e.length = 4096 ∧ volAt s (h.e.param0 / 2 ^ 16 % 4096) = some v ∧ connAt s c = some k ∧ opened v k = true) ∧
    (∃ (c : Nat) (h : Capsule) (s : State), Safety.adminReady s c 0x80 2 = true ∧ headOf s c 0 = some h ∧ h.e.param0 % 256 = 0 ∧ h.e.length = 4096) ∧
    (∃ (c : Nat) (k : Conn) (u : Queue) (h : Capsule) (x : Qp) (s : State), Safety.adminReady s c 0x81 2 = true ∧ headOf s c 0 = some h ∧ connAt s c = some k ∧ queueAt s c 0 = some u ∧ qpLive s u.qp = true ∧ qpAt s u.qp = some x ∧ sendsNow s x.lane = true ∧ flag s .qpCtrl 2 = false ∧ h.e.length ≠ 0 ∧ h.e.length % 64 = 0 ∧ k.log.any (fun e => decide (h.e.param0 ≤ e.seq)) = true) ∧
    (∃ (c : Nat) (k : Conn) (u : Queue) (h : Capsule) (s : State), Safety.adminReady s c 0x82 0 = true ∧ headOf s c 0 = some h ∧ connAt s c = some k ∧ h.e.length = 0 ∧ queueAt s c (h.e.param0 % 64) = some u ∧ u.frozen = true ∧ h.e.param0 % 64 ≠ 0 ∧ k.log.any (fun e => e.queue == h.e.param0 % 64 && decide (h.e.param1 < e.seq)) = false) ∧
    (∃ (c q cid : Nat) (discard : Bool) (rest : List (Nat × Bool)) (u : Queue) (s : State), queueAt s c q = some u ∧ u.restart = (cid, discard) :: rest ∧ (queueCmds s c q).isEmpty = true ∧ q ≠ 0) ∧
    (∃ (c i : Nat) (k : Conn) (h : Capsule) (s : State), Safety.adminReady s c 0x83 0 = true ∧ headOf s c 0 = some h ∧ connAt s c = some k ∧ (4096 ≤ h.e.length ∧ h.e.length ≤ 2 ^ 24) ∧ h.e.addr % 4096 = 0 ∧ k.regions.length < 64 ∧ i < 16384 ∧ ((regionAt s i).state = .free ∧ (regionAt s i).naming = []) ∧ (∀ j, j < i → ¬((regionAt s j).state = .free ∧ (regionAt s j).naming = []))) ∧
    (∃ (c : Nat) (h : Capsule) (s : State), Safety.adminReady s c 0x84 0 = true ∧ headOf s c 0 = some h ∧ h.e.length = 0 ∧ activeKey s (h.e.param0 % 2 ^ 32) = true ∧ (regionAt s (h.e.param0 % 2 ^ 32 % 2 ^ 14)).conn = c) ∧
    (∃ (c : Nat) (h : Capsule) (s : State), Safety.adminReady s c 0x85 0 = true ∧ headOf s c 0 = some h ∧ h.e.length = 0) ∧
    (∃ (c : Nat) (msg : Bytes) (h : Capsule) (s : State), Safety.adminReady s c 0x86 2 = true ∧ headOf s c 0 = some h ∧ h.e.length ≠ 0) ∧
    (∃ (c : Nat) (h : Capsule) (s : State), Safety.adminReady s c 0x87 2 = true ∧ headOf s c 0 = some h ∧ h.e.length ≠ 0) ∧
    (∃ (c : Nat) (k : Conn) (h : Capsule) (s : State), Safety.adminReady s c 0x88 0 = true ∧ headOf s c 0 = some h ∧ h.e.length = 0 ∧ connAt s c = some k ∧ k.pendingEvents = [] ∧ (waitsOf s c).length < 4) ∧
    (∃ (c : Nat) (h : Capsule) (s : State), Safety.adminReady s c 0x89 0 = true ∧ headOf s c 0 = some h ∧ h.e.length = 0) :=
  ⟨⟨0, connQ (admA 0x80 2 4096 0), { queueA with ring := [admA 0x80 2 4096 0] }, admA 0x80 2 4096 0, qpA, ccOff (hostHead0 (admA 0x80 2 4096 0)), by decide⟩,
   ⟨0, admA 0x80 2 4096 2, hostHead0 (admA 0x80 2 4096 2), by decide⟩,
   ⟨0, admA 0x80 2 4096 0x10001, { volW with hosts := [1] }, connQ (admA 0x80 2 4096 0x10001), { hostHead0 (admA 0x80 2 4096 0x10001) with volumes := [(1, { volW with hosts := [1] })] }, by decide⟩,
   ⟨0, admA 0x80 2 4096 0, hostHead0 (admA 0x80 2 4096 0), by decide⟩,
   ⟨0, { connQ (admA 0x81 2 64 1) with log := [errA] }, { queueA with ring := [admA 0x81 2 64 1] }, admA 0x81 2 64 1, qpA, ccOff (hostHead0L (admA 0x81 2 64 1)), by decide⟩,
   ⟨0, { connQ (admA 0x82 0 0 1) with queues := [(0, { queueA with ring := [admA 0x82 0 0 1] }), (1, { queueA with frozen := true })] }, { queueA with frozen := true }, admA 0x82 0 0 1, hostHeadF (admA 0x82 0 0 1), by decide⟩,
   ⟨0, 1, 3, true, [], { queueA with frozen := true, restart := [(3, true)] }, hostWith qpA { connA with queues := [(0, queueA), (1, { queueA with frozen := true, restart := [(3, true)] })] }, by decide⟩,
   ⟨0, 0, connQ (admA 0x83 0 4096 0), admA 0x83 0 4096 0, hostHead0 (admA 0x83 0 4096 0), by decide⟩,
   ⟨0, admA 0x84 0 0 16389, { hostHead0 (admA 0x84 0 0 16389) with rdma := { qps := [(0, qpA)], regions := [(5, { state := .active, tag := 1 })] } }, by decide⟩,
   ⟨0, admA 0x85 0 0 0, hostHead0 (admA 0x85 0 0 0), by decide⟩,
   ⟨0, [1], admA 0x86 2 1 0, hostHead0 (admA 0x86 2 1 0), by decide⟩,
   ⟨0, admA 0x87 2 1 0, hostHead0 (admA 0x87 2 1 0), by decide⟩,
   ⟨0, connQ (admA 0x88 0 0 0), admA 0x88 0 0 0, hostHead0 (admA 0x88 0 0 0), by decide⟩,
   ⟨0, admA 0x89 0 0 0, hostHead0 (admA 0x89 0 0 0), by decide⟩⟩

theorem witness_AdminCommandsOfNvmeOf :
    (∃ (c : Nat) (hostId : BitVec 128) (nqn : Bytes) (s : State), Safety.headReady s c 0 true (isFabrics 1) = true ∧ nvConnected s c 0 = false) ∧
    (∃ (c : Nat) (h : Capsule) (k : Conn) (s : State), Safety.nvReady s c 0 (isFabrics 4) = true ∧ headOf s c 0 = some h ∧ connAt s c = some k ∧ fieldAt h.raw 44 4 = 0x1C) ∧
    (∃ (c : Nat) (h : Capsule) (k : Conn) (s : State), Safety.nvReady s c 0 (isFabrics 0) = true ∧ headOf s c 0 = some h ∧ connAt s c = some k ∧ fieldAt h.raw 44 4 = 0x14) ∧
    (∃ (c : Nat) (msg : Bytes) (s : State), Safety.nvReady s c 0 (isFabrics 5) = true) ∧
    (∃ (c : Nat) (h : Capsule) (s : State), Safety.nvReady s c 0 (isFabrics 6) = true ∧ headOf s c 0 = some h) ∧
    (∃ (c q : Nat) (u : Queue) (s : State), Safety.nvReady s c q (isFabrics 8) = true ∧ queueAt s c q = some u ∧ q ≠ 0) ∧
    (∃ (c : Nat) (h : Capsule) (s : State), Safety.nvReady s c 0 (fun e => e.opcode == 6) = true ∧ headOf s c 0 = some h ∧ h.e.dataMode = 2 ∧ h.e.length = 4096 ∧ fieldAt h.raw 40 1 = 1) ∧
    (∃ (c : Nat) (h : Capsule) (s : State), Safety.nvReady s c 0 (fun e => e.opcode == 2) = true ∧ headOf s c 0 = some h ∧ h.e.dataMode = 2 ∧ fieldAt h.raw 40 1 = 1) ∧
    (∃ (c : Nat) (h : Capsule) (s : State), Safety.nvReady s c 0 (fun e => e.opcode == 9) = true ∧ headOf s c 0 = some h ∧ fieldAt h.raw 40 1 = 0x0B) ∧
    (∃ (c : Nat) (h : Capsule) (k : Conn) (s : State), Safety.nvReady s c 0 (fun e => e.opcode == 0x0A) = true ∧ headOf s c 0 = some h ∧ connAt s c = some k ∧ fieldAt h.raw 40 1 = 0x0F) ∧
    (∃ (c : Nat) (k : Conn) (s : State), Safety.nvReady s c 0 (fun e => e.opcode == 0x0C) = true ∧ connAt s c = some k ∧ k.ctl.pendingEvents = [] ∧ (aersOf s c).length < 4) ∧
    (∃ (c : Nat) (s : State), Safety.nvReady s c 0 (fun e => e.opcode == 0x18) = true) ∧
    (∃ (c : Nat) (s : State), Safety.nvReady s c 0 (fun e => e.opcode == 8) = true) :=
  ⟨⟨0, 5, [], nvHeadU (fabA 1), by decide⟩,
   ⟨0, { fabA 4 with raw := pack 64 [(44, 4, 0x1C)] }, nvConn { fabA 4 with raw := pack 64 [(44, 4, 0x1C)] }, nvHead 0 { fabA 4 with raw := pack 64 [(44, 4, 0x1C)] }, by decide⟩,
   ⟨0, { fabA 0 with raw := pack 64 [(44, 4, 0x14), (48, 4, 1)] }, nvConn { fabA 0 with raw := pack 64 [(44, 4, 0x14), (48, 4, 1)] }, nvHead 0 { fabA 0 with raw := pack 64 [(44, 4, 0x14), (48, 4, 1)] }, by decide⟩,
   ⟨0, [1], nvHead 0 (fabA 5), by decide⟩,
   ⟨0, fabA 6, nvHead 0 (fabA 6), by decide⟩,
   ⟨0, 1, { queueA with ring := [fabA 8] }, nvHead 1 (fabA 8), by decide⟩,
   ⟨0, { admA 6 2 4096 0 with raw := pack 64 [(40, 1, 1)] }, nvHead 0 { admA 6 2 4096 0 with raw := pack 64 [(40, 1, 1)] }, by decide⟩,
   ⟨0, { admA 2 2 4096 0 with raw := pack 64 [(40, 1, 1)] }, nvHead 0 { admA 2 2 4096 0 with raw := pack 64 [(40, 1, 1)] }, by decide⟩,
   ⟨0, { capA 9 with raw := pack 64 [(40, 1, 11), (44, 4, 256)] }, nvHead 0 { capA 9 with raw := pack 64 [(40, 1, 11), (44, 4, 256)] }, by decide⟩,
   ⟨0, { capA 10 with raw := pack 64 [(40, 1, 15)] }, nvConn { capA 10 with raw := pack 64 [(40, 1, 15)] }, nvHead 0 { capA 10 with raw := pack 64 [(40, 1, 15)] }, by decide⟩,
   ⟨0, nvConn (capA 12), nvHead 0 (capA 12), by decide⟩,
   ⟨0, nvHead 0 (capA 24), by decide⟩,
   ⟨0, nvHead 0 (capA 8), by decide⟩⟩

theorem witness_HostTimersAndHold :
    (∃ (c : Nat) (k : Conn) (s : State), connAt s c = some k ∧ k.resetCid.isSome = true ∧ (resetWaits (reach s (k.resetFrom + 50000000)) c k).isEmpty = false) ∧
    (∃ (c : Nat) (k : Conn) (u : Queue) (s : State), connAt s c = some k ∧ queueAt s c 0 = some u ∧ authPending s k = true) ∧
    (∃ (c from_ : Nat) (k : Conn) (s : State), connAt s c = some k ∧ k.lingerFrom = some from_ ∧ connLive s c = false) ∧
    (∃ (c : Nat) (k : Conn) (s : State), connAt s c = some k ∧ k.nvme = true ∧ k.ctl.kato ≠ 0) ∧
    (∃ (s : State), s.hq.hold.active = false) ∧
    (∃ (s : State), s.hq.hold.active = true ∧ nowOf s < s.hq.hold.start + s.hq.hold.windowMs * 1000000) ∧
    (∃ (s : State), s.hq.hold.active = true ∧ s.hq.hold.start + s.hq.hold.windowMs * 1000000 ≤ nowOf s) ∧
    (∃ (s : State), s.hq.hold.active = true ∧ s.hq.hold.exceeded = false) :=
  ⟨⟨0, { connA with resetCid := some 3 }, { hostWith qpA { connA with resetCid := some 3 } with hq := { conns := [(0, { connA with resetCid := some 3 })], cmds := [(7, cmdA)] } }, by decide⟩,
   ⟨0, connA, queueA, { hostWith qpA connA with ctl := { hosts := [{ hostId := 1, require := true, hash := 0 }] } }, by decide⟩,
   ⟨0, 5, { connA with lingerFrom := some 5 }, hostWith { qpA with state := .error } { connA with lingerFrom := some 5 }, by decide⟩,
   ⟨0, { connA with nvme := true, ctl := { kato := 5 } }, hostWith qpA { connA with nvme := true, ctl := { kato := 5 } }, by decide⟩,
   ⟨State.reset, by decide⟩,
   ⟨{ State.reset with hq := { hold := { active := true, windowMs := 1 } } }, by decide⟩,
   ⟨{ State.reset with hq := { hold := { active := true, windowMs := 0 } } }, by decide⟩,
   ⟨{ State.reset with hq := { hold := { active := true } } }, by decide⟩⟩

theorem witness_WriteUnitsPlaceAndPull :
    (∃ (pi w bn : Nat) (p : Pool) (u : Machine.Unit) (b : Band) (s : State), poolAt s pi = some p ∧ unitAt s pi w = some u ∧ u.stage = .waitPlace ∧ wholeStripe u.path = false ∧ u.fold = false ∧ u.fails = 0 ∧ (dataBand s pi (fun b => decide (b.next + u.count ≤ bandBlocks b))).map (fun e => (e.1, bandAt e.2 pi e.1)) = some (bn, some b)) ∧
    (∃ (pi w bn i : Nat) (p : Pool) (u : Machine.Unit) (b : Band) (s : State), poolAt s pi = some p ∧ unitAt s pi w = some u ∧ u.stage = .waitPlace ∧ wholeStripe u.path = true ∧ u.fold = false ∧ u.fails = 0 ∧ freeAccumulator s (2 * stripBlocks p.stripShift * 4096 / 256) = some i ∧ (dataBand s pi (fun b => decide (b.next < stripesPerBand b.stripShift))).map (fun e => (e.1, bandAt e.2 pi e.1)) = some (bn, some b)) ∧
    (∃ (pi w : Nat) (p : Pool) (u : Machine.Unit) (s : State), poolAt s pi = some p ∧ unitAt s pi w = some u ∧ u.stage = .waitPlace ∧ wholeStripe u.path = true ∧ freeAccumulator s (2 * stripBlocks p.stripShift * 4096 / 256) = none) ∧
    (∃ (pi w slot : Nat) (p : Pool) (u : Machine.Unit) (k : Cmd) (q : Queue) (x : Qp) (s : State), poolAt s pi = some p ∧ unitAt s pi w = some u ∧ u.cmd = some slot ∧ cmdAt s slot = some k ∧ k.e.dataMode = 2 ∧ u.zero = false ∧ u.stage = .writing ∧ queueAt s k.conn k.queue = some q ∧ qpAt s q.qp = some x ∧ x.state = .rts ∧ sendsNow s x.lane = true ∧ x.reads.length < x.maxReads ∧ u.pulled < u.count * 4096 ∧ Safety.paceFree s x = true ∧ (pullSlots p u).all (fun d => admits s (64 + d) ((pullLength p u + 255) / 256)) = true) ∧
    (∃ (pi w pos : Nat) (p : Pool) (u : Machine.Unit) (b : Band) (g : Target) (s : State), poolAt s pi = some p ∧ entryOnFlash p u.band = true ∧ unitAt s pi w = some u ∧ bandAt s pi u.band = some b ∧ u.targets.find? (fun t => t.pos == pos) = some g ∧ u.stage = .writing ∧ u.path ≠ .log ∧ g.missing = false ∧ g.issued < g.count ∧ driveOk s g.slot = true ∧ (List.range (min 4 (min (segMax s g.slot) (g.count - g.issued)))).all (fun i => (unitBlk u.band b u pos ((g.lba - slotLba 0) % 0x40000 + g.issued + i)).isSome) = true ∧ queueRoom (driveAt s g.slot) (queueFor (driveAt s g.slot) (engineFor s (.unit pi w pos g.issued))) = true) ∧
    (∃ (pi w pos : Nat) (p : Pool) (u : Machine.Unit) (b : Band) (g : Target) (s : State), poolAt s pi = some p ∧ entryOnFlash p u.band = true ∧ unitAt s pi w = some u ∧ bandAt s pi u.band = some b ∧ u.targets.find? (fun t => t.pos == pos) = some g ∧ u.stage = .writing ∧ u.path ≠ .log ∧ g.missing = false ∧ g.issued < g.count ∧ driveOk s g.slot = true ∧ (List.range (min 4 (min (segMax s g.slot) (g.count - g.issued)))).all (fun i => (unitBlk u.band b u pos ((g.lba - slotLba 0) % 0x40000 + g.issued + i)).isSome) = true ∧ queueRoom (driveAt s g.slot) (queueFor (driveAt s g.slot) (engineFor s (.unit pi w pos g.issued))) = false) ∧
    (∃ (port pi w pos block : Nat) (u : Machine.Unit) (b : Band) (s : State), unitAt s pi w = some u ∧ bandAt s pi u.band = some b ∧ (unitBlk u.band b u pos block).isSome = true) ∧
    (∃ (port pi w pos block : Nat) (u : Machine.Unit) (b : Band) (s : State), unitAt s pi w = some u ∧ bandAt s pi u.band = some b ∧ unitBlk u.band b u pos block = none) ∧
    (∃ (port pi w : Nat) (u : Machine.Unit) (h : Nat × Nat × Nat × Nat) (s : State), s.pools.findSome? (fun e => e.2.units.findSome? (fun u =>
        (u.2.waitsHold.find? (fun h => h.1 == port)).map (fun h => (e.1, u.1, u.2, h)))) = some (pi, w, u, h) ∧ inPlace u.path = false) ∧
    (∃ (port pi w : Nat) (u : Machine.Unit) (h : Nat × Nat × Nat × Nat) (s : State), s.pools.findSome? (fun e => e.2.units.findSome? (fun u =>
        (u.2.waitsHold.find? (fun h => h.1 == port)).map (fun h => (e.1, u.1, u.2, h)))) = some (pi, w, u, h) ∧ inPlace u.path = true ∧ unitAt s pi w = some u ∧ u.fails < 3) ∧
    (∃ (pool : Nat) (p : Pool) (s : State), poolAt s pool = some p ∧ p.copy.hdrQueue ≠ [] ∧ p.copy.hdrInflight.length < 8 ∧ (newestCopy p.copy).2 ≠ [] ∧ entryOnFlash p (newestCopy p.copy).1 = true ∧ hdrReusable s p p.copy.nextHdr = true) ∧
    (∃ (pool stream : Nat) (p : Pool) (st : LogStream) (r : LogRec) (b : Band) (s : State), poolAt s pool = some p ∧ p.streams[stream]? = some st ∧ st.recs.find? (fun r => !r.issued) = some r ∧ tget p.bands r.band = some b ∧ entryOnFlash p r.band = true ∧ (st.recs.filter (fun x => x.issued && decide (x.donePos.length < b.w))).length < 4 ∧ (List.range (min 4 (1 + r.dataBlocks))).all (fun i => (logBlk p r i).isSome) = true) ∧
    (∃ (pi w : Nat) (p : Pool) (u : Machine.Unit) (s : State), poolAt s pi = some p ∧ unitAt s pi w = some u ∧ durable p u = true ∧ p.units.any (fun e => decide (e.1 < w) && overlapping e.2 u && !e.2.applied) = false ∧ inPlace u.path = true ∧ u.path ≠ .plainInPlace ∧ u.cmd = none) ∧
    (∃ (pi w : Nat) (p : Pool) (u : Machine.Unit) (s : State), poolAt s pi = some p ∧ unitAt s pi w = some u ∧ durable p u = true ∧ p.units.any (fun e => decide (e.1 < w) && overlapping e.2 u && !e.2.applied) = false ∧ inPlace u.path = false ∧ lookupWaits s pi u = false ∧ leavesHere s u = true ∧ u.cmd = none) ∧
    (∃ (pi w : Nat) (p : Pool) (u : Machine.Unit) (s : State), poolAt s pi = some p ∧ unitAt s pi w = some u ∧ (durable p u = false ∨ p.units.any (fun e => decide (e.1 < w) && overlapping e.2 u && !e.2.applied) = true)) ∧
    (∃ (pi w : Nat) (p : Pool) (u : Machine.Unit) (s : State), poolAt s pi = some p ∧ unitAt s pi w = some u ∧ durable p u = true ∧ p.units.any (fun e => decide (e.1 < w) && overlapping e.2 u && !e.2.applied) = false ∧ u.path = .plainInPlace ∧ u.rotation = false ∧ u.cmd = none) ∧
    (∃ (pi w target reason : Nat) (u : Machine.Unit) (s : State), unitAt s pi w = some u ∧ target < 64 ∧ u.path ≠ .log) ∧
    (∃ (pi w target reason : Nat) (u : Machine.Unit) (s : State), unitAt s pi w = some u ∧ target < 64 ∧ u.path = .log) ∧
    (∃ (pi w target reason : Nat) (u : Machine.Unit) (s : State), unitAt s pi w = some u ∧ 64 ≤ target) ∧
    (∃ (pi w : Nat) (bad : List (Nat × Nat)) (p : Pool) (u : Machine.Unit) (b : Band) (s : State), poolAt s pi = some p ∧ unitAt s pi w = some u ∧ tget p.bands u.band = some b ∧ u.stage = .waitLock ∧ stripeLacks p b u.stripe = [] ∧ lockHeld s pi u.band u.stripe = false ∧ u.rotation = false ∧ (u.fold = false ∨ foldFresh s u = true) ∧ p.units.any (fun e => decide (e.1 < w) && e.2.stage == .waitLock && e.2.band == u.band && e.2.stripe == u.stripe) = false) ∧
    (∃ (pi w : Nat) (u : Machine.Unit) (s : State), unitAt s pi w = some u ∧ u.journaled = false ∧ inplaceReady s pi w = true) ∧
    (∃ (pi w : Nat) (s : State), inplaceReady (journalUnit s pi w) pi w = true) ∧
    (∃ (pi w : Nat) (p : Pool) (u : Machine.Unit) (s : State), poolAt s pi = some p ∧ unitAt s pi w = some u ∧ u.journaled = true ∧ u.jPlaced = false ∧ allHere u = true ∧ journalHeld p + u.data.length ≤ 16384 ∧ entryOnFlash p (newestCopy p.copy).1 = true ∧ (takeArea s pi (newestCopy p.copy).1 u.data.length { idx := 0, data := some w }).isSome = true) ∧
    (∃ (pi w : Nat) (u : Machine.Unit) (s : State), unitAt s pi w = some u ∧ u.stage = .acked ∧ u.closing = false ∧ u.toMove = []) :=
  ⟨⟨0, 5, 2, withUnit unitW, unitW, bandW, poolS (withUnit unitW), by decide⟩,
   ⟨0, 5, 2, 0, wholeP, unitF, bandW, wholeS, by decide⟩,
   ⟨0, 5, wholeP, unitF, poolS wholeP, by decide⟩,
   ⟨0, 5, 7, withUnit unitP, unitP, cmdP, queueA, { qpA with maxReads := 4 }, pullS, by decide⟩,
   ⟨0, 5, 0, withUnit { unitD with data := [some edgeW] }, { unitD with data := [some edgeW] }, bandW, { pos := 0, slot := 0, lba := slotLba 1, count := 1 }, poolS (withUnit { unitD with data := [some edgeW] }), by decide⟩,
   ⟨0, 5, 0, withUnit { unitD with data := [some edgeW] }, { unitD with data := [some edgeW] }, bandW, { pos := 0, slot := 0, lba := slotLba 1, count := 1 }, fullQueueS, by decide⟩,
   ⟨64, 0, 5, 0, 0, { unitD with data := [some edgeW] }, bandW, poolS (withUnit { unitD with data := [some edgeW] }), by decide⟩,
   ⟨64, 0, 5, 0, 0, unitD, bandW, poolS (withUnit unitD), by decide⟩,
   ⟨64, 0, 5, { unitD with waitsHold := [(64, 0, 0, 0)] }, (64, 0, 0, 0), poolS (withUnit { unitD with waitsHold := [(64, 0, 0, 0)] }), ⟨rfl, by decide⟩⟩,
   ⟨64, 0, 5, { unitD with path := .rmw, waitsHold := [(64, 0, 0, 0)] }, (64, 0, 0, 0), poolS (withUnit { unitD with path := .rmw, waitsHold := [(64, 0, 0, 0)] }), ⟨rfl, by decide⟩⟩,
   ⟨0, hdrPool, poolS hdrPool, by decide⟩,
   ⟨0, 0, logPool, logStreamW, { band := 2, headerBlock := 0 }, bandW, poolS logPool, by decide⟩,
   ⟨0, 5, withUnit { unitA with path := .rmw }, { unitA with path := .rmw }, poolS (withUnit { unitA with path := .rmw }), by decide⟩,
   ⟨0, 5, withUnit unitA, unitA, poolS (withUnit unitA), by decide⟩,
   ⟨0, 5, withUnit unitD, unitD, poolS (withUnit unitD), by decide⟩,
   ⟨0, 5, withUnit { unitA with path := .plainInPlace }, { unitA with path := .plainInPlace }, poolS (withUnit { unitA with path := .plainInPlace }), by decide⟩,
   ⟨0, 5, 0, 0, unitD, poolS (withUnit unitD), by decide⟩,
   ⟨0, 5, 0, 0, { unitD with path := .log }, poolS (withUnit { unitD with path := .log }), by decide⟩,
   ⟨0, 5, 64, 0, unitD, poolS (withUnit unitD), by decide⟩,
   ⟨0, 5, [], withUnit { unitD with stage := .waitLock, path := .plainInPlace }, { unitD with stage := .waitLock, path := .plainInPlace }, bandW, poolS (withUnit { unitD with stage := .waitLock, path := .plainInPlace }), by decide⟩,
   ⟨0, 5, { unitA with path := .rmw, stage := .waitIntent }, poolS (withUnit { unitA with path := .rmw, stage := .waitIntent }), by decide⟩,
   ⟨0, 5, poolS (withUnit { unitA with path := .rmw, stage := .waitIntent }), by decide⟩,
   ⟨0, 5, withUnit { unitA with path := .rmw, stage := .waitIntent, journaled := true }, { unitA with path := .rmw, stage := .waitIntent, journaled := true }, poolS (withUnit { unitA with path := .rmw, stage := .waitIntent, journaled := true }), by decide⟩,
   ⟨0, 5, { unitA with stage := .acked }, poolS (withUnit { unitA with stage := .acked }), by decide⟩⟩

theorem witness_DriveCommandsComplete :
    (∃ (slot : Nat) (s : State), (driveAt s slot).flushed = true ∧ (driveAt s slot).unflushed ≠ [] ∧ (driveAt s slot).flushing = none) ∧
    (∃ (slot : Nat) (l : List (CmdOwner × Nat)) (s : State), (driveAt s slot).flushing = some l) ∧
    (∃ (slot cid kslot block i pos band t row : Nat) (y : Blk) (c : DrvCmd) (k : Cmd) (r : RdBlk) (b : Band) (s : State), (driveAt s slot).cmds.find? (fun c => c.cid == cid) = some c ∧ c.op = .read ∧ c.owner = .hostRead kslot block pos ∧ cmdAt s kslot = some k ∧ k.reads.findIdx? (fun r => r.block == block) = some i ∧ k.reads[i]? = some r ∧ readPlace (popCmd s slot cid) k.pool r = some (band, b, t, pos, row) ∧ r.got = none ∧ r.bad = none ∧ volOk b k.e.volumeId block y = true) ∧
    (∃ (slot cid pi w pos seg : Nat) (c : DrvCmd) (u : Machine.Unit) (y s : State), (driveAt s slot).cmds.find? (fun c => c.cid == cid) = some c ∧ c.op = .write ∧ c.owner = .unit pi w pos seg ∧ landBlocks s slot c = some y ∧ (driveAt y slot).flushed = false ∧ unitAt s pi w = some u) ∧
    (∃ (cmd block i band t pos row t0 : Nat) (k : Cmd) (r : RdBlk) (p : Pool) (b : Band) (s : State), cmdAt s cmd = some k ∧ k.reads.findIdx? (fun r => r.block == block) = some i ∧ k.reads[i]? = some r ∧ poolAt s k.pool = some p ∧ readPlace s k.pool r = some (band, b, t, pos, row) ∧ r.issuedAt = some t0 ∧ r.got = none ∧ r.bad = none ∧ r.around = false ∧ (readOutstanding s cmd block).contains pos = true ∧ polOf p 0x10 ≠ 0 ∧ p.raCapped = false ∧ (bestPlan (reach s (t0 + (readAroundT s p).floor.toNat)) p band b t pos).isSome = true) ∧
    (∃ (slot cid : Nat) (c : DrvCmd) (s : State), (driveAt s slot).cmds.find? (fun c => c.cid == cid) = some c) ∧
    (∃ (slot t : Nat) (s : State), (driveAt s slot).downSince = some t ∧ (driveAt s slot).linkUp = false) ∧
    (∃ (slot pi : Nat) (s : State), (driveAt s slot).pool = some pi ∧ ((driveAt s slot).state = .member ∨ (driveAt s slot).state = .evacuating)) ∧
    (∃ (slot pi : Nat) (s : State), (driveAt s slot).pool = some pi ∧ ((driveAt s slot).state = .member ∨ (driveAt s slot).state = .evacuating)) :=
  ⟨⟨0, { State.reset with drives := [(0, { driveW with flushed := true, unflushed := [(.unit 0 5 0 0, 1)] })] }, by decide⟩,
   ⟨0, [(.unit 0 5 0 0, 1)], { State.reset with drives := [(0, { driveW with flushed := true, flushing := some [(.unit 0 5 0 0, 1)] })] }, by decide⟩,
   ⟨0, 3, 7, 0, 0, 0, 2, 0, 0, blkR, dcR, cmdR, rdR, bandW, readS, by decide⟩,
   ⟨0, 3, 0, 5, 0, 0, dcW, { unitD with data := [some edgeW] }, (landBlocks landS 0 dcW).getD landS, landS, by decide⟩,
   ⟨7, 0, 0, 2, 0, 0, 0, 0, { cmdR with reads := [{ rdR with issuedAt := some 0 }] }, { rdR with issuedAt := some 0 }, raPool, raBand, raS, by decide⟩,
   ⟨0, 3, dcW, landS, by decide⟩,
   ⟨0, 0, { State.reset with drives := [(0, { driveW with linkUp := false, downSince := some 0 })] }, by decide⟩,
   ⟨0, 0, poolS poolW, by decide⟩,
   ⟨0, 0, poolS poolW, by decide⟩⟩

theorem witness_FoldReclaimAndRotation :
    (∃ (pool : Nat) (bad : List (Nat × Nat)) (p : Pool) (s : State), poolAt s pool = some p ∧ foldOn s p = true ∧ p.background = true) ∧
    (∃ (pool : Nat) (p : Pool) (s : State), poolAt s pool = some p ∧ p.logWinTotal < 10 * p.logWinSuperseded ∧ p.logHalf = false ∧ 2 * p.logHeld ≤ p.logReserveSlots) ∧
    (∃ (pool : Nat) (p : Pool) (s : State), poolAt s pool = some p ∧ 50 * p.logWinSuperseded < p.logWinTotal ∧ nowOf s < p.foldStart + 200000000) ∧
    (∃ (pool : Nat) (p : Pool) (s : State), poolAt s pool = some p ∧ 10 * p.logWinSuperseded ≤ p.logWinTotal ∧ p.logHalf = true ∧ nowOf s < p.foldStart + 200000000) ∧
    (∃ (pool band : Nat) (bad : List (Nat × Nat)) (p : Pool) (s : State), poolAt s pool = some p ∧ p.background = true ∧ p.relocs = [] ∧ oldKeyBlocks s pool p = [] ∧ reclaimOn p = true ∧ ((tget p.bands band).map (·.cls)).getD 0 ≠ 3 ∧ reclaimTarget (endMappedRotations s pool) pool p = some band) ∧
    (∃ (pool band : Nat) (bad : List (Nat × Nat)) (p : Pool) (s : State), poolAt s pool = some p ∧ p.background = true ∧ p.relocs = [] ∧ oldKeyBlocks s pool p = [] ∧ reclaimOn p = true ∧ ((tget p.bands band).map (·.cls)).getD 0 = 3 ∧ reclaimTarget (endMappedRotations s pool) pool p = some band) ∧
    (∃ (pool : Nat) (bad : List (Nat × Nat)) (p : Pool) (s : State), poolAt s pool = some p ∧ p.background = true ∧ p.relocs ≠ []) ∧
    (∃ (pool band : Nat) (p : Pool) (b : Band) (s : State), poolAt s pool = some p ∧ bandAt s pool band = some b ∧ mayFree s pool p band b = true) ∧
    (∃ (vol : Nat) (bad : List (Nat × Nat)) (v : Volume) (r : Rotation) (p : Pool) (band : Nat) (b : Band) (s : State), volAt s vol = some v ∧ v.rotation = some r ∧ poolAt s v.pool = some p ∧ v.bandList[r.list]? = some band ∧ tget p.bands band = some b ∧ keysLoaded s vol v = true ∧ p.background = true ∧ p.units.any (fun u => u.2.vol == vol && u.2.rotation) = false) ∧
    (∃ (pi r0 n : Nat) (u : Machine.Unit) (p : Pool) (v : Volume) (r : Rotation) (s : State), poolAt s pi = some p ∧ volAt s u.vol = some v ∧ u.rows = some (r0, n) ∧ v.rotation = some r ∧ v.bandList[r.list]? = some u.band ∧ r.stripe = u.stripe ∧ r.row = r0) :=
  ⟨⟨0, [], foldPool, poolS foldPool, by decide⟩,
   ⟨0, { poolW with logWinTotal := 5, logWinSuperseded := 1 }, poolS { poolW with logWinTotal := 5, logWinSuperseded := 1 }, by decide⟩,
   ⟨0, { poolW with logWinTotal := 51, logWinSuperseded := 1 }, poolS { poolW with logWinTotal := 51, logWinSuperseded := 1 }, by decide⟩,
   ⟨0, { poolW with logHalf := true }, poolS { poolW with logHalf := true }, by decide⟩,
   ⟨0, 2, [], fullPool, poolS fullPool, by decide⟩,
   ⟨0, 2, [], fullMap, { poolS fullMap with volumes := [(1, { volW with leaves := [{ low := 0, high := 4, dirty := false, place := some (2, 0) }] })] }, by decide⟩,
   ⟨0, [], { poolW with relocs := [relocW] }, poolS { poolW with relocs := [relocW] }, by decide⟩,
   ⟨0, 2, { poolW with bands := [(2, { bandW with state := .closed })] }, { bandW with state := .closed }, poolS { poolW with bands := [(2, { bandW with state := .closed })] }, by decide⟩,
   ⟨1, [], volRot, {}, poolW, 2, bandW, rotS, by decide⟩,
   ⟨0, 0, 16, { unitW with vol := 1, band := 2, rows := some (0, 16) }, poolW, volRot, {}, rotS, by decide⟩⟩

theorem witness_RepairEvacuationAndScrub :
    (∃ (pool band stripe : Nat) (x : Int) (bad : List (Nat × Nat)) (p p1 : Pool) (b b0 : Band) (s : State), poolAt s pool = some p ∧ backgroundOn s pool = true ∧ (repairOrder p).find? (fun x => canRepair s pool p x.2.1 x.2.2) = some (x, band, stripe) ∧ tget p.bands band = some b0 ∧ poolAt (substituteGone s pool band) pool = some p1 ∧ bandAt (substituteGone s pool band) pool band = some b ∧ (writtenStripes b).contains stripe = true ∧ ((stripeLacks p b0 stripe).length ≤ bandTol b ∨ b.mirror = true)) ∧
    (∃ (pool band stripe : Nat) (x : Int) (bad : List (Nat × Nat)) (p : Pool) (b b0 : Band) (s : State), poolAt s pool = some p ∧ backgroundOn s pool = true ∧ (repairOrder p).find? (fun x => canRepair s pool p x.2.1 x.2.2) = some (x, band, stripe) ∧ tget p.bands band = some b0 ∧ bandAt (substituteGone s pool band) pool band = some b ∧ (writtenStripes b).contains stripe = true ∧ bandTol b < (stripeLacks p b0 stripe).length ∧ b.mirror = false ∧ directOwner (substituteGone s pool band) pool band = none) ∧
    (∃ (pool : Nat) (p : Pool) (s : State), poolAt s pool = some p) ∧
    (∃ (slot pi : Nat) (reason : EvacReason) (p : Pool) (s : State), (driveAt s slot).pool = some pi ∧ poolAt s pi = some p ∧ evacTrigger s p slot reason = true ∧ (driveAt s slot).state = .member ∧ mayLeave p = true) ∧
    (∃ (pi d : Nat) (p : Pool) (s : State), s.pools = [(pi, p)] ∧ p.present.filterMap (fun m => m.2.driveSlot) = [d]) ∧
    (∃ (slot pi band j : Nat) (rest bad : List (Nat × Nat)) (p : Pool) (s y : State), (driveAt s slot).pool = some pi ∧ poolAt s pi = some p ∧ backgroundOn s pi = true ∧ p.units = [] ∧ (driveAt s slot).state = .evacuating ∧ p.bands.filterMap (fun e => if e.2.state != .free && e.1 != p.copy.band && some e.1 != p.copy.opening.map (·.band) then
          (e.2.members.findIdx? (fun m => m.1 == memberOfSlot s pi slot)).map (fun j => (e.1, j)) else none) = (band, j) :: rest ∧ p.locks = [] ∧ ((tget p.bands band).map (bandReach s p)).getD false = true ∧ evacPosition s pi band j bad = some y) ∧
    (∃ (slot pi : Nat) (bad : List (Nat × Nat)) (p : Pool) (s : State), (driveAt s slot).pool = some pi ∧ poolAt s pi = some p ∧ backgroundOn s pi = true ∧ p.units = [] ∧ (driveAt s slot).state = .evacuating ∧ p.bands.any (fun e => e.2.state != .free && e.2.members.any (fun m => m.1 == memberOfSlot s pi slot)) = false) ∧
    (∃ (pool band stripe : Nat) (bad : List (Nat × Nat)) (b : Band) (s : State), bandAt s pool band = some b ∧ backgroundOn s pool = true ∧ mayScrub b = true ∧ olderScrub s pool b = false ∧ lockHeld s pool band stripe = false ∧ ((poolAt s pool).map (fun p => bandReach s p b)).getD false = true ∧ ((writtenStripes b).all (fun t => decide (t < b.scrubNext ∨ t = stripe)) = true)) ∧
    (∃ (pool band : Nat) (bad : List (Nat × Nat)) (p : Pool) (b : Band) (s : State), poolAt s pool = some p ∧ tget p.bands band = some b ∧ b.fmt = 3 ∧ b.state ≠ .free ∧ p.locks.any (fun l => l.1 == band) = false ∧ bandReach s p b = true) :=
  ⟨⟨0, 2, 0, 0, [], mirrorPool, mirrorPool, mirrorBand, mirrorBand, bgS mirrorPool, by decide⟩,
   ⟨0, 2, 0, -1, [], lostP, lostBand, lostBand, bgS lostP, by decide⟩,
   ⟨0, poolW, poolS poolW, by decide⟩,
   ⟨0, 0, .command, mirrorPool2, { bgS mirrorPool2 with drives := [(0, { driveW with evacOp := some 1 }), (1, driveW)] }, by decide⟩,
   ⟨0, 0, poolW, poolS poolW, by decide⟩,
   ⟨0, 0, 2, 0, [], [], evacPool, evacS evacPool, (evacPosition (evacS evacPool) 0 2 0 []).getD State.reset, by decide⟩,
   ⟨0, 0, [], { evacPool with bands := [] }, evacS { evacPool with bands := [] }, by decide⟩,
   ⟨0, 2, 0, [], { bandW with state := .closed }, bgS { poolW with bands := [(2, { bandW with state := .closed })] }, by decide⟩,
   ⟨0, 2, [], { poolW with bands := [(2, { bandW with fmt := 3, convertCursor := 16383 })] }, { bandW with fmt := 3, convertCursor := 16383 }, poolS { poolW with bands := [(2, { bandW with fmt := 3, convertCursor := 16383 })] }, by decide⟩⟩

theorem witness_ReplayAndCheckpoints :
    (∃ (pool : Nat) (bad : List (Nat × Nat)) (p : Pool) (s : State), poolAt s pool = some p ∧ p.replayed = false ∧ p.online = true) ∧
    (∃ (vol : Nat) (v : Volume) (p : Pool) (s : State), volAt s vol = some v ∧ v.rootLoaded = false ∧ poolAt s v.pool = some p ∧ mapReach s p = true) ∧
    (∃ (vol : Nat) (v : Volume) (p : Pool) (s : State), volAt s vol = some v ∧ poolAt s v.pool = some p ∧ v.kind = .mapped ∧ flag s .mapCtrl 0 = true ∧ v.rootLoaded = true ∧ v.ckpt = none ∧ ckptDue s p v = true ∧ ckptRunning s v.pool < fld s .mapCkptCfg 51 48) ∧
    (∃ (vol n : Nat) (v : Volume) (c : Ckpt) (p : Pool) (s : State), volAt s vol = some v ∧ v.ckpt = some c ∧ poolAt s v.pool = some p ∧ c.job = none ∧ c.rootSent = false ∧ ckptSettled s p vol c.cut = true ∧ n = (c.image.filter (fun l => l.dirty || l.place.isNone)).length + (innerWritten c.image c.inner).length ∧ (mapPlaces s v.pool (n / 262144 + 2) n).isSome = true) ∧
    (∃ (vol id : Nat) (root : Nat × Nat) (v : Volume) (c : Ckpt) (p : Pool) (s : State), volAt s vol = some v ∧ v.ckpt = some c ∧ poolAt s v.pool = some p ∧ c.job = some id ∧ c.rootSent = false ∧ jobDone p id = true ∧ rootOf c.image c.inner = some root) ∧
    (∃ (vol : Nat) (v : Volume) (c : Ckpt) (p : Pool) (s : State), volAt s vol = some v ∧ v.ckpt = some c ∧ poolAt s v.pool = some p ∧ c.rootSent = true ∧ (ringAt s p.ring).slots.any (fun x => match x.2.body with | .mapRoot u _ _ _ k => u == vol && k == c.cut && decide (x.2.seq < p.copy.copied) | _ => false) = true) ∧
    (∃ (vol low : Nat) (v : Volume) (l : Leaf) (s : State), volAt s vol = some v ∧ v.leaves.find? (fun l => l.low == low && !l.resident) = some l ∧ l.place = none ∧ (poolAt (fitMap s v.pool 1 none) v.pool).map (·.areaStall) = some false) ∧
    (∃ (vol low : Nat) (v : Volume) (l : Leaf) (place : Nat × Nat) (n : MapNode) (s1 s : State), volAt s vol = some v ∧ v.leaves.find? (fun l => l.low == low && !l.resident) = some l ∧ l.place = some place ∧ (poolAt (fitMap s v.pool 1 none) v.pool).map (·.areaStall) = some false ∧ readNode (fitMap s v.pool 1 none) v.pool vol 0 l.low l.high v.mapGen place = (s1, some n)) ∧
    (∃ (vol low : Nat) (v : Volume) (l : Leaf) (p : Pool) (base : List Extent) (s : State), volAt s vol = some v ∧ poolAt s v.pool = some p ∧ v.leaves.find? (fun l => l.low == low) = some l ∧ flashExtents s v.pool vol v l.low l.high = some base) ∧
    (∃ (vol low : Nat) (v : Volume) (l : Leaf) (p : Pool) (s : State), volAt s vol = some v ∧ poolAt s v.pool = some p ∧ v.leaves.find? (fun l => l.low == low) = some l) :=
  ⟨⟨0, [], { poolW with replayed := false }, poolS { poolW with replayed := false }, by decide⟩,
   ⟨1, { volW with rootLoaded := false }, poolW, { poolS poolW with volumes := [(1, { volW with rootLoaded := false })] }, by decide⟩,
   ⟨1, volW, { poolW with areaStall := true }, ckptS volW, by decide⟩,
   ⟨1, 1, volCk, { cut := 0, image := [{ low := 0, high := 4 }] }, mapPool, { poolS mapPool with volumes := [(1, volCk)] }, by decide⟩,
   ⟨1, 0, (2, 0), volCj, { cut := 0, image := [{ low := 0, high := 4, place := some (2, 0) }], job := some 0 }, mapPool, { poolS mapPool with volumes := [(1, volCj)] }, by decide⟩,
   ⟨1, volCf, { cut := 0, image := [], rootSent := true }, { poolW with copy := { copied := 1 } }, ckFreeS, by decide⟩,
   ⟨1, 0, volLf, { low := 0, high := 4, resident := false }, { poolS poolW with volumes := [(1, volLf)] }, by decide⟩,
   ⟨1, 0, volLp, leafLp, (2, 0), nodeLp, (readNode (fitMap lpS 0 1 none) 0 1 0 0 4 0 (2, 0)).1, lpS, by decide⟩,
   ⟨1, 0, volLf, { low := 0, high := 4, resident := false }, poolW, [], { poolS poolW with volumes := [(1, volLf)] }, by decide⟩,
   ⟨1, 0, volLf, { low := 0, high := 4, resident := false }, poolW, { poolS poolW with volumes := [(1, volLf)] }, by decide⟩⟩

theorem witness_HatboxRecordsAndEpochs :
    (∃ (ring : Nat) (q : RecReq) (s : State), portOpen (ringStall s ring) ring = true ∧ (ringAt s ring).queue.find? (fun q => match poolOfRing s ring with | some (_, p) => !(recBlocked p q) | none => true) = some q) ∧
    (∃ (ring pi a b c d : Nat) (p : Pool) (s : State), poolOfRing s ring = some (pi, p)) ∧
    (∃ (pool reason nb : Nat) (p : Pool) (s : State), poolAt s pool = some p ∧ p.replayed = true ∧ p.copy.opening = none ∧ tget p.bands p.copy.band = none ∧ (allocBand s pool 4 []).map (·.1) = some nb) ∧
    (∃ (pool : Nat) (o : Opening) (p : Pool) (s : State), poolAt s pool = some p ∧ p.copy.opening = some o ∧ epochWritten s p o = true) ∧
    (∃ (pool : Nat) (o : Opening) (p : Pool) (s : State), poolAt s pool = some p ∧ p.copy.opening = some o ∧ epochWritten s p o = false) ∧
    (∃ (s : State), s.hbx.driveJournal = false) ∧
    (∃ (ring seq tries : Nat) (x : Rec) (s : State), (ringAt s ring).inflight.find? (fun i => i.1 == seq) = some (seq, tries) ∧ tget (ringAt s ring).slots (seq % ringN) = some x) ∧
    (∃ (ring seq tries : Nat) (x : Rec) (s : State), (ringAt s ring).inflight.find? (fun i => i.1 == seq) = some (seq, tries) ∧ tget (ringAt s ring).slots (seq % ringN) = some x ∧ tries < fld s .hbxCtrl 15 12) ∧
    (∃ (ring seq tries : Nat) (x : Rec) (s : State), (ringAt s ring).inflight.find? (fun i => i.1 == seq) = some (seq, tries) ∧ tget (ringAt s ring).slots (seq % ringN) = some x ∧ fld s .hbxCtrl 15 12 ≤ tries) ∧
    (∃ (ring : Nat) (s : State), (ringAt s ring).remapBusy ≠ [] ∧ (((ringAt s ring).remapBusy.map (segmentRecs s ring)).flatten).any (fun x =>
        !x.crcOk && decide (((poolOfRing s ring).map (fun e => e.2.copy.copied)).getD 0 ≤ x.seq)) = false) ∧
    (∃ (ring pi : Nat) (p : Pool) (s : State), poolOfRing s ring = some (pi, p) ∧ poolAt s pi = some p) ∧
    (∃ (pool first band : Nat) (recs : List Rec) (ms : List Nat) (p : Pool) (s : State), poolAt s pool = some p ∧ p.copy.opening = none ∧ nextRecs s p = (first, recs, band, ms) ∧ recs ≠ [] ∧ ms ≠ [] ∧ p.copy.inflight.length < 4 ∧ entryOnFlash p band = true ∧ (takeArea s pool band 1 { idx := 0, first := first, last := first + recs.length - 1 }).isSome = true) ∧
    (∃ (pi band n place : Nat) (blk : AreaBlk) (p : Pool) (t s : State), poolAt s pi = some p ∧ takeArea s pi band n blk = some (place, t)) ∧
    (∃ (pool member : Nat) (p : Pool) (g : JPage) (s : State), poolAt s pool = some p ∧ p.copy.inflight.find? (fun g => g.todo.contains member) = some g) ∧
    (∃ (pool y : Nat) (p : Pool) (s : State), poolAt s pool = some p ∧ oldestUncopied p (ringAt s p.ring) = some y ∧ (ringAt s p.ring).lagStalled = false) ∧
    (∃ (s : State), s.hbx.selftestBusy = false ∧ s.hbx.dead = false) ∧
    (∃ (failed : List Nat) (s : State), s.hbx.selftestBusy = true) ∧
    (∃ (ring pi : Nat) (value : Word) (p : Pool) (s : State), poolOfRing s ring = some (pi, p) ∧ (ringAt s ring).tail ≤ value.toNat ∧ value.toNat ≤ p.copy.copied) ∧
    (∃ (ring pi : Nat) (value : Word) (p : Pool) (s : State), poolOfRing s ring = some (pi, p) ∧ max p.copy.copied (ringAt s ring).tail < value.toNat) :=
  ⟨⟨0, { body := .mode 0 0 }, ringS { queue := [{ body := .mode 0 0 }] }, by decide⟩,
   ⟨0, 0, 0, 0, 0, 0, poolW, poolS poolW, by decide⟩,
   ⟨0, 1, 0, mirrorPool2, bgS mirrorPool2, by decide⟩,
   ⟨0, openO, openPool, openS, by decide⟩,
   ⟨0, { openO with set := [] }, { openPool with copy := { openPool.copy with opening := some { openO with set := [] } } }, poolS { openPool with copy := { openPool.copy with opening := some { openO with set := [] } } }, by decide⟩,
   ⟨State.reset, by decide⟩,
   ⟨0, 0, 0, { epoch := 0, seq := 0, body := .mode 0 0 }, ringS ringFly, by decide⟩,
   ⟨0, 0, 0, { epoch := 0, seq := 0, body := .mode 0 0 }, ringS ringFly, by decide⟩,
   ⟨0, 0, 15, { epoch := 0, seq := 0, body := .mode 0 0 }, ringS { ringFly with inflight := [(0, 15)] }, by decide⟩,
   ⟨0, ringS { remapBusy := [32] }, by decide⟩,
   ⟨0, 0, poolW, poolS poolW, by decide⟩,
   ⟨0, 0, 0xFFFFFFFF, [{ epoch := 0, seq := 0, body := .mode 0 0 }], [0], { poolW with copy := { members := [0] } }, { poolS { poolW with copy := { members := [0] } } with hbx := { rings := [(0, { head := 1, slots := [(0, { epoch := 0, seq := 0, body := .mode 0 0 })] })] } }, by decide⟩,
   ⟨0, 2, 1, 0, { idx := 0 }, poolW, ((takeArea (poolS poolW) 0 2 1 { idx := 0 }).map (·.2)).getD State.reset, poolS poolW, by decide⟩,
   ⟨0, 0, pagePool, pageW, poolS pagePool, by decide⟩,
   ⟨0, 0, poolW, { poolS poolW with hbx := { rings := [(0, { validAt := [(0, 0)] })] } }, by decide⟩,
   ⟨State.reset, by decide⟩,
   ⟨[], { State.reset with hbx := { selftestBusy := true } }, by decide⟩,
   ⟨0, 0, 1, { poolW with copy := { copied := 1 } }, poolS { poolW with copy := { copied := 1 } }, by decide⟩,
   ⟨0, 0, 2, { poolW with copy := { copied := 1 } }, poolS { poolW with copy := { copied := 1 } }, by decide⟩⟩

theorem witness_MapCacheServesAndKeeps :
    (∃ (requester addr w : Nat) (l : McLine) (s : State), mcServes s addr = true ∧ s.mc.evicting.contains (addr / 64) = false ∧ findWay s (addr / 64) = some (w, l) ∧ l.parityOk = true) ∧
    (∃ (requester addr : Nat) (s : State), mcServes s addr = true ∧ s.mc.evicting.contains (addr / 64) = false ∧ findWay s (addr / 64) = none ∧ inTransit s (addr / 64) = none ∧ findCuff s (addr / 64) = none ∧ s.mc.fills = []) ∧
    (∃ (requester addr : Nat) (s : State), mcServes s addr = false) ∧
    (∃ (addr : Nat) (b : Bytes) (s : State), b ≠ [] ∧ addr % 64 + b.length ≤ 64 ∧ mcServes s addr = true ∧ s.mc.storeWait = [] ∧ wtFits s (addr / 64) = true) ∧
    (∃ (addr : Nat) (b : Bytes) (s : State), b ≠ [] ∧ addr % 64 + b.length ≤ 64 ∧ mcServes s addr = false) ∧
    (∃ (addr w : Nat) (f : McFill) (s : State), s.mc.fills.find? (fun f => f.line == addr / 64) = some f ∧ wtPending s (addr / 64) = false ∧ s.mc.evicting.contains (addr / 64) = false ∧ flag s .mcCtrl 1 = false ∧ f.wayKept = some w) ∧
    (∃ (slice : Nat) (e : WtEntry) (r : List WtEntry) (s : State), wtq s slice = e :: r ∧ s.mc.storeWait = []) ∧
    (∃ (tag : Nat) (spare : Bool) (s : State), s.mc.rangeQ.length < 5) ∧
    (∃ (tag : Nat) (s : State), s.mc.rangeQ.length < 5) ∧
    (∃ (tag : Nat) (s : State), s.mc.rangeQ.length < 5) ∧
    (∃ (tag : Nat) (s : State), s.mc.rangeQ.length < 5) ∧
    (∃ (tag : Nat) (s : State), s.mc.rangeQ.length < 5) ∧
    (∃ (eccs : List (Nat × Ecc)) (op : RangeOp) (rest : List RangeOp) (s : State), s.mc.rangeQ = op :: rest ∧ s.mc.fills = []) ∧
    (∃ (off k w : Nat) (v : Word) (s : State), flag s .mcCtrl 0 = false ∧ diagPlace off = .data k w) :=
  ⟨⟨1, 0, 0, mcLineW, mcHit, by decide⟩,
   ⟨1, 0, mcOn, by decide⟩,
   ⟨1, 0, State.reset, by decide⟩,
   ⟨0, [1], mcOn, by decide⟩,
   ⟨0, [1], State.reset, by decide⟩,
   ⟨0, 3, { line := 0, requesters := [1], wayKept := some 3 }, mcFilling, by decide⟩,
   ⟨0, { line := 0, bytes := [(0, 1)] }, [], { mcOn with mc := { wtq := [(0, [{ line := 0, bytes := [(0, 1)] }])] } }, by decide⟩,
   ⟨1, false, State.reset, by decide⟩,
   ⟨1, State.reset, by decide⟩,
   ⟨1, State.reset, by decide⟩,
   ⟨1, State.reset, by decide⟩,
   ⟨1, State.reset, by decide⟩,
   ⟨[], { op := 1, base := 0, lines := 1, tag := 1, spare := false }, [], { mcOn with mc := { rangeQ := [{ op := 1, base := 0, lines := 1, tag := 1, spare := false }] } }, by decide⟩,
   ⟨0, 0, 0, 5, State.reset, by decide⟩⟩

theorem witness_MoverChannels :
    (∃ (ch : Nat) (v : Word) (s : State), (movAt s ch).arm = false ∧ (movAt s ch).inHandOver = false) ∧
    (∃ (ch reg : Nat) (v : Word) (s : State), (movAt s ch).arm = true ∧ (movAt s ch).inHandOver = false) ∧
    (∃ (ch : Nat) (s : State), (movAt s ch).inHandOver = false) ∧
    (∃ (ch : Nat) (s : State), (movAt s ch).state = .running ∧ (movAt s ch).inHandOver = false) ∧
    (∃ (ch : Nat) (s : State), (movAt s ch).stopped = true ∧ (movAt s ch).outstanding = []) ∧
    (∃ (ch : Nat) (s : State), (movAt s ch).state = .halted) ∧
    (∃ (ch : Nat) (s : State), (movAt s ch).inHandOver = false ∧ (movAt s ch).state = .idle ∧ (movAt s ch).arm = true ∧ movOn s (movHalf ch) = true ∧ loadError s (movAt s ch) (movAt s ch).shadow = none) ∧
    (∃ (ch n : Nat) (s : State), (movAt s ch).next = some n ∧ (movAt s ch).state = .running ∧ (movAt s ch).stopped = false ∧ n % 32 = 0 ∧ n + 32 ≤ 2 ^ 41 ∧ loadError s (movAt s ch) (parseDesc (memReads s.mem n 32)) = none) ∧
    (∃ (half c : Nat) (x : MovCh) (j : MovJob) (s : State), movOn s half = true ∧ ((s.mov.filter (fun e => movHalf e.1 == half)).map (fun e => e.2.outstanding.length)).sum < 256 ∧ (sortBy (fun a b => decide (effPrio s a.2 ≤ effPrio s b.2)) ((s.mov.filter (fun e => movHalf e.1 == half)).filter (fun e => readReady e.2))).head? = some (c, x) ∧ x.jobs.getLast? = some j) ∧
    (∃ (ch n i : Nat) (rest : List Nat) (data : Bytes) (j : MovJob) (s : State), (movAt s ch).late = 0 ∧ (movAt s ch).outstanding = n :: rest ∧ (movAt s ch).jobs.findIdx? (fun j => decide (j.returned < j.desc.length)) = some i ∧ (movAt s ch).jobs[i]? = some j) ∧
    (∃ (ch : Nat) (j : MovJob) (rest : List MovJob) (s : State), (movAt s ch).jobs = j :: rest ∧ j.desc.length ≤ j.returned) ∧
    (∃ (ch n : Nat) (rest : List Nat) (j : MovJob) (s : State), (movAt s ch).late = 0 ∧ (movAt s ch).outstanding = n :: rest ∧ (movAt s ch).jobs.find? (fun j => decide (j.returned < j.desc.length)) = some j ∧ j.desc.srcSpace ≠ 0) :=
  ⟨⟨0, 8, State.reset, by decide⟩,
   ⟨0, 0, 8, movS { arm := true }, by decide⟩,
   ⟨0, State.reset, by decide⟩,
   ⟨0, movS { state := .running }, by decide⟩,
   ⟨0, movS { state := .running, stopped := true }, by decide⟩,
   ⟨0, movS { state := .halted, err := 9 }, by decide⟩,
   ⟨0, movS { arm := true, shadow := descH }, by decide⟩,
   ⟨0, 0, descS, by decide⟩,
   ⟨0, 0, { state := .running, jobs := [{ desc := descH }] }, { desc := descH }, movS { state := .running, jobs := [{ desc := descH }] }, by decide⟩,
   ⟨0, 64, 0, [], [], { desc := descH }, movS { state := .running, jobs := [{ desc := descH }], outstanding := [64] }, by decide⟩,
   ⟨0, { desc := descH, returned := 64 }, [], movS { state := .running, jobs := [{ desc := descH, returned := 64 }] }, by decide⟩,
   ⟨0, 64, [], { desc := descH }, movS { state := .running, jobs := [{ desc := descH }], outstanding := [64] }, by decide⟩⟩

theorem witness_MailboxChannels :
    (∃ (ch : Nat) (s : State), ch < 4 ∧ flag s .ctlCtrl 0 = true ∧ flag s .ctlCtrl 1 = true ∧ (chanAt s ch).state = .idle) ∧
    (∃ (ch : Nat) (s : State), 4 ≤ ch) ∧
    (∃ (ch : Nat) (s : State), ch < 4 ∧ (chanAt s ch).state = .done) ∧
    (∃ (ch : Nat) (s : State), Safety.mbxReady s ch 0x100 = true) ∧
    (∃ (ch : Nat) (o : Op) (s : State), Safety.mbxReady s ch 0x101 = true ∧ tget s.ctl.ops (fieldAt (Safety.payOf s ch) 0 4) = some o) ∧
    (∃ (ch : Nat) (s : State), Safety.mbxReady s ch 0x102 = true ∧ (1 ≤ fieldAt (Safety.payOf s ch) 8 2 ∧ fieldAt (Safety.payOf s ch) 8 2 ≤ 126)) ∧
    (∃ (a : Nat) (s : State), flag s .ctlCtrl 2 = true) ∧
    (∃ (ep tag c : Nat) (r : Bytes) (s : State), i3cOn s = true ∧ flag s .ctlCtrl 0 = true ∧ idleOf s 4 = some c) ∧
    (∃ (eid : Nat) (s : State), i3cOn s = true ∧ (1 ≤ eid ∧ eid ≤ 254)) ∧
    (∃ (s : State), i3cOn s = true) ∧
    (∃ (s : State), i3cOn s = true) ∧
    (∃ (s : State), i3cOn s = true) ∧
    (∃ (s : State), i3cOn s = true) ∧
    (∃ (lane port : Nat) (src : BitVec 128) (b key : Bytes) (s : State), (netPortAt s lane).link = true ∧ (rateWindow (netPortAt (frameIn s lane) lane).ctlWin (nowOf (frameIn s lane)) 10000).2 = true ∧ s.ctl.inbandSecret = some key ∧ flag (setNetPort (frameIn s lane) lane (fun p => { p with ctlWin := (rateWindow p.ctlWin (nowOf (frameIn s lane)) 10000).1 })) .ctlCtrl 3 = true ∧ flag (setNetPort (frameIn s lane) lane (fun p => { p with ctlWin := (rateWindow p.ctlWin (nowOf (frameIn s lane)) 10000).1 })) .ctlCtrl 0 = true ∧ b.length < 112) ∧
    (∃ (lane port : Nat) (src : BitVec 128) (b key : Bytes) (s : State), (netPortAt s lane).link = true ∧ (rateWindow (netPortAt (frameIn s lane) lane).ctlWin (nowOf (frameIn s lane)) 10000).2 = true ∧ s.ctl.inbandSecret = some key ∧ flag (setNetPort (frameIn s lane) lane (fun p => { p with ctlWin := (rateWindow p.ctlWin (nowOf (frameIn s lane)) 10000).1 })) .ctlCtrl 3 = true ∧ flag (setNetPort (frameIn s lane) lane (fun p => { p with ctlWin := (rateWindow p.ctlWin (nowOf (frameIn s lane)) 10000).1 })) .ctlCtrl 0 = true ∧ 112 ≤ b.length ∧ s.ctl.inband = [] ∧ BitVec.ofNat 64 (fieldAt (b.take (b.length - 48)) 0 8) = s.ctl.nonce) ∧
    (∃ (id st : Nat) (o : Op) (s : State), tget s.ctl.ops id = some o ∧ o.state = 1 ∧ o.plan = some st) :=
  ⟨⟨0, ctlOn, by decide⟩,
   ⟨4, State.reset, by decide⟩,
   ⟨0, busyS { state := .done }, by decide⟩,
   ⟨0, reqS 0x100 [], by decide⟩,
   ⟨0, { opcode := 0x200 }, reqOp 0x101 [5] 5 { opcode := 0x200 }, by decide⟩,
   ⟨0, reqS 0x102 (pack 16 [(8, 2, 1)]), by decide⟩,
   ⟨5, ctlOn, by decide⟩,
   ⟨1, 1, 4, [], i3cS, by decide⟩,
   ⟨9, i3cS, by decide⟩,
   ⟨i3cS, by decide⟩,
   ⟨i3cS, by decide⟩,
   ⟨i3cS, by decide⟩,
   ⟨i3cS, by decide⟩,
   ⟨0, 1, 0, [], [], inbandS, by decide⟩,
   ⟨0, 1, 0, zeros 112, [], inbandS, by decide⟩,
   ⟨5, 0, { opcode := 0x401, plan := some 0 }, opS 5 { opcode := 0x401, plan := some 0 }, by decide⟩⟩

theorem witness_PoolAndVolumeRequests :
    (∃ (ch : Nat) (s : State), Safety.mbxReady s ch 0x200 = true ∧ createRefused s (Safety.payOf s ch) = none) ∧
    (∃ (ch : Nat) (bad : List (Nat × Nat)) (l : Ledger) (s : State), Safety.mbxReady s ch 0x201 = true ∧ bestLedger s (BitVec.ofNat 64 (fieldAt (Safety.payOf s ch) 0 8)) = some l ∧ importRefused s l (fieldAt (Safety.payOf s ch) 8 1) = none) ∧
    (∃ (ch : Nat) (p : Pool) (s : State), Safety.mbxReady s ch 0x202 = true ∧ poolNamed s (fieldAt (Safety.payOf s ch) 0 1) = some p ∧ held s (.pool (fieldAt (Safety.payOf s ch) 0 1)) = false ∧ opFree s = true) ∧
    (∃ (ch : Nat) (p : Pool) (s : State), Safety.mbxReady s ch 0x203 = true ∧ poolNamed s (fieldAt (Safety.payOf s ch) 0 1) = some p ∧ held s (.pool (fieldAt (Safety.payOf s ch) 0 1)) = false ∧ s.volumes.any (fun e => e.2.pool == fieldAt (Safety.payOf s ch) 0 1) = false) ∧
    (∃ (ch : Nat) (p : Pool) (s : State), Safety.mbxReady s ch 0x206 = true ∧ poolNamed s (fieldAt (Safety.payOf s ch) 0 1) = some p ∧ held s (.pool (fieldAt (Safety.payOf s ch) 0 1)) = false ∧ opFree s = true) ∧
    (∃ (ch : Nat) (p : Pool) (s : State), Safety.mbxReady s ch 0x204 = true ∧ poolNamed s (fieldAt (Safety.payOf s ch) 0 1) = some p) ∧
    (∃ (ch sp ba lr : Nat) (p : Pool) (s : State), Safety.mbxReady s ch 0x205 = true ∧ poolNamed s (fieldAt (Safety.payOf s ch) 0 1) = some p ∧ held s (.pool (fieldAt (Safety.payOf s ch) 0 1)) = false ∧ sp = (if fieldAt (Safety.payOf s ch) 1 1 % 2 = 1 then fieldAt (Safety.payOf s ch) 2 1 else p.spare) ∧ ba = (if fieldAt (Safety.payOf s ch) 1 1 / 2 % 2 = 1 then fieldAt (Safety.payOf s ch) 3 1 else p.balance) ∧ lr = (if fieldAt (Safety.payOf s ch) 1 1 / 4 % 2 = 1 then fieldAt (Safety.payOf s ch) 4 2 else p.logReserve) ∧ (sp ≤ 8 ∧ ba ≤ 8 ∧ 1 ≤ lr ∧ lr ≤ 64) ∧ fieldAt (Safety.payOf s ch) 1 1 % 2 = 0) ∧
    (∃ (ch : Nat) (p : Pool) (s : State), Safety.mbxReady s ch 0x207 = true ∧ poolNamed s (fieldAt (Safety.payOf s ch) 0 1) = some p) ∧
    (∃ (ch : Nat) (p : Pool) (s : State), Safety.mbxReady s ch 0x208 = true ∧ poolNamed s (fieldAt (Safety.payOf s ch) 0 1) = some p ∧ held s (.pool (fieldAt (Safety.payOf s ch) 0 1)) = false ∧ fieldAt (Safety.payOf s ch) 8 8 ≤ p.lossHead) ∧
    (∃ (ch : Nat) (p : Pool) (s : State), Safety.mbxReady s ch 0x300 = true ∧ poolNamed s (fieldAt (Safety.payOf s ch) 0 1) = some p ∧ held s (.pool (fieldAt (Safety.payOf s ch) 0 1)) = false ∧ volRefused s (Safety.payOf s ch) p = none ∧ fieldAt (Safety.payOf s ch) 1 1 = 1 ∧ fieldAt (Safety.payOf s ch) 4 2 ≠ 0xFFFF ∧ opFree s = true) ∧
    (∃ (ch : Nat) (v : Volume) (s : State), Safety.mbxReady s ch 0x301 = true ∧ volNamed s (fieldAt (Safety.payOf s ch) 0 2) = some v ∧ held s (.volume (fieldAt (Safety.payOf s ch) 0 2)) = false ∧ (v.hosts = [] ∨ fieldAt (Safety.payOf s ch) 2 1 % 2 = 1) ∧ opFree s = true) ∧
    (∃ (ch : Nat) (v : Volume) (s : State), Safety.mbxReady s ch 0x302 = true ∧ volNamed s (fieldAt (Safety.payOf s ch) 0 2) = some v ∧ held s (.volume (fieldAt (Safety.payOf s ch) 0 2)) = false ∧ v.kind = .mapped ∧ fieldAt (Safety.payOf s ch) 2 1 = 1 ∧ (v.capacity ≤ fieldAt (Safety.payOf s ch) 8 8 ∧ fieldAt (Safety.payOf s ch) 8 8 ≤ 2 ^ 41)) ∧
    (∃ (ch : Nat) (v : Volume) (s : State), Safety.mbxReady s ch 0x303 = true ∧ volNamed s (fieldAt (Safety.payOf s ch) 0 2) = some v) ∧
    (∃ (ch : Nat) (v : Volume) (s : State), Safety.mbxReady s ch 0x304 = true ∧ volNamed s (fieldAt (Safety.payOf s ch) 0 2) = some v ∧ held s (.volume (fieldAt (Safety.payOf s ch) 0 2)) = false ∧ fieldAt (Safety.payOf s ch) 2 1 = 1 ∧ v.hosts.contains (BitVec.ofNat 128 (fieldAt (Safety.payOf s ch) 16 16)) = false ∧ accessPairs s < 65536) ∧
    (∃ (ch : Nat) (v : Volume) (s : State), Safety.mbxReady s ch 0x304 = true ∧ volNamed s (fieldAt (Safety.payOf s ch) 0 2) = some v ∧ held s (.volume (fieldAt (Safety.payOf s ch) 0 2)) = false ∧ fieldAt (Safety.payOf s ch) 2 1 = 2 ∧ v.hosts.contains (BitVec.ofNat 128 (fieldAt (Safety.payOf s ch) 16 16)) = true) :=
  ⟨⟨0, createS, by decide⟩,
   ⟨0, [], ledW, importS, ⟨by decide, by decide, import_not_refused⟩⟩,
   ⟨0, poolW, reqPool 0x202 [0], by decide⟩,
   ⟨0, poolW, { reqPool 0x203 [0] with volumes := [] }, by decide⟩,
   ⟨0, poolW, reqPool 0x206 [0], by decide⟩,
   ⟨0, poolW, reqPool 0x204 [0], by decide⟩,
   ⟨0, 0, 3, 1, poolW, reqPool 0x205 [0, 2, 0, 3], by decide⟩,
   ⟨0, poolW, reqPool 0x207 [0], by decide⟩,
   ⟨0, poolW, reqPool 0x208 [0], by decide⟩,
   ⟨0, poolW, reqPool 0x300 [0, 1, 0, 0, 7, 0, 0, 0, 8], by decide⟩,
   ⟨0, volW, reqPool 0x301 [1], by decide⟩,
   ⟨0, volW, reqPool 0x302 [1, 0, 1, 0, 0, 0, 0, 0, 9], by decide⟩,
   ⟨0, volW, reqPool 0x303 [1], by decide⟩,
   ⟨0, volW, reqPool 0x304 [1, 0, 1], by decide⟩,
   ⟨0, { volW with hosts := [0] }, { reqPool 0x304 [1, 0, 2] with volumes := [(1, { volW with hosts := [0] })] }, by decide⟩⟩

theorem witness_DriveAndPolicyRequests :
    (∃ (ch : Nat) (s : State), Safety.mbxReady s ch 0x400 = true) ∧
    (∃ (ch : Nat) (b : Bool) (s : State), Safety.mbxReady s ch 0x401 = true ∧ fieldAt (Safety.payOf s ch) 0 1 < 64 ∧ fieldAt (Safety.payOf s ch) 1 1 = 0xFF ∧ drivePool s (fieldAt (Safety.payOf s ch) 0 1) = none ∧ admitRefused s (fieldAt (Safety.payOf s ch) 0 1) 0xFF (fieldAt (Safety.payOf s ch) 2 1) = none ∧ formatUsable (driveAt s (fieldAt (Safety.payOf s ch) 0 1)) = true) ∧
    (∃ (ch : Nat) (b : Bool) (p : Pool) (s : State), Safety.mbxReady s ch 0x401 = true ∧ fieldAt (Safety.payOf s ch) 0 1 < 64 ∧ fieldAt (Safety.payOf s ch) 1 1 ≠ 0xFF ∧ poolNamed s (fieldAt (Safety.payOf s ch) 1 1) = some p ∧ admitRefused s (fieldAt (Safety.payOf s ch) 0 1) (fieldAt (Safety.payOf s ch) 1 1) (fieldAt (Safety.payOf s ch) 2 1) = none ∧ formatUsable (driveAt s (fieldAt (Safety.payOf s ch) 0 1)) = true) ∧
    (∃ (ch pi : Nat) (s : State), Safety.mbxReady s ch 0x402 = true ∧ fieldAt (Safety.payOf s ch) 0 1 < 64 ∧ drivePool s (fieldAt (Safety.payOf s ch) 0 1) = some pi) ∧
    (∃ (ch pi : Nat) (p : Pool) (s : State), Safety.mbxReady s ch 0x403 = true ∧ fieldAt (Safety.payOf s ch) 0 1 < 64 ∧ drivePool s (fieldAt (Safety.payOf s ch) 0 1) = some pi ∧ poolAt s pi = some p ∧ mayLeave p = true ∧ held s (.drive (fieldAt (Safety.payOf s ch) 0 1)) = false ∧ (driveAt s (fieldAt (Safety.payOf s ch) 0 1)).state = .member ∧ opFree s = true) ∧
    (∃ (ch : Nat) (s : State), Safety.mbxReady s ch 0x404 = true ∧ fieldAt (Safety.payOf s ch) 0 1 < 64 ∧ drivePool s (fieldAt (Safety.payOf s ch) 0 1) = none ∧ held s (.drive (fieldAt (Safety.payOf s ch) 0 1)) = false ∧ (driveAt s (fieldAt (Safety.payOf s ch) 0 1)).state ≠ .empty) ∧
    (∃ (ch : Nat) (s : State), Safety.mbxReady s ch 0x500 = true ∧ fieldAt (Safety.payOf s ch) 0 1 = 0) ∧
    (∃ (ch : Nat) (s : State), Safety.mbxReady s ch 0x501 = true ∧ (1 ≤ fieldAt (Safety.payOf s ch) 0 2 ∧ fieldAt (Safety.payOf s ch) 0 2 ≤ 64) ∧ firstBad s ((List.range (fieldAt (Safety.payOf s ch) 0 2)).map (polEntry (Safety.payOf s ch))) = none) ∧
    (∃ (ch : Nat) (r : Bytes) (s : State), Safety.mbxReady s ch 0x800 = true ∧ (1 ≤ fieldAt (Safety.payOf s ch) 0 1 ∧ fieldAt (Safety.payOf s ch) 0 1 ≤ 5) ∧ healthReport s (fieldAt (Safety.payOf s ch) 0 1) (fieldAt (Safety.payOf s ch) 1 1) = some r) :=
  ⟨⟨0, reqS 0x400 [], by decide⟩,
   ⟨0, true, admitS [0, 255] { driveW with state := .present, pool := none, member := none, ident := some identW }, by decide⟩,
   ⟨0, true, poolW, admitS [0, 0] { driveW with state := .present, pool := none, member := none, ident := some identW }, by decide⟩,
   ⟨0, 0, reqPool 0x402 [0], by decide⟩,
   ⟨0, 0, mirrorPool2, { reqS 0x403 [0] with pools := [(0, mirrorPool2)], drives := [(0, driveW), (1, driveW)] }, by decide⟩,
   ⟨0, { reqS 0x404 [0] with drives := [(0, { driveW with state := .ready, pool := none, member := none })] }, by decide⟩,
   ⟨0, reqS 0x500 [0], by decide⟩,
   ⟨0, reqS 0x501 (pack 16 [(0, 2, 1), (8, 2, 0x50), (12, 4, 1)]), by decide⟩,
   ⟨0, feedPayload (reqS 0x800 [2]), reqS 0x800 [2], ⟨by decide, by decide, health_two⟩⟩⟩

theorem witness_FirmwareAndKeyRequests :
    (∃ (ch : Nat) (s : State), Safety.mbxReady s ch 0x600 = true ∧ fieldAt (Safety.payOf s ch) 0 1 ≤ 2 ∧ fieldAt (Safety.payOf s ch) 0 1 ≠ s.ctl.running ∧ fieldAt (Safety.payOf s ch) 1 1 % 2 = 1 ∧ fieldAt (Safety.payOf s ch) 4 4 = 0 ∧ (1 ≤ fieldAt (Safety.payOf s ch) 8 4 ∧ fieldAt (Safety.payOf s ch) 8 4 ≤ 4048)) ∧
    (∃ (ch : Nat) (s : State), Safety.mbxReady s ch 0x601 = true ∧ fieldAt (Safety.payOf s ch) 0 1 ≤ 2 ∧ opFree s = true) ∧
    (∃ (ch : Nat) (s : State), Safety.mbxReady s ch 0x603 = true) ∧
    (∃ (v : Nat) (s : State), v < 2 ^ 32 ∧ rollbackOf s < v) ∧
    (∃ (ch : Nat) (s : State), Safety.mbxReady s ch 0x604 = true ∧ fieldAt (Safety.payOf s ch) 0 4 ≤ securityVersion (slotBytes s.ctl s.ctl.running)) ∧
    (∃ (ch : Nat) (s : State), Safety.mbxReady s ch 0x602 = true ∧ activateRefused s (fieldAt (Safety.payOf s ch) 0 1) (fieldAt (Safety.payOf s ch) 2 2) = none ∧ fieldAt (Safety.payOf s ch) 1 1 % 2 = 1 ∧ s.ctl.safeMode = false) ∧
    (∃ (ch : Nat) (s : State), Safety.mbxReady s ch 0x602 = true ∧ activateRefused s (fieldAt (Safety.payOf s ch) 0 1) (fieldAt (Safety.payOf s ch) 2 2) = none ∧ fieldAt (Safety.payOf s ch) 1 1 % 2 = 0 ∧ s.boot.want = none) ∧
    (∃ (a : Activation) (s : State), s.ctl.activation = some a ∧ s.hq.cmds = []) ∧
    (∃ (a : Activation) (s : State), s.ctl.activation = some a) ∧
    (∃ (ch : Nat) (s : State), Safety.mbxReady s ch 0x700 = true) ∧
    (∃ (i : Nat) (x : KekSession) (s : State), s.ctl.sessions.find? (fun x => x.id == i) = some x) ∧
    (∃ (ch : Nat) (x : KekSession) (s : State), Safety.mbxReady s ch 0x701 = true ∧ s.ctl.sessions.find? (fun x => x.id == fieldAt (Safety.payOf s ch) 0 4 && decide (nowOf s < x.since + 60000000000)) = some x ∧ fieldAt (Safety.payOf s ch) 4 2 ≤ 15) ∧
    (∃ (ch : Nat) (v : Volume) (kek : Bytes) (s : State), Safety.mbxReady s ch 0x702 = true ∧ volNamed s (fieldAt (Safety.payOf s ch) 0 2) = some v ∧ held s (.volume (fieldAt (Safety.payOf s ch) 0 2)) = false ∧ v.encrypted = true ∧ v.kind = .mapped ∧ v.keyGen = 0 ∧ fieldAt (Safety.payOf s ch) 2 2 = 1 ∧ tget s.ctl.keks (fieldAt (Safety.payOf s ch) 4 2) = some kek) ∧
    (∃ (ch : Nat) (v : Volume) (kek : Bytes) (s : State), Safety.mbxReady s ch 0x703 = true ∧ volNamed s (fieldAt (Safety.payOf s ch) 0 2) = some v ∧ held s (.volume (fieldAt (Safety.payOf s ch) 0 2)) = false ∧ v.rotating = false ∧ v.rotation = none ∧ v.encrypted = true ∧ v.keyGen ≠ 0 ∧ fieldAt (Safety.payOf s ch) 2 2 ≠ 0 ∧ fieldAt (Safety.payOf s ch) 2 2 ≠ v.keyGen ∧ tget s.ctl.keks (fieldAt (Safety.payOf s ch) 4 2) = some kek ∧ opFree s = true) ∧
    (∃ (ch : Nat) (s : State), Safety.mbxReady s ch 0x704 = true ∧ fieldAt (Safety.payOf s ch) 0 2 = 0xFFFF) ∧
    (∃ (ch : Nat) (v : Volume) (s : State), Safety.mbxReady s ch 0x704 = true ∧ fieldAt (Safety.payOf s ch) 0 2 ≠ 0xFFFF ∧ volNamed s (fieldAt (Safety.payOf s ch) 0 2) = some v ∧ held s (.volume (fieldAt (Safety.payOf s ch) 0 2)) = false) ∧
    (∃ (ch : Nat) (s : State), Safety.mbxReady s ch 0x705 = true ∧ fieldAt (Safety.payOf s ch) 16 1 / 4 % 2 = 1) ∧
    (∃ (ch : Nat) (kek : Bytes) (s : State), Safety.mbxReady s ch 0x705 = true ∧ fieldAt (Safety.payOf s ch) 16 1 / 2 % 4 = 0 ∧ (1 ≤ fieldAt (Safety.payOf s ch) 17 1 ∧ fieldAt (Safety.payOf s ch) 17 1 ≤ 3) ∧ tget s.ctl.keks (fieldAt (Safety.payOf s ch) 18 2) = some kek) ∧
    (∃ (ch : Nat) (kek : Bytes) (s : State), Safety.mbxReady s ch 0x706 = true ∧ tget s.ctl.keks (fieldAt (Safety.payOf s ch) 0 2) = some kek) :=
  ⟨⟨0, reqS 0x600 (pack 17 [(0, 1, 1), (1, 1, 1), (8, 4, 1)]), by decide⟩,
   ⟨0, reqS 0x601 [0], by decide⟩,
   ⟨0, reqS 0x603 [], by decide⟩,
   ⟨5, { State.reset with hbx := { rollback0 := some 1 } }, by decide⟩,
   ⟨0, reqS 0x604 [], by decide⟩,
   ⟨0, actS 1, by decide⟩,
   ⟨0, actS 0, by decide⟩,
   ⟨actW, { State.reset with ctl := { activation := some actW } }, by decide⟩,
   ⟨actW, { State.reset with ctl := { activation := some actW } }, by decide⟩,
   ⟨0, reqS 0x700 [], by decide⟩,
   ⟨1, sessW, { State.reset with ctl := { sessions := [sessW] } }, by decide⟩,
   ⟨0, sessW, sessS, by decide⟩,
   ⟨0, { volW with encrypted := true }, [], keyS 0x702 [1, 0, 1] { volW with encrypted := true }, by decide⟩,
   ⟨0, { volW with encrypted := true, keyGen := 1 }, [], keyS 0x703 [1, 0, 2] { volW with encrypted := true, keyGen := 1 }, by decide⟩,
   ⟨0, reqS 0x704 [255, 255], by decide⟩,
   ⟨0, volW, reqPool 0x704 [1], by decide⟩,
   ⟨0, reqS 0x705 (pack 17 [(16, 1, 4)]), by decide⟩,
   ⟨0, [], keyS 0x705 (pack 18 [(17, 1, 1)]) volW, by decide⟩,
   ⟨0, [], keyS 0x706 [] volW, by decide⟩⟩

theorem witness_TelemetryCountsAndDumps :
    (∃ (counter value : Nat) (s : State), counterKnown counter = true ∧ value ≤ 15) ∧
    (∃ (ch : Nat) (s : State), Safety.mbxReady s ch 0x801 = true ∧ (1 ≤ fieldAt (Safety.payOf s ch) 2 2 ∧ fieldAt (Safety.payOf s ch) 2 2 ≤ 500) ∧ fieldAt (Safety.payOf s ch) 0 2 + fieldAt (Safety.payOf s ch) 2 2 ≤ 2048) ∧
    (∃ (s : State), dumpPeriod s ≠ 0 ∧ nowOf s < (s.tel.lastPeriodic / dumpPeriod s + 1) * dumpPeriod s ∧ s.tel.bufs = [] ∧ s.boot.dramSelfRefresh = false) ∧
    (∃ (s : State), dumpPeriod s = 0 ∧ s.tel.bufs = [] ∧ s.boot.dramSelfRefresh = false) ∧
    (∃ (ch : Nat) (s : State), Safety.mbxReady s ch 0x802 = true ∧ fieldAt (Safety.payOf s ch) 0 4 ≤ 10000) ∧
    (∃ (ch : Nat) (s : State), Safety.mbxReady s ch 0x803 = true ∧ (fieldAt (Safety.payOf s ch) 0 4 = 0 ∨ 16 ≤ fieldAt (Safety.payOf s ch) 0 4) ∧ fieldAt (Safety.payOf s ch) 0 4 < 16777216 ∧ fieldAt (Safety.payOf s ch) 4 4 < 16777216) ∧
    (∃ (buffer : Nat) (d : Dump) (s : State), tget s.tel.bufs buffer = some d ∧ d.dramLeft = true ∧ s.boot.dramSelfRefresh = false ∧ flag s .telCtrl 0 = true) ∧
    (∃ (i : Nat) (d : Dump) (s : State), s.tel.bufs = [(i, d)] ∧ d.pf1Left = true ∧ s.sep.ringEn = true ∧ fnLive s.sep.pf1 = true ∧ (s.sep.tail + 4294967296 - s.sep.head) % 4294967296 < s.sep.slots) ∧
    (∃ (i : Nat) (d : Dump) (s : State), s.tel.bufs = [(i, d)] ∧ d.pf1Left = true ∧ s.sep.ringEn = true ∧ fnLive s.sep.pf1 = true ∧ s.sep.slots ≤ (s.sep.tail + 4294967296 - s.sep.head) % 4294967296) ∧
    (∃ (i : Nat) (d : Dump) (s : State), s.tel.bufs = [(i, d)] ∧ d.pf1Left = true ∧ s.sep.ringEn = false) ∧
    (∃ (r : FrameSample) (rest : List FrameSample) (s : State), s.fab.samples = r :: rest ∧ flag s .telCtrl 0 = true ∧ s.boot.dramSelfRefresh = false) :=
  ⟨⟨0, 15, State.reset, by decide⟩,
   ⟨0, reqS 0x801 [0, 0, 1, 0], by decide⟩,
   ⟨withRegs [(.telDumpCfg, 1)], by decide⟩,
   ⟨State.reset, by decide⟩,
   ⟨0, reqS 0x802 [1], by decide⟩,
   ⟨0, reqS 0x803 [16], by decide⟩,
   ⟨0, dumpW, { withRegs [(.telCtrl, 1)] with tel := { bufs := [(0, dumpW)] } }, by decide⟩,
   ⟨0, dumpW, { State.reset with tel := { bufs := [(0, dumpW)] }, sep := { pf1 := { me := true }, ringEn := true, slots := 2 } }, by decide⟩,
   ⟨0, dumpW, { State.reset with tel := { bufs := [(0, dumpW)] }, sep := { pf1 := { me := true }, ringEn := true, slots := 2, tail := 2 } }, by decide⟩,
   ⟨0, dumpW, { State.reset with tel := { bufs := [(0, dumpW)] } }, by decide⟩,
   ⟨sampleW, [], { withRegs [(.telCtrl, 1)] with fab := { samples := [sampleW] } }, by decide⟩⟩

theorem witness_PowerDomainsSwitch :
    (∃ (v : Word) (s : State), (List.range 62).all (fun n => !(s.dom.on.getLsbD n) || v.getLsbD n) = true) ∧
    (∃ (v : Word) (s : State), s.dom.on.getLsbD 60 = true ∧ v.getLsbD 60 = false ∧ flag s .ctlCtrl 1 = true) ∧
    (∃ (n : Nat) (s : State), domNext s = some n ∧ s.dom.target.getLsbD n = true) ∧
    (∃ (n : Nat) (s : State), domNext s = some n ∧ s.dom.target.getLsbD n = false) ∧
    (∃ (n : Nat) (s : State), domNext s = some n ∧ s.dom.target.getLsbD n = true) :=
  ⟨⟨0x3FFFFFFFFFFFFFFF, State.reset, by decide⟩,
   ⟨0, ctlOn, by decide⟩,
   ⟨0, { State.reset with dom := { busy := 1 } }, by decide⟩,
   ⟨0, { State.reset with dom := { busy := 1, target := 0 } }, by decide⟩,
   ⟨0, { State.reset with dom := { busy := 1 } }, by decide⟩⟩

theorem witness_SlotsLinksAndDrives :
    (∃ (ins : List SgIn) (s : State), ins.all (·.bit3) = true ∧ s.chainE.onesRun = 2 ∧ s.chainE.broken = false) ∧
    (∃ (slot : Nat) (s : State), slot < 64 ∧ (driveAt s slot).prsntN = false ∧ (driveAt s slot).prsnt = false) ∧
    (∃ (slot : Nat) (s : State), (driveAt s slot).prsnt = true ∧ (driveAt s slot).pwren = true ∧ (driveAt s slot).perst = true ∧ (driveAt s slot).pwrfltN = true ∧ (driveAt s slot).linkFault = false) ∧
    (∃ (slot : Nat) (f : LaneFindings) (s : State), mayTrain s slot = true ∧ f.shortTo = none ∧ (f.lane0Bad && f.lane1Bad) = false) ∧
    (∃ (slot : Nat) (f : LaneFindings) (s : State), mayTrain s slot = true ∧ f.shortTo = none ∧ f.lane0Bad = true ∧ f.lane1Bad = true ∧ (driveAt s slot).state = .present) ∧
    (∃ (slot : Nat) (i : DriveIdent) (s : State), (driveAt s slot).linkUp = true) ∧
    (∃ (slot : Nat) (m : Smart) (s : State), (driveAt s slot).prsnt = true ∧ (driveAt s slot).pwren = true ∧ (driveAt s slot).linkUp = false) ∧
    (∃ (slot : Nat) (m : Smart) (s : State), (driveAt s slot).state ≠ .empty ∧ (driveAt s slot).pool = none) ∧
    (∃ (slot pi : Nat) (r : EvacReason) (m : Smart) (p : Pool) (s : State), (driveAt s slot).state ≠ .empty ∧ (driveAt s slot).pool = some pi ∧ poolAt s pi = some p ∧ [EvacReason.backup, .critical, .wear].find? (evacTrigger
          (setDrive s slot (fun d => { d with critWarning := m.critWarning, pctUsed := m.pctUsed, tempK := m.tempK })) p slot) = some r) ∧
    (∃ (ch : Nat) (s : State), Safety.mbxReady s ch 0x902 = true ∧ fieldAt (Safety.payOf s ch) 0 1 < 64 ∧ drivePool s (fieldAt (Safety.payOf s ch) 0 1) = none ∧ held s (.drive (fieldAt (Safety.payOf s ch) 0 1)) = false ∧ fieldAt (Safety.payOf s ch) 1 1 = 0) ∧
    (∃ (ch : Nat) (s : State), Safety.mbxReady s ch 0x902 = true ∧ fieldAt (Safety.payOf s ch) 0 1 < 64 ∧ drivePool s (fieldAt (Safety.payOf s ch) 0 1) = none ∧ held s (.drive (fieldAt (Safety.payOf s ch) 0 1)) = false ∧ fieldAt (Safety.payOf s ch) 1 1 = 1) :=
  ⟨⟨[], { State.reset with chainE := { onesRun := 2 } }, by decide⟩,
   ⟨0, { State.reset with drives := [(0, { prsntN := false })] }, by decide⟩,
   ⟨0, { State.reset with drives := [(0, { prsntN := false, prsnt := true, pwren := true })] }, by decide⟩,
   ⟨0, lanesW, trainS, by decide⟩,
   ⟨0, { lanesW with lane0Bad := true, lane1Bad := true }, trainS, by decide⟩,
   ⟨0, identW, poolS poolW, by decide⟩,
   ⟨0, { critWarning := 0, pctUsed := 1, tempK := 300 }, { State.reset with drives := [(0, { prsntN := false, prsnt := true, pwren := true })] }, by decide⟩,
   ⟨0, { critWarning := 0, pctUsed := 1, tempK := 300 }, { State.reset with drives := [(0, readyD)] }, by decide⟩,
   ⟨0, 0, .backup, { critWarning := 0x10, pctUsed := 1, tempK := 300 }, poolW, poolS poolW, by decide⟩,
   ⟨0, reqS 0x902 [1, 0], by decide⟩,
   ⟨0, reqS 0x902 [1, 1], by decide⟩⟩

theorem witness_EndpointServesTheHost :
    (∃ (v : Nat) (s : State), (5 ≤ v ∧ v < 64)) ∧
    (∃ (v : Nat) (s : State), (v < 5 ∨ 64 ≤ v)) ∧
    (∃ (e : Nat) (s : State), e < 64 ∧ bit (bankGet s (.sepWinShdCtrl e)) 2 = false ∧ 0xA0000000000 ≤ (bankGet s (.sepWinShdBase e)).toNat ∧ (bankGet s (.sepWinShdBase e)).toNat + winBytes (bankGet s (.sepWinShdCtrl e)) ≤ 0xA0020000000) ∧
    (∃ (e : Nat) (s : State), e < 64 ∧ winCommitOk (bankGet s (.sepWinShdBase e)) (bankGet s (.sepWinShdCtrl e)) = false) ∧
    (∃ (e : Nat) (s : State), e < 64) ∧
    (∃ (pf : Nat) (x : Tlp) (s : State), pf < 2 ∧ s.sep.linkUp = true ∧ barOpen s pf = false) ∧
    (∃ (pf : Nat) (x : Tlp) (b : Bytes) (s : State), pf < 2 ∧ s.sep.linkUp = true ∧ barOpen s pf = true ∧ x.write = some b ∧ x.poisoned = true) ∧
    (∃ (c o : Nat) (x : Tlp) (b : Bytes) (s : State), s.sep.linkUp = true ∧ barOpen s 0 = true ∧ c < 4 ∧ o + x.len ≤ 4096 ∧ o < 4096 ∧ x.off = 0x10000 + 0x2000 * c + o ∧ x.write = some b ∧ x.poisoned = false) ∧
    (∃ (c o : Nat) (x : Tlp) (s : State), s.sep.linkUp = true ∧ barOpen s 0 = true ∧ c < 4 ∧ o + x.len ≤ 4096 ∧ o < 4096 ∧ x.off = 0x10000 + 0x2000 * c + 0x1000 + o ∧ x.write = none) ∧
    (∃ (x : Tlp) (w : Word) (s : State), s.sep.linkUp = true ∧ barOpen s 0 = true ∧ (x.off < 0x10000 ∨ (0x18000 ≤ x.off ∧ x.off < 0x30000)) ∧ pf0Image s x.off = some w ∧ imageSize x = true ∧ x.write = none) ∧
    (∃ (x : Tlp) (w : Word) (b : Bytes) (s : State), s.sep.linkUp = true ∧ barOpen s 0 = true ∧ x.off < 0x10000 ∧ pf0Image s x.off = some w ∧ imageSize x = true ∧ x.write = some b ∧ x.poisoned = false) ∧
    (∃ (x : Tlp) (b : Bytes) (s : State), s.sep.linkUp = true ∧ barOpen s 1 = true ∧ x.off < 40 ∧ imageSize x = true ∧ x.write = some b ∧ x.poisoned = false) ∧
    (∃ (a : Nat) (x : Tlp) (b : Bytes) (s : State), s.sep.linkUp = true ∧ barOpen s 0 = true ∧ winTranslate s x = some a ∧ x.write = some b ∧ x.poisoned = false ∧ s.boot.dramSelfRefresh = false) ∧
    (∃ (a : Nat) (x : Tlp) (s : State), s.sep.linkUp = true ∧ barOpen s 0 = true ∧ winTranslate s x = some a ∧ x.write = none ∧ s.boot.dramSelfRefresh = false ∧ a + x.len ≤ 0x80000000000) ∧
    (∃ (x : Tlp) (e : Bool) (s : State), s.sep.linkUp = true ∧ barOpen s 0 = true ∧ winTranslate s x = none) ∧
    (∃ (speed width : Nat) (s : State), s.rails.coreReset = false ∧ 4 ≤ s.boot.step ∧ s.sep.linkUp = false ∧ flag s .sepCtrl 1 = true ∧ s.dom.on.getLsbD 60 = true ∧ (1 ≤ speed ∧ speed ≤ 6) ∧ width ∈ [1, 2, 4, 8]) ∧
    (∃ (perst : Bool) (s : State), s.sep.linkUp = true) ∧
    (∃ (pf : Nat) (s : State), pf < 2 ∧ (sepFn s pf).me = true) ∧
    (∃ (pf : Nat) (s : State), pf < 2 ∧ s.sep.linkUp = true ∧ (sepFn s pf).flr = false ∧ flag s .sepCtrl 2 = true) ∧
    (∃ (pf : Nat) (s : State), pf < 2 ∧ s.sep.linkUp = true ∧ flag s .sepCtrl 2 = true) ∧
    (∃ (pf : Nat) (s : State), pf < 2) ∧
    (∃ (pf : Nat) (s : State), pf < 2 ∧ s.sep.linkUp = true ∧ (sepFn s pf).flr = false ∧ (sepFn s pf).d3 = false ∧ flag s .sepCtrl 2 = true) ∧
    (∃ (pf : Nat) (s : State), pf < 2) ∧
    (∃ (s : State), s.rails.coreReset = false ∧ s.clk.sepLock = true) ∧
    (∃ (g : Nat) (s : State), s.rails.coreReset = false ∧ g < 8 ∧ s.clk.netLock.getLsbD g = true) ∧
    (∃ (g : Nat) (s : State), s.rails.coreReset = false ∧ g < 16 ∧ s.clk.drvLock.getLsbD g = true) :=
  ⟨⟨63, State.reset, by decide⟩,
   ⟨4, State.reset, by decide⟩,
   ⟨63, withRegs [(.sepWinShdBase 63, 0xA0000000000)], by decide⟩,
   ⟨0, winBadS, ⟨by decide, win_bad⟩⟩,
   ⟨63, State.reset, by decide⟩,
   ⟨1, { off := 0, len := 8, write := none }, sepS [], by decide⟩,
   ⟨0, { off := 0, len := 8, write := some [], poisoned := true }, [], sepS [(.sepCtrl, 7)], by decide⟩,
   ⟨3, 4088, { off := 0x10000 + 0x6000 + 4088, len := 8, write := some [1] }, [1], sepS [(.sepCtrl, 7)], by decide⟩,
   ⟨0, 0, { off := 0x11000, len := 8, write := none }, sepS [(.sepCtrl, 7)], by decide⟩,
   ⟨{ off := 0x1008, len := 8, write := none }, 0, sepS [(.sepCtrl, 7)], by decide⟩,
   ⟨{ off := 0x1008, len := 8, write := some [] }, 0, [], sepS [(.sepCtrl, 7)], by decide⟩,
   ⟨{ off := 32, len := 8, write := some [] }, [], sepS [(.sepCtrl, 7)], by decide⟩,
   ⟨4096, { off := 0, len := 8, write := some [1] }, [1], winS, by decide⟩,
   ⟨4096, { off := 0, len := 8, write := none }, winS, by decide⟩,
   ⟨{ off := 0x10000000, len := 8, write := none }, false, winS, by decide⟩,
   ⟨6, 8, sepDownS, by decide⟩,
   ⟨true, sepS [], by decide⟩,
   ⟨0, movS {}, by decide⟩,
   ⟨1, sepS [(.sepCtrl, 7)], by decide⟩,
   ⟨1, sepS [(.sepCtrl, 7)], by decide⟩,
   ⟨1, State.reset, by decide⟩,
   ⟨1, sepS [(.sepCtrl, 7)], by decide⟩,
   ⟨1, State.reset, by decide⟩,
   ⟨lockS, by decide⟩,
   ⟨7, lockS, by decide⟩,
   ⟨15, lockS, by decide⟩⟩

theorem witness_RegistersByAddressAndDiagnostics :
    (∃ (src addr v : Nat) (r : Reg) (sets clears : Word) (s : State), 0xF0000000000 ≤ addr ∧ mbxBuffer addr 8 = none ∧ regOfAddr addr = some r) ∧
    (∃ (src addr v : Nat) (r : Reg) (s : State), 0xF0000000000 ≤ addr ∧ mbxBuffer addr 8 = none ∧ regOfAddr addr = some r ∧ laneAbsent s r = false ∧ shadowBusy s r = false ∧ cfgOk s r (BitVec.ofNat 64 v) = false) ∧
    (∃ (src addr size v : Nat) (r : Reg) (sets clears : Word) (s : State), 0xF0000000000 ≤ addr ∧ mbxBuffer addr size = none ∧ regOfAddr addr = some r ∧ size ≠ 8) ∧
    (∃ (src addr size v c o : Nat) (resp : Bool) (sets clears : Word) (s : State), mbxBuffer addr size = some (c, resp, o)) ∧
    (∃ (src addr size v k : Nat) (sets clears : Word) (s : State), mbxBuffer addr size = none ∧ memRegion addr size = some k ∧ k < 2) ∧
    (∃ (src addr size v : Nat) (sets clears : Word) (s : State), 0xF0000000000 ≤ addr ∧ mbxBuffer addr size = none ∧ regOfAddr addr = none) ∧
    (∃ (ch : Nat) (s : State), Safety.mbxReady s ch 0xA01 = true ∧ (1 ≤ fieldAt (Safety.payOf s ch) 8 2 ∧ fieldAt (Safety.payOf s ch) 8 2 ≤ 500)) ∧
    (∃ (ch : Nat) (r : Reg) (s : State), Safety.mbxReady s ch 0xA02 = true ∧ 0xF0000000000 ≤ fieldAt (Safety.payOf s ch) 0 8 ∧ mbxBuffer (fieldAt (Safety.payOf s ch) 0 8) 8 = none ∧ regOfAddr (fieldAt (Safety.payOf s ch) 0 8) = some r) ∧
    (∃ (ch : Nat) (f : Bool) (s : State), Safety.mbxReady s ch 0xA03 = true ∧ fieldAt (Safety.payOf s ch) 0 1 < 4 ∧ opFree s = true) :=
  ⟨⟨158, regAddr .fabBrimCfg, 0, .fabBrimCfg, 0, 0, State.reset, by decide⟩,
   ⟨158, regAddr .fabBrimCfg, 15, .fabBrimCfg, State.reset, by decide⟩,
   ⟨158, regAddr .fabBrimCfg, 16, 0, .fabBrimCfg, 0, 0, State.reset, by decide⟩,
   ⟨158, 0xF0000E80000, 16, 1, 0, 0, false, 0, 0, State.reset, by decide⟩,
   ⟨158, 0x80000000000, 16, 1, 1, 0, 0, State.reset, ⟨by decide, mem_cell, by decide⟩⟩,
   ⟨158, 0xF0001000000, 8, 1, 0, 0, State.reset, by decide⟩,
   ⟨0, reqS 0xA01 (pack 16 [(8, 2, 1)]), by decide⟩,
   ⟨0, .fabBrimCfg, reqS 0xA02 (pack 24 [(0, 8, regAddr .fabBrimCfg)]), by decide⟩,
   ⟨0, true, reqS 0xA03 [3], by decide⟩⟩

theorem witness_FeedsAndTheCrown :
    (∃ (g : Glove) (s : State), (gloveAt s g).alive = false) ∧
    (∃ (g : Glove) (va vb : Int) (ia ib : Nat) (fna fnb fba fbb : Bool) (s : State), (gloveAt s g).alive = true) ∧
    (∃ (x : Glove) (c t0 : Nat) (s : State), (feedAt s x).cand = some (c, t0)) ∧
    (∃ (g : Glove) (s : State), (gloveAt s g).alive = true) ∧
    (∃ (g : Glove) (m : GMsg) (v periodNs : Nat) (rest : List (GMsg × Nat)) (s : State), (gloveAt s g).wire = (m, v) :: rest ∧ (gloveAt s g).alive = true) ∧
    (∃ (g : Glove) (s : State), (gloveAt s g).alive = true ∧ (gloveAt s g).lost = false) ∧
    (∃ (g : Glove) (t0 : Nat) (s : State), (gloveAt s g).unbrokenFrom = some t0 ∧ (gloveAt s g).alive = true ∧ (gloveAt s g).link = false) ∧
    (∃ (g : Glove) (s : State), (gloveAt s g).alive = true ∧ (gloveAt s g).crown = true) ∧
    (∃ (g : Glove) (s : State), canClaim s g = true ∧ (gloveAt s g).claiming = false ∧ (gloveAt s g).lastFrame ≠ none ∧ (gloveAt s (otherG g)).alive = true) ∧
    (∃ (g : Glove) (s : State), canClaim s g = true ∧ (gloveAt s g).claiming = false ∧ (gloveAt s g).lastFrame = none ∧ (gloveAt s (otherG g)).request = false) ∧
    (∃ (x : Glove) (t0 : Nat) (s : State), (feedAt s x).disagreeFrom = some t0 ∧ (feedAt s x).stuckOn = false ∧ (feedAt s x).stuckOff = false) ∧
    (∃ (x : Glove) (t0 : Nat) (s : State), (feedAt s x).stuckOn = true ∧ (feedAt s x).fbLowFrom = some t0) ∧
    (∃ (s : State), s.stby.a.request = true ∧ s.stby.b.request = true) ∧
    (∃ (s : State), s.stby.conflict = true ∧ s.stby.a.request = false ∧ s.stby.b.request = false ∧ linkOk s = true) ∧
    (∃ (x : Glove) (s : State), [Glove.a, Glove.b].find? (mayRise s) = some x) ∧
    (∃ (g : Glove) (mv : Nat) (s : State), (gloveAt s g).alive = true) ∧
    (∃ (g : Glove) (e : Nat) (s : State), (gloveAt s g).alive = true) ∧
    (∃ (o q : Int) (s : State), s.stby.a.alive = true ∧ s.stby.b.alive = true ∧ s.stby.feedA.vOwn = some o ∧ s.stby.feedA.vPeer = some q) ∧
    (∃ (g : Glove) (khz : Nat) (s : State), (gloveAt s g).alive = true ∧ s.rails.coreReset = false) ∧
    (∃ (g : Glove) (mv : Nat) (s : State), (gloveAt s g).alive = true) ∧
    (∃ (p1 p2 : Bool) (g : Glove) (s : State), [Glove.b, Glove.a].find? (fun g => (gloveAt s g).alive && !(gloveAt s g).crown) = some g) ∧
    (∃ (dest : Glove) (s : State), (gloveAt s dest).crown = false ∧ (feedAt s dest).state = 2 ∧ (gloveAt s dest).alive = true ∧ driftOf s dest = false ∧ s.stby.conflict = false ∧ s.stby.faultLatched = false ∧ linkOk s = true) ∧
    (∃ (dest : Glove) (n : Nat) (s : State), (handover s dest).1 = some n) ∧
    (∃ (ch : Nat) (dest : Glove) (s : State), Safety.mbxReady s ch 0x901 = true ∧ fieldAt (Safety.payOf s ch) 0 1 = (if dest = .a then 0 else 1) ∧ (handover s dest).1 = none) ∧
    (∃ (ch n : Nat) (dest : Glove) (s : State), Safety.mbxReady s ch 0x901 = true ∧ fieldAt (Safety.payOf s ch) 0 1 = (if dest = .a then 0 else 1) ∧ (handover s dest).1 = some n) ∧
    (∃ (ch : Nat) (s : State), Safety.mbxReady s ch 0x900 = true) :=
  ⟨⟨.a, State.reset, by decide⟩,
   ⟨.a, 4800, 4800, 0, 0, true, true, false, false, glovesS, by decide⟩,
   ⟨.a, 2, 0, { glovesS with stby := { glovesS.stby with feedA := { cand := some (2, 0) } } }, by decide⟩,
   ⟨.b, glovesS, by decide⟩,
   ⟨.b, .renew, 1, 125000, [], { glovesS with stby := { glovesS.stby with b := { glovesS.stby.b with wire := [(.renew, 1)] } } }, by decide⟩,
   ⟨.a, glovesS, by decide⟩,
   ⟨.a, 0, { glovesS with stby := { glovesS.stby with a := { alive := true, unbrokenFrom := some 0 } } }, by decide⟩,
   ⟨.a, crownS, by decide⟩,
   ⟨.b, { glovesS with stby := { glovesS.stby with b := { glovesS.stby.b with lastFrame := some 0 } } }, by decide⟩,
   ⟨.b, glovesS, by decide⟩,
   ⟨.a, 0, { glovesS with stby := { glovesS.stby with feedA := { disagreeFrom := some 0 } } }, by decide⟩,
   ⟨.a, 0, { glovesS with stby := { glovesS.stby with feedA := { stuckOn := true, fbLowFrom := some 0 } } }, by decide⟩,
   ⟨{ State.reset with stby := { a := { alive := true, request := true }, b := { alive := true, request := true } } }, by decide⟩,
   ⟨{ State.reset with stby := { a := { alive := true, link := true }, b := { alive := true, link := true }, conflict := true } }, by decide⟩,
   ⟨.a, { State.reset with stby := { a := { alive := true, request := true } } }, by decide⟩,
   ⟨.a, 401, glovesS, by decide⟩,
   ⟨.a, 11, glovesS, by decide⟩,
   ⟨4800, 4600, { glovesS with stby := { glovesS.stby with feedA := { vOwn := some 4800, vPeer := some 4600 } } }, by decide⟩,
   ⟨.a, 7759, { glovesS with rails := { coreReset := false } }, by decide⟩,
   ⟨.a, 3134, glovesS, by decide⟩,
   ⟨true, false, .b, crownS, by decide⟩,
   ⟨.b, crownS, by decide⟩,
   ⟨.b, 1, State.reset, by decide⟩,
   ⟨0, .b, { crownS with bank := (reqS 0x901 [1]).bank, ctl := (reqS 0x901 [1]).ctl }, by decide⟩,
   ⟨0, 1, .a, reqS 0x901 [0], by decide⟩,
   ⟨0, reqS 0x900 [], by decide⟩⟩

theorem witness_RailsAndRestarts :
    (∃ (t0 : Nat) (s : State), s.rails.en = 0 ∧ s.rails.waitFeed = false ∧ s.rails.retryAt = none ∧ s.rails.crownFrom = some t0) ∧
    (∃ (t0 : Nat) (s : State), s.rails.en = 0 ∧ s.rails.waitFeed = false ∧ s.rails.retryAt = none ∧ s.rails.crownFrom = none ∧ s.rails.aliveFrom = some t0) ∧
    (∃ (r : Nat) (s : State), r < 7 ∧ s.rails.en.getLsbD r = true ∧ s.rails.pg.getLsbD r = false ∧ s.rails.en.getLsbD (r + 1) = false) ∧
    (∃ (s : State), s.rails.coreReset = true ∧ s.clk.waitRef = false ∧ s.boot.halt = 0 ∧ s.rails.sysRstN = true ∧ s.rails.en.getLsbD 7 = true ∧ s.rails.pg = 0x7F) ∧
    (∃ (r : Nat) (s : State), s.rails.en.getLsbD r = true ∧ s.rails.pg.getLsbD r = false) ∧
    (∃ (t0 : Nat) (s : State), s.rails.retryAt = some t0 ∧ anyFeedOk s = true) ∧
    (∃ (r : Nat) (s : State), s.rails.pg.getLsbD r = true ∧ s.stby.a.alive = true) ∧
    (∃ (t0 : Nat) (s : State), s.rails.waitFeed = true ∧ s.stby.feedA.okSince = some t0 ∧ s.stby.feedB.okSince = none) ∧
    (∃ (s : State), s.rails.sysRstN = true ∧ s.rails.coreReset = false) ∧
    (∃ (s : State), s.rails.coreReset = true ∧ s.clk.waitRef = false ∧ s.boot.halt = 0 ∧ s.rails.sysRstN = false ∧ s.rails.pg = 0xFF) ∧
    (∃ (d : Int) (s : State), 125 ≤ d ∧ s.rails.coreReset = false ∧ s.rails.thermtrip = false) ∧
    (∃ (g : Glove) (s : State), (gloveAt s g).alive = true ∧ (gloveAt s (otherG g)).alive = true) ∧
    (∃ (g : Glove) (s : State), (gloveAt s g).alive = true ∧ (gloveAt s (otherG g)).alive = false) ∧
    (∃ (c : Nat) (s : State), s.boot.quiesce = some c ∧ s.hq.cmds = [] ∧ s.pools.any (fun e => poolBusy e.2) = false) ∧
    (∃ (c : Nat) (s : State), s.boot.quiesce = some c ∧ s.hq.cmds ≠ []) ∧
    (∃ (s : State), s.rails.coreReset = false ∧ s.ctl.pairsUp = 3) ∧
    (∃ (s : State), s.rails.coreReset = false ∧ s.ctl.pairsUp = 2) ∧
    (∃ (ch : Nat) (s : State), Safety.mbxReady s ch 0xA00 = true ∧ s.boot.quiesce = none ∧ (s.ctl.safeMode = true ∨ esLevel s = 4)) :=
  ⟨⟨7, { State.reset with rails := { crownFrom := some 7 } }, by decide⟩,
   ⟨3, { State.reset with rails := { aliveFrom := some 3 } }, by decide⟩,
   ⟨0, { State.reset with rails := { en := 1 } }, by decide⟩,
   ⟨{ State.reset with rails := { en := 0xFF, pg := 0x7F } }, by decide⟩,
   ⟨0, { State.reset with rails := { en := 1 } }, by decide⟩,
   ⟨0, { State.reset with rails := { retryAt := some 0 }, stby := { feedA := { state := 2 } } }, by decide⟩,
   ⟨7, { glovesS with rails := { en := 0xFF, pg := 0xFF, coreReset := false } }, by decide⟩,
   ⟨0, { State.reset with rails := { waitFeed := true }, stby := { feedA := { okSince := some 0 } } }, by decide⟩,
   ⟨{ State.reset with rails := { coreReset := false } }, by decide⟩,
   ⟨{ State.reset with rails := { pg := 0xFF, sysRstN := false } }, by decide⟩,
   ⟨125, { State.reset with rails := { coreReset := false } }, by decide⟩,
   ⟨.a, crownS, by decide⟩,
   ⟨.a, { State.reset with stby := { a := { alive := true } } }, by decide⟩,
   ⟨8, { State.reset with boot := { quiesce := some 8 } }, by decide⟩,
   ⟨8, { withCmd cmdA with boot := { quiesce := some 8 } }, by decide⟩,
   ⟨{ State.reset with rails := { coreReset := false } }, by decide⟩,
   ⟨{ State.reset with rails := { coreReset := false }, ctl := { pairsUp := 2 } }, by decide⟩,
   ⟨0, { withRegs [(.ctlCtrl, 0xF), (.hqEs, 4)] with ctl := (reqS 0xA00 []).ctl }, by decide⟩⟩

theorem witness_StartStepsAndShelfTime :
    (∃ (s : State), s.rails.coreReset = false ∧ s.boot.step = 3) ∧
    (∃ (s : State), s.rails.coreReset = false ∧ s.boot.step = 4) ∧
    (∃ (s : State), s.rails.coreReset = false ∧ s.boot.step = 5 ∧ s.boot.warm = false ∧ 65536 + guaranteeSum s + fld s .fabGwCfg 19 0 ≤ bufferCells s.dom.on ∧ (List.range 6).any (fun c => s.dom.on.getLsbD (40 + c)) = true ∧ s.ctl.pairsUp ≠ 0) ∧
    (∃ (s : State), s.rails.coreReset = false ∧ s.boot.step = 5 ∧ s.boot.warm = true ∧ 65536 + guaranteeSum s + fld s .fabGwCfg 19 0 ≤ bufferCells s.dom.on ∧ (List.range 6).any (fun c => s.dom.on.getLsbD (40 + c)) = true ∧ s.ctl.pairsUp ≠ 0) ∧
    (∃ (f : SelfTestFaults) (s : State), s.rails.coreReset = false ∧ s.boot.step = 5 ∧ f.ctxCache = true) ∧
    (∃ (s : State), s.rails.coreReset = false ∧ s.boot.step = 6) ∧
    (∃ (s : State), s.rails.coreReset = false ∧ s.boot.step = 7) ∧
    (∃ (s : State), s.rails.coreReset = false ∧ s.boot.step = 8) ∧
    (∃ (n : Nat) (s : State), n = esLevel s + 1 ∧ n ≤ 4 ∧ s.ctl.safeMode = false ∧ levelReady s n = true) ∧
    (∃ (n : Nat) (s : State), (n ≠ esLevel s + 1 ∨ 4 < n ∨ s.ctl.safeMode = true ∨ levelReady s n = false)) ∧
    (∃ (s : State), s.rails.coreReset = false ∧ 5 ≤ s.boot.step ∧ s.boot.wdogRunning = true ∧ nowOf s < s.boot.wdogFrom + s.boot.wdogLoad * 1000000000) ∧
    (∃ (s : State), s.boot.wdogRunning = true ∧ nowOf s < s.boot.wdogFrom + s.boot.wdogLoad * 1000000000) ∧
    (∃ (s : State), s.rails.coreReset = false ∧ 5 ≤ s.boot.step ∧ s.boot.wdogRunning = true ∧ s.boot.wdogFrom + s.boot.wdogLoad * 1000000000 ≤ nowOf s) ∧
    (∃ (s : State), s.boot.wdogRunning = true ∧ s.boot.wdogWarned = false) ∧
    (∃ (s : State), s.boot.wdogRunning = true) ∧
    (∃ (c : CoreClock) (s : State), s.rails.pg = 0xFF) ∧
    (∃ (s : State), s.clk.waitRef = true) ∧
    (∃ (s : State), s.rails.coreReset = false) ∧
    (∃ (v : Word) (s : State), nowOf s < v.toNat) ∧
    (∃ (v : Word) (s : State), v.toNat ≤ nowOf s) ∧
    (∃ (slew ppb : Int) (s : State), (-1000000000 ≤ slew ∧ slew ≤ 1000000000) ∧ (-500000 ≤ ppb ∧ ppb ≤ 500000)) ∧
    (∃ (slew ppb : Int) (s : State), (slew < -1000000000 ∨ 1000000000 < slew ∨ ppb < -500000 ∨ 500000 < ppb)) :=
  ⟨⟨stepS 3, by decide⟩,
   ⟨stepS 4, by decide⟩,
   ⟨stepS 5, by decide⟩,
   ⟨{ stepS 5 with boot := { step := 5, warm := true } }, by decide⟩,
   ⟨{ ctxCache := true }, stepS 5, by decide⟩,
   ⟨stepS 6, by decide⟩,
   ⟨stepS 7, by decide⟩,
   ⟨stepS 8, by decide⟩,
   ⟨2, stepS 10, by decide⟩,
   ⟨3, stepS 10, by decide⟩,
   ⟨{ stepS 5 with boot := { step := 5, wdogRunning := true } }, by decide⟩,
   ⟨{ State.reset with boot := { wdogRunning := true } }, by decide⟩,
   ⟨{ stepS 5 with boot := { step := 5, wdogRunning := true, wdogLoad := 0 } }, by decide⟩,
   ⟨{ State.reset with boot := { wdogRunning := true } }, by decide⟩,
   ⟨{ State.reset with boot := { wdogRunning := true } }, by decide⟩,
   ⟨.ref25, { State.reset with rails := { pg := 0xFF } }, by decide⟩,
   ⟨{ State.reset with clk := { waitRef := true } }, by decide⟩,
   ⟨stepS 8, by decide⟩,
   ⟨1, State.reset, by decide⟩,
   ⟨0, State.reset, by decide⟩,
   ⟨-1000000000, 500000, State.reset, by decide⟩,
   ⟨0, 500001, State.reset, by decide⟩⟩

theorem witness_StepTakesTheFrontCommand :
    (∃ (s : State), s.pending = []) :=
  ⟨State.reset, by decide⟩

theorem witness_NoCommandTouchesTheQueue :
    (∃ (c : Instr) (s t : State), exec c s = .next t) :=
  ⟨.snap, State.reset, _, rfl⟩

theorem witness_ShelfTimeNeverRunsBackward :
    (∃ (s t : State), step s = .next t) :=
  ⟨State.reset, _, rfl⟩

theorem witness_EveryStepKeepsTheInvariant :
    (∃ (s t : State), Safety.inv s = true ∧ step s = .next t) :=
  ⟨State.reset, _, ⟨by decide, rfl⟩⟩

theorem witness_MemoryReadsBackWhatIsStored :
    (∃ (a c : Nat) (b : Bytes) (s : State), memWf s.mem = true) ∧
    (∃ (m n : List Host.Cell), memWf m = true ∧ memWf n = true ∧ ∀ a, memRead m a = memRead n a) :=
  ⟨⟨0, 0, [1], State.reset, by decide⟩,
   ⟨[], [], ⟨rfl, rfl, fun _ => rfl⟩⟩⟩

theorem witness_RegisterBitsFollowTheirCodes :
    (∃ (i : RegInfo) (old v sets clears : Word) (k : Nat), k < 64) ∧
    (∃ (src : Nat) (r : Reg) (v sets clears : Word) (s : State), r ∈ [.fabEvent, .netEvent, .qpEvent, .hqEvent, .mapEvent, .mcEvent, .hbxEvent, .movEvent, .parEvent, .drvEvent, .sepEvent, .telEvent, .glvEvent, .pwrEvent, .clkEvent, .ctlEvent]) :=
  ⟨⟨{}, 0, 0, 0, 0, 63, by decide⟩,
   ⟨158, .fabEvent, 1, 1, 0, State.reset, by decide⟩⟩

theorem witness_UndecodedAccessesAreLogged :
    (∃ (src addr : Nat) (s : State), s.decValid = false) ∧
    (∃ (src addr : Nat) (s : State), s.decValid = true) ∧
    (∃ (src addr len : Nat) (s : State), 0xF0000000000 ≤ addr ∧ mbxBuffer addr len = none ∧ regOfAddr addr = none) ∧
    (∃ (src addr len : Nat) (r : Reg) (s : State), 0xF0000000000 ≤ addr ∧ mbxBuffer addr len = none ∧ regOfAddr addr = some r ∧ len ≠ 8) ∧
    (∃ (src : Nat) (v : Word) (s : State), v.getLsbD 63 = true) ∧
    (∃ (src : Nat) (v sets : Word) (s : State), v.getLsbD 63 = true ∧ sets.getLsbD 63 = true) :=
  ⟨⟨158, 0, State.reset, by decide⟩,
   ⟨158, 0, { State.reset with decValid := true }, by decide⟩,
   ⟨158, 0xF0001000000, 8, State.reset, by decide⟩,
   ⟨158, regAddr .fabBrimCfg, 4, .fabBrimCfg, State.reset, by decide⟩,
   ⟨158, 0x8000000000000000, { State.reset with decValid := true }, by decide⟩,
   ⟨158, 0x8000000000000000, 0x8000000000000000, { State.reset with decValid := true }, by decide⟩⟩

theorem witness_WindowCommitsAreCheckedAgainstTheMap :
    (∃ (e : Nat) (s : State), e < 64 ∧ ((((bankGet s (.sepWinShdBase e)).toNat + winBytes (bankGet s (.sepWinShdCtrl e)) ≤ Config.installedDramGib * 2 ^ 30 ∧ (bankGet s (.sepWinShdBase e)).toNat + winBytes (bankGet s (.sepWinShdCtrl e)) ≤ 2 ^ 41) ∨
          (bit (bankGet s (.sepWinShdCtrl e)) 2 = false ∧ ((0xA0000000000 ≤ (bankGet s (.sepWinShdBase e)).toNat ∧ (bankGet s (.sepWinShdBase e)).toNat + winBytes (bankGet s (.sepWinShdCtrl e)) ≤ 0xA0020000000) ∨
            (0xC0000000000 ≤ (bankGet s (.sepWinShdBase e)).toNat ∧ (bankGet s (.sepWinShdBase e)).toNat + winBytes (bankGet s (.sepWinShdCtrl e)) ≤ 0xC0040000000)))))) ∧
    (∃ (e : Nat) (s : State), e < 64 ∧ flag s .sepWinCommit e = false ∧ (¬ (((bankGet s (.sepWinShdBase e)).toNat + winBytes (bankGet s (.sepWinShdCtrl e)) ≤ Config.installedDramGib * 2 ^ 30 ∧ (bankGet s (.sepWinShdBase e)).toNat + winBytes (bankGet s (.sepWinShdCtrl e)) ≤ 2 ^ 41) ∨
          (bit (bankGet s (.sepWinShdCtrl e)) 2 = false ∧ ((0xA0000000000 ≤ (bankGet s (.sepWinShdBase e)).toNat ∧ (bankGet s (.sepWinShdBase e)).toNat + winBytes (bankGet s (.sepWinShdCtrl e)) ≤ 0xA0020000000) ∨
            (0xC0000000000 ≤ (bankGet s (.sepWinShdBase e)).toNat ∧ (bankGet s (.sepWinShdBase e)).toNat + winBytes (bankGet s (.sepWinShdCtrl e)) ≤ 0xC0040000000)))))) :=
  ⟨⟨63, withRegs [(.sepWinShdBase 63, 0xA0000000000)], ⟨by decide, Or.inr (by decide)⟩⟩,
   ⟨0, winBadS, ⟨by decide, by decide, win_out⟩⟩⟩

theorem witness_WindowSetsChangeByCommitAlone :
    (∃ (e : Nat) (s : State), e < 64 ∧ winCommitOk (bankGet s (.sepWinShdBase e)) (bankGet s (.sepWinShdCtrl e)) = true) ∧
    (∃ (x : Tlp) (s t : State), t.sep.wins = s.sep.wins) ∧
    (∃ (e : Nat) (c : Instr) (s t : State), e < 64 ∧ flag s .sepWinCommit e = true ∧ Safety.groupOf c = .endpoint ∧ c ≠ .windowDrainDone e ∧ exec c s = .next t) ∧
    (∃ (e : Nat) (s : State), e < 64) ∧
    (∃ (src e : Nat) (v sets clears : Word) (s : State), e < 64 ∧ flag s .sepWinCommit e = true) :=
  ⟨⟨63, withRegs [(.sepWinShdBase 63, 0xA0000000000)], ⟨by decide, win_good⟩⟩,
   ⟨{ off := 0, len := 8, write := none }, State.reset, winBadS, rfl⟩,
   ⟨0, .flrReady 0, withRegs [(.sepWinCommit, 1)], _, ⟨by decide, by decide, rfl, by decide, rfl⟩⟩,
   ⟨63, withRegs [(.sepWinCommit, 0x8000000000000000)], by decide⟩,
   ⟨158, 63, 1, 0, 0, withRegs [(.sepWinCommit, 0x8000000000000000)], by decide⟩⟩

theorem witness_HostInterruptSources :
    (∃ (v : Nat) (s : State), (5 ≤ v ∧ v < 64)) ∧
    (∃ (c : Nat) (msg : Bytes) (s : State), c < 4 ∧ (chanAt s c).route = .pf0) ∧
    (∃ (v : Nat) (s : State), s.sep.pf0.msix = true ∧ fnLive s.sep.pf0 = true ∧ vectorMasked s.sep.pf0 v = false) ∧
    (∃ (v : Nat) (s : State), v < 64 ∧ s.sep.pf0.msix = true ∧ (fnLive s.sep.pf0 && !(vectorMasked s.sep.pf0 v)) = false) ∧
    (∃ (v : Nat) (s : State), s.sep.pf0.msix = false ∧ s.sep.pf0.msi = true ∧ fnLive s.sep.pf0 = true ∧ s.sep.pf0.msiMasked = false) ∧
    (∃ (x : Tlp) (b : Bytes) (s : State), s.sep.linkUp = true ∧ barOpen s 0 = true ∧ x.off = 0x1008 ∧ imageSize x = true ∧ x.write = some b ∧ x.poisoned = false ∧ s.sep.pf0.msix = false ∧ s.sep.pf0.msi = true ∧ fnLive s.sep.pf0 = true ∧ s.sep.pf0.msiMasked = false) ∧
    (∃ (v : Nat) (s : State), s.sep.pf0.msix = false ∧ s.sep.pf0.msi = false) :=
  ⟨⟨63, State.reset, by decide⟩,
   ⟨0, [], State.reset, by decide⟩,
   ⟨0, { State.reset with sep := { pf0 := { me := true, msix := true, table := [(0, 0, 0)] } } }, by decide⟩,
   ⟨63, { State.reset with sep := { pf0 := { me := true, msix := true } } }, by decide⟩,
   ⟨0, { State.reset with sep := { pf0 := { me := true, msi := true } } }, by decide⟩,
   ⟨{ off := 0x1008, len := 8, write := some [1] }, [1], { withRegs [(.sepCtrl, 7)] with sep := { linkUp := true, intPend := 3, pf0 := { me := true, msi := true } } }, by decide⟩,
   ⟨0, State.reset, by decide⟩⟩

theorem witness_CountersWrapAndChain :
    (∃ (n v : Nat) (s : State), counterKnown n = true ∧ (1 ≤ v ∧ v ≤ 15) ∧ ctrHigh s.tel.ctrs n = false ∧ (ctrOf s.tel.ctrs n).value < 281474976710656 ∧ (ctrOf s.tel.ctrs n).chain = true ∧ 281474976710656 ≤ (ctrOf s.tel.ctrs n).value + (if (ctrOf s.tel.ctrs n).edge then 1 else v) ∧ (ctrOf s.tel.ctrs (n + 1)).value < 281474976710656) ∧
    (∃ (n v : Nat) (s : State), ctrHigh s.tel.ctrs n = true) ∧
    (∃ (n v : Nat) (s : State), counterKnown n = true ∧ (1 ≤ v ∧ v ≤ 15) ∧ ctrHigh s.tel.ctrs n = false ∧ (ctrOf s.tel.ctrs n).value < 281474976710656 ∧ (ctrOf s.tel.ctrs n).chain = false ∧ 281474976710656 ≤ (ctrOf s.tel.ctrs n).value + (if (ctrOf s.tel.ctrs n).edge then 1 else v)) ∧
    (∃ (src n : Nat) (v sets clears : Word) (s : State), n < 2048 ∧ v.getLsbD 1 = true ∧ (n = 0x7FF ∨ (ctrOf s.tel.ctrs (n + 1)).chain = true ∨ (n ≠ 0 ∧ (ctrOf s.tel.ctrs (n - 1)).chain = true))) ∧
    (∃ (src n : Nat) (v sets clears : Word) (s : State), n < 2048 ∧ (v.getLsbD 1 = false ∨ (n ≠ 0x7FF ∧ (ctrOf s.tel.ctrs (n + 1)).chain = false ∧ (n = 0 ∨ (ctrOf s.tel.ctrs (n - 1)).chain = false)))) :=
  ⟨⟨0, 15, chainS, by decide⟩,
   ⟨1, 15, chainS, by decide⟩,
   ⟨5, 1, chainS, by decide⟩,
   ⟨158, 1, 2, 0, 0, chainS, by decide⟩,
   ⟨158, 2047, 1, 0, 0, chainS, by decide⟩⟩

theorem witness_FrameSamplesGoToTheirSlots :
    (∃ (r : FrameSample) (rest : List FrameSample) (s : State), s.fab.samples = r :: rest ∧ flag s .telCtrl 0 = true ∧ s.boot.dramSelfRefresh = false) ∧
    (∃ (f : InFrame) (port : Nat) (egress : Bool) (s : State), portUp s 158 = false) :=
  ⟨⟨sampleW, [], { withRegs [(.telCtrl, 1)] with fab := { samples := [sampleW] } }, by decide⟩,
   ⟨{ input := 0, prio := 0, seq := 0, sofAt := 0 }, 0, false, State.reset, by decide⟩⟩

theorem witness_FailedCommandsFreezeTheirQueue :
    (∃ (slot st : Nat) (k : Cmd) (n : Conn) (u : Queue) (s : State), cmdAt s slot = some k ∧ connAt s k.conn = some n ∧ queueAt s k.conn k.queue = some u ∧ n.nvme = false ∧ u.lost = false) ∧
    (∃ (c q : Nat) (u : Queue) (s : State), queueAt s c q = some u ∧ u.frozen = true) :=
  ⟨⟨7, 0x22, cmdA, connA, queueA, withCmd cmdA, by decide⟩,
   ⟨0, 1, { queueA with frozen := true }, hostHeadF (capA 1), by decide⟩⟩

theorem witness_FrameOfTheEdgeAndFabric :
    (∃ (c : Instr) (s t : State), Safety.groupOf c = .edge ∧ exec c s = .next t) :=
  ⟨.ptpTxtsPop, State.reset, _, ⟨rfl, rfl⟩⟩

theorem witness_FrameOfTheTransport :
    (∃ (c : Instr) (s t : State), Safety.groupOf c = .transport ∧ exec c s = .next t) ∧
    (∃ (c : Instr) (s t : State), Safety.groupOf c = .queuePairs ∧ exec c s = .next t) :=
  ⟨⟨.sendPacket { qp := 0, psn := 0, ackReq := false, first := true, last := true, payload := [] }, State.reset, _, ⟨rfl, rfl⟩⟩,
   ⟨.baseWindowRoll 0, State.reset, _, ⟨rfl, rfl⟩⟩⟩

theorem witness_FrameOfHostCommandsAndWrites :
    (∃ (c : Instr) (s t : State), Safety.groupOf c = .hosts ∧ exec c s = .next t) ∧
    (∃ (c : Instr) (s t : State), Safety.groupOf c = .hostWindows ∧ exec c s = .next t) ∧
    (∃ (c : Instr) (s t : State), Safety.groupOf c = .writes ∧ exec c s = .next t) ∧
    (∃ (c : Instr) (s t : State), Safety.groupOf c = .driveCommands ∧ exec c s = .next t) :=
  ⟨⟨.resetTimeout 0, State.reset, _, ⟨rfl, rfl⟩⟩,
   ⟨.writeCapWindow, State.reset, _, ⟨rfl, rfl⟩⟩,
   ⟨.controllerFatalStatus 64, State.reset, _, ⟨rfl, rfl⟩⟩,
   ⟨.latencyWindow, State.reset, _, ⟨rfl, rfl⟩⟩⟩

theorem witness_FrameOfUpkeepAndJournal :
    (∃ (c : Instr) (s t : State), Safety.groupOf c = .upkeep ∧ exec c s = .next t) ∧
    (∃ (c : Instr) (s t : State), Safety.groupOf c = .adjustments ∧ exec c s = .next t) ∧
    (∃ (c : Instr) (s t : State), Safety.groupOf c = .journal ∧ exec c s = .next t) ∧
    (∃ (c : Instr) (s t : State), Safety.groupOf c = .ringUpkeep ∧ exec c s = .next t) :=
  ⟨⟨.mapRootLoad 0, State.reset, _, ⟨rfl, rfl⟩⟩,
   ⟨.checkpointStart 0, State.reset, _, ⟨rfl, rfl⟩⟩,
   ⟨.epochCommit 0, State.reset, _, ⟨rfl, rfl⟩⟩,
   ⟨.watermark 0, State.reset, _, ⟨rfl, rfl⟩⟩⟩

theorem witness_FrameOfMapCacheAndMovers :
    (∃ (c : Instr) (s t : State), Safety.groupOf c = .mapCache ∧ exec c s = .next t) ∧
    (∃ (c : Instr) (s t : State), Safety.groupOf c = .movers ∧ exec c s = .next t) :=
  ⟨⟨.prefetch 0, State.reset, _, ⟨rfl, rfl⟩⟩,
   ⟨.fabricPortDown 0, State.reset, _, ⟨rfl, rfl⟩⟩⟩

theorem witness_FrameOfTheMailboxAndTelemetry :
    (∃ (c : Instr) (s t : State), Safety.groupOf c = .mailbox ∧ exec c s = .next t) ∧
    (∃ (c : Instr) (s t : State), Safety.groupOf c = .channels ∧ exec c s = .next t) ∧
    (∃ (c : Instr) (s t : State), Safety.groupOf c = .telemetry ∧ exec c s = .next t) :=
  ⟨⟨.keyLoad 0, State.reset, _, ⟨rfl, rfl⟩⟩,
   ⟨.entdaa 0, State.reset, _, ⟨rfl, rfl⟩⟩,
   ⟨.snap, State.reset, _, ⟨rfl, rfl⟩⟩⟩

theorem witness_FrameOfObjectRequests :
    (∃ (c : Instr) (s t : State), Safety.groupOf c = .objects ∧ exec c s = .next t) ∧
    (∃ (c : Instr) (s t : State), Safety.groupOf c = .queries ∧ exec c s = .next t) :=
  ⟨⟨.driveFail 0, State.reset, _, ⟨rfl, rfl⟩⟩,
   ⟨.volumeQuery 0, State.reset, _, ⟨rfl, rfl⟩⟩⟩

theorem witness_FrameOfTheFeeds :
    (∃ (c : Instr) (s t : State), Safety.groupOf c = .feeds ∧ exec c s = .next t) :=
  ⟨.conflictClear, State.reset, _, ⟨rfl, rfl⟩⟩

theorem witness_FrameOfStartsAndTheEndpoint :
    (∃ (c : Instr) (s t : State), Safety.groupOf c = .starts ∧ exec c s = .next t) ∧
    (∃ (c : Instr) (s t : State), Safety.groupOf c = .startSteps ∧ Safety.wdogInTime s = true ∧ exec c s = .next t) ∧
    (∃ (c : Instr) (s t : State), Safety.groupOf c = .endpoint ∧ exec c s = .next t) :=
  ⟨⟨.esLevelSet 9, State.reset, _, ⟨rfl, rfl⟩⟩,
   ⟨.feedOkRestart, State.reset, _, ⟨rfl, rfl, rfl⟩⟩,
   ⟨.flrReady 0, State.reset, _, ⟨rfl, rfl⟩⟩⟩

theorem witness_FrameOfTheWiderCommands :
    (∃ (c : Instr) (s t : State), Safety.groupOf c = .bays ∧ exec c s = .next t) ∧
    (∃ (c : Instr) (s t : State), Safety.groupOf c = .slotSteps ∧ exec c s = .next t) ∧
    (∃ (c : Instr) (s t : State), Safety.groupOf c = .registers ∧ Safety.wdogInTime s = true ∧ exec c s = .next t) ∧
    (∃ (c : Instr) (s t : State), Safety.groupOf c = .diagnostics ∧ exec c s = .next t) ∧
    (∃ (c : Instr) (s t : State), Safety.groupOf c = .restarts ∧ exec c s = .next t) :=
  ⟨⟨.domainSwitch, State.reset, _, ⟨rfl, rfl⟩⟩,
   ⟨.perstRelease 0, State.reset, _, ⟨rfl, rfl⟩⟩,
   ⟨.regWrite 0, State.reset, _, ⟨rfl, rfl, rfl⟩⟩,
   ⟨.regRead 0, State.reset, _, ⟨rfl, rfl⟩⟩,
   ⟨.watchdogExpiry, State.reset, _, ⟨rfl, rfl⟩⟩⟩

theorem witness_LanesLieOnTheirBalls :
    (∃ (n : Nat), n < 32) ∧
    (∃ (p j : Nat), p < 32 ∧ j < 2) :=
  ⟨⟨31, by decide⟩,
   ⟨31, 1, by decide⟩⟩

end Sys2Proof.Tests
end

section
/-! SUPPORT. Obligation O37: what memory reads as after a store (R4, log entry 3), and that the canonical form is one form. -/

namespace Sys2Proof.Machine

/-- Byte `i` of those written reads back at `i` past the address of the write: later bytes of the same write lie above it. -/
theorem memRead_memWrites_at (m : List Host.Cell) (a i : Nat) (b : Bytes) (hm : memWf m = true) (hi : i < b.length) :
    memRead (memWrites m a b) (a + i) = b.getD i 0 := by
  induction b generalizing m a i with
  | nil => exact absurd hi (Nat.not_lt_zero i)
  | cons x r ih =>
    have hx : memWf (memWrite m a x) = true := memWrite_wf m a x hm
    rw [memWrites]
    cases i with
    | zero => rw [memRead_memWrites_other _ _ _ r hx (.inl (by omega)), memRead_memWrite m a _ x hm]; simp
    | succ i =>
      rw [show a + (i + 1) = a + 1 + i by omega, ih _ (a + 1) i hx (Nat.lt_of_succ_lt_succ hi)]
      simp

/-- What any address reads as after a write of bytes. -/
theorem memRead_memWrites (m : List Host.Cell) (a c : Nat) (b : Bytes) (hm : memWf m = true) :
    memRead (memWrites m a b) c = if a ≤ c ∧ c < a + b.length then b.getD (c - a) 0 else memRead m c := by
  split
  next hin =>
    obtain ⟨i, rfl⟩ := Nat.exists_eq_add_of_le hin.1
    rw [memRead_memWrites_at m a i b hm (by omega), Nat.add_sub_cancel_left]
  next hout => exact memRead_memWrites_other m a c b hm (by omega)

@[simp] theorem memRead_cons_same (j : Nat) (b : Byte) (r : List Host.Cell) : memRead ((j, b) :: r) j = b := by
  simp [memRead]

theorem memRead_cons_other {j a : Nat} (b : Byte) (r : List Host.Cell) (h : j ≠ a) : memRead ((j, b) :: r) a = memRead r a := by
  simp [memRead, h]

/-- A listed byte is not 0, so a memory that begins above it reads differently there. -/
theorem memRead_ne_of_memAbove {j : Nat} {b : Byte} {r n : List Host.Cell} (hm : memWf ((j, b) :: r) = true) (hn : memWf n = true)
    (ha : memAbove j n) : memRead ((j, b) :: r) j ≠ memRead n j := by
  rw [memRead_cons_same, memRead_above ha hn]
  exact memWf_head hm

/-- Memories in canonical form that read alike list the same cells: their first addresses agree, or one would read 0 where the other
lists a byte. -/
theorem memWf_ext (m n : List Host.Cell) (hm : memWf m = true) (hn : memWf n = true) (h : ∀ a, memRead m a = memRead n a) : m = n := by
  induction m generalizing n with
  | nil =>
    cases n with
    | nil => rfl
    | cons f q => exact absurd (h f.1).symm (memRead_ne_of_memAbove hn hm trivial)
  | cons e r ih =>
    obtain ⟨j, b⟩ := e
    cases n with
    | nil => exact absurd (h j) (memRead_ne_of_memAbove hm hn trivial)
    | cons f q =>
      obtain ⟨k, c⟩ := f
      obtain hlt | rfl | hgt := Nat.lt_trichotomy j k
      · exact absurd (h j) (memRead_ne_of_memAbove hm hn hlt)
      · have hbc : b = c := by simpa using h j
        have htail : ∀ a, memRead r a = memRead q a := fun a => by
          by_cases haj : j = a
          · subst haj
            rw [memRead_above (memWf_above hm) (memWf_tail hm), memRead_above (memWf_above hn) (memWf_tail hn)]
          · rw [← memRead_cons_other b r haj, h a, memRead_cons_other c q haj]
        rw [hbc, ih q (memWf_tail hm) (memWf_tail hn) htail]
      · exact absurd (h k).symm (memRead_ne_of_memAbove hn hm hgt)

/-- Settles O37: a store writes its bytes one by one, and the canonical form is determined by what it reads as. -/
theorem memoryReadsBackWhatIsStored : Obligations.MemoryReadsBackWhatIsStored :=
  ⟨fun a c b s hm => ⟨store_wf s a b hm, memRead_memWrites s.mem a c b hm⟩, memWf_ext⟩

end Sys2Proof.Machine
end

section
/-! SUPPORT. Accesses by address (R5, R387, R388): one equation of `busWrite` for each place that an address can name, and what a
mailbox row answers when its request is ready. -/

namespace Sys2Proof.Machine

theorem exec_registerWrite (src addr size v : Nat) (sets clears : Word) (s : State) :
    exec (.registerWrite src addr size v sets clears) s = .next (busWrite s src addr size v sets clears) := rfl

/-- Register space lies above DRAM, the cell buffer, the MRAM and the diagnostic window (Table 17.1). -/
theorem memRegion_regSpace {addr : Nat} (len : Nat) (h : 0xF0000000000 ≤ addr) : memRegion addr len = none := by
  unfold memRegion
  rw [if_neg (by omega), if_neg (by omega), if_neg (by omega), if_neg (by omega)]

section
variable {s : State} {src addr size v : Nat} {sets clears : Word}

theorem busWrite_buffer {c o : Nat} {resp : Bool} (h : mbxBuffer addr size = some (c, resp, o)) :
    busWrite s src addr size v sets clears = setChan s c (fun h =>
      if resp then { h with respBuf := sparseWrite h.respBuf o (leBytes size v) }
      else { h with reqBuf := sparseWrite h.reqBuf o (leBytes size v) }) := by
  simp only [busWrite, h]

theorem busWrite_memory {k : Nat} (hb : mbxBuffer addr size = none) (hm : memRegion addr size = some k) (hk : k < 2) :
    busWrite s src addr size v sets clears = store s addr (leBytes size v) := by
  match k, hk with
  | 0, _ => simp only [busWrite, hb, hm]
  | 1, _ => simp only [busWrite, hb, hm]

theorem busWrite_register {r : Reg} (ha : 0xF0000000000 ≤ addr) (hb : mbxBuffer addr 8 = none) (hr : regOfAddr addr = some r) :
    busWrite s src addr 8 v sets clears = regWrite s r (BitVec.ofNat 64 v) sets clears := by
  simp only [busWrite, hb, memRegion_regSpace 8 ha, hr, if_true]

theorem busWrite_register_size {r : Reg} (ha : 0xF0000000000 ≤ addr) (hb : mbxBuffer addr size = none) (hr : regOfAddr addr = some r)
    (hs : size ≠ 8) : busWrite s src addr size v sets clears = undecoded s src addr := by
  simp only [busWrite, hb, memRegion_regSpace size ha, hr, hs, if_false]

theorem busWrite_no_register (ha : 0xF0000000000 ≤ addr) (hb : mbxBuffer addr size = none) (hr : regOfAddr addr = none) :
    busWrite s src addr size v sets clears = undecoded s src addr := by
  simp only [busWrite, hb, memRegion_regSpace size ha, hr]

end

/-- Where the device sets and clears nothing in the cycle of an ignored write, that write leaves the state (R7). -/
@[simp] theorem deviceBits_zero (s : State) (r : Reg) : deviceBits s r 0#64 0#64 = s := by
  unfold deviceBits
  split
  · simp [bit]
  · simp

/-- A write that a range or a field's condition forbids sets CFG_REJECT and nothing else (R6). -/
theorem regWrite_rejected {s : State} {r : Reg} {v : Word} (hl : laneAbsent s r = false) (hs : shadowBusy s r = false)
    (hc : cfgOk s r v = false) : regWrite s r v 0 0 = cfgReject s r := by
  simp [regWrite, hl, hs, hc]

/-- A request that is ready runs its row's command, on its payload and with no generation, and is answered (R272 to R274). -/
theorem mbxRow_of_ready {s : State} {ch op : Nat} (h : Safety.mbxReady s ch op = true) (f : State → Bytes → Nat → MbxOut) :
    mbxRow s ch op f = respond (f s (Safety.payOf s ch) 0).s ch (f s (Safety.payOf s ch) 0).status (f s (Safety.payOf s ch) 0).gen
      (f s (Safety.payOf s ch) 0).op (f s (Safety.payOf s ch) 0).pay := by
  simp only [Safety.mbxReady, Bool.and_eq_true, beq_iff_eq, Bool.not_eq_true'] at h
  obtain ⟨⟨⟨⟨⟨hen, hbusy⟩, hop⟩, hgen⟩, hwait⟩, hsafe⟩ := h
  simp [mbxRow, hen, hbusy, hop, hgen, hwait, hsafe, Safety.payOf]

@[simp] theorem noGen_zero (s : State) (r : MbxOut) : noGen s 0 r = r := rfl

/-- An operation that starts stands in the table under the OP_ID that it was given (R275). -/
theorem startOp_tracked (s : State) (opcode : Nat) (obj : OpObj) (result : Bytes) (plan : Option Nat) :
    (tget (startOp s opcode obj result plan).1.ctl.ops (startOp s opcode obj result plan).2).map (fun o => (o.opcode, o.plan)) =
      some (opcode, plan) := by
  simp [startOp]

end Sys2Proof.Machine
end

section
/-! SUPPORT. Obligation O38: register bits by their access codes (R6, R7, Table 0.4), and the event registers. -/

namespace Sys2Proof.Machine

/-- A bit of no stored code stays out of the stored word. -/
theorem accessWrite_unstored (i : RegInfo) (old v sets clears : Word) (k : Nat) (hrw : i.rw.getLsbD k = false)
    (hw1c : i.w1c.getLsbD k = false) (hw1s : i.w1s.getLsbD k = false) : (accessWrite i old v sets clears).getLsbD k = false := by
  simp [accessWrite, hrw, hw1c, hw1s]

/-- The event registers of the blocks. -/
def eventRegs : List Reg :=
  [.fabEvent, .netEvent, .qpEvent, .hqEvent, .mapEvent, .mcEvent, .hbxEvent, .movEvent, .parEvent, .drvEvent, .sepEvent, .telEvent,
    .glvEvent, .pwrEvent, .clkEvent, .ctlEvent]

/-- An event register's address names it and lies in no mailbox buffer (Table 17.2). -/
theorem eventRegs_address : ∀ r ∈ eventRegs,
    0xF0000000000 ≤ regAddr r ∧ mbxBuffer (regAddr r) 8 = none ∧ regOfAddr (regAddr r) = some r := by
  decide

/-- An event register stores W1C bits and no other. -/
theorem eventRegs_info : ∀ r ∈ eventRegs, (regInfo r).rw = 0#64 ∧ (regInfo r).w1s = 0#64 ∧ (regInfo r).w1c ≠ 0#64 := by
  decide

/-- A write of an event register has no condition and no effect beyond its stored bits. -/
theorem regWrite_event (s : State) (v sets clears : Word) : ∀ r ∈ eventRegs, regWrite s r v sets clears = putStored s r v sets clears := by
  simp only [eventRegs, List.forall_mem_cons]
  refine ⟨rfl, rfl, rfl, rfl, rfl, rfl, rfl, rfl, rfl, rfl, rfl, rfl, rfl, rfl, rfl, rfl, ?_⟩
  exact fun r h => absurd h List.not_mem_nil

/-- The stored bits of an event register after a write: those written 1 are cleared, but for those set in the same cycle. -/
theorem bankGet_putStored_event {r : Reg} (hr : r ∈ eventRegs) (s : State) (v sets clears : Word) :
    bankGet (putStored s r v sets clears) r = ((bankGet s r &&& ~~~v) ||| sets) &&& (regInfo r).w1c := by
  obtain ⟨hrw, hw1s, hw1c⟩ := eventRegs_info r hr
  simp [putStored, accessWrite, hrw, hw1s, hw1c]

/-- Settles O38: the bits by access code, and the write of an event register by address. -/
theorem registerBitsFollowTheirCodes : Obligations.RegisterBitsFollowTheirCodes := by
  unfold Obligations.RegisterBitsFollowTheirCodes
  refine ⟨fun i old v sets clears k hk => ⟨?rw, ?w1c, ?w1s, ?unstored⟩, ?event⟩
  case rw => exact accessWrite_rw i old v sets clears k
  case w1c => exact fun h hrw hw1s => accessWrite_w1c i old v sets clears k hk hrw h hw1s
  case w1s => exact fun h hrw hw1c => accessWrite_w1s i old v sets clears k hk hrw hw1c h
  case unstored => exact accessWrite_unstored i old v sets clears k
  case event =>
    intro src r v sets clears s hr
    obtain ⟨ha, hb, hreg⟩ := eventRegs_address r hr
    refine ⟨_, ?_, bankGet_putStored_event hr s v sets clears⟩
    rw [exec_registerWrite, busWrite_register ha hb hreg, BitVec.ofNat_toNat, BitVec.setWidth_eq, regWrite_event s v sets clears r hr]

end Sys2Proof.Machine
end

section
/-! SUPPORT. Obligation O27: writes by address, and REG_READ, REG_WRITE and SELF_TEST (R277, R281). -/

namespace Sys2Proof.Machine

theorem exec_regRead_of_ready {s : State} {ch : Nat} (h : Safety.mbxReady s ch 0xA01 = true)
    (hn : 1 ≤ fieldAt (Safety.payOf s ch) 8 2 ∧ fieldAt (Safety.payOf s ch) 8 2 ≤ 500) :
    exec (.regRead ch) s = .next (respond (readRegs s (fieldAt (Safety.payOf s ch) 0 8) (fieldAt (Safety.payOf s ch) 8 2)).1 ch 0 0 0
      (readRegs s (fieldAt (Safety.payOf s ch) 0 8) (fieldAt (Safety.payOf s ch) 8 2)).2) := by
  have hcount : ¬ (fieldAt (Safety.payOf s ch) 8 2 = 0 ∨ 500 < fieldAt (Safety.payOf s ch) 8 2) := by omega
  show execRegRead ch s = _
  simp only [execRegRead, mbxRow_of_ready h, noGen_zero, if_neg hcount]

/-- The word that REG_WRITE writes to a register: the value under the mask, and the register's own RW fields outside it (log entry 9). -/
def maskedWord (s : State) (r : Reg) (pay : Bytes) : Word :=
  (BitVec.ofNat 64 (fieldAt pay 8 8) &&& BitVec.ofNat 64 (fieldAt pay 16 8)) |||
    (regView s r &&& (regInfo r).rw &&& ~~~(BitVec.ofNat 64 (fieldAt pay 16 8)))

theorem exec_regWrite_of_ready {s : State} {ch : Nat} {r : Reg} (h : Safety.mbxReady s ch 0xA02 = true)
    (ha : 0xF0000000000 ≤ fieldAt (Safety.payOf s ch) 0 8) (hb : mbxBuffer (fieldAt (Safety.payOf s ch) 0 8) 8 = none)
    (hr : regOfAddr (fieldAt (Safety.payOf s ch) 0 8) = some r) :
    exec (.regWrite ch) s = .next (respond (regWrite s r (maskedWord s r (Safety.payOf s ch)) 0 0) ch 0 0 0
      (leBytes 8 (regView (regWrite s r (maskedWord s r (Safety.payOf s ch)) 0 0) r).toNat)) := by
  show execRegWrite ch s = _
  simp only [execRegWrite, mbxRow_of_ready h, noGen_zero, keptBits, hr, busWrite_register ha hb hr, BitVec.ofNat_toNat,
    BitVec.setWidth_eq, maskedWord]

theorem exec_selfTest_of_ready {s : State} {ch : Nat} (f : Bool) (h : Safety.mbxReady s ch 0xA03 = true)
    (ht : fieldAt (Safety.payOf s ch) 0 1 < 4) (ho : opFree s = true) :
    ∃ y op, exec (.selfTest ch f) s = .next (respond y ch 1 0 op (zeros 8)) ∧
      (tget y.ctl.ops op).map (fun o => (o.opcode, o.plan)) = some (0xA03, some 0) := by
  refine ⟨_, _, ?_, startOp_tracked (drawWord s).2 0xA03 .none
    (pack 16 [(0, 1, if f then 1 else 0), (8, 8, (drawWord s).1.toNat)]) (some 0)⟩
  show execSelfTest ch f s = _
  simp only [execSelfTest, mbxRow_of_ready h, noGen_zero, if_neg (Nat.not_le.2 ht), ho, Bool.not_true, Bool.false_eq_true, if_false,
    accepted]

/-- Settles O27: each clause is the equation of the place that its address names, or of its mailbox row. -/
theorem registersByAddressAndDiagnostics : Obligations.RegistersByAddressAndDiagnostics := by
  unfold Obligations.RegistersByAddressAndDiagnostics
  simp only [exec_registerWrite]
  refine ⟨?register, ?rejected, ?size, ?buffer, ?memory, ?noRegister, ?regRead, ?regWrite, ?selfTest⟩
  case register => intro src addr v r sets clears s ha hb hr; rw [busWrite_register ha hb hr]
  case rejected => intro src addr v r s ha hb hr hl hs hc; rw [busWrite_register ha hb hr, regWrite_rejected hl hs hc]
  case size => intro src addr size v r sets clears s ha hb hr hs; rw [busWrite_register_size ha hb hr hs]
  case buffer => intro src addr size v c o resp sets clears s hb; rw [busWrite_buffer hb]
  case memory => intro src addr size v k sets clears s hb hm hk; rw [busWrite_memory hb hm hk]
  case noRegister => intro src addr size v sets clears s ha hb hr; rw [busWrite_no_register ha hb hr]
  case regRead => exact fun ch s h hn => exec_regRead_of_ready h hn
  case regWrite => exact fun ch r s h ha hb hr => ⟨_, exec_regWrite_of_ready h ha hb hr, rfl⟩
  case selfTest => exact fun ch f s h ht ho => exec_selfTest_of_ready f h ht ho

end Sys2Proof.Machine
end

section
/-! SUPPORT. Obligation O21: a drive table that lists a slot twice, and DRIVE_ADMIT on it (R22, R129). -/

namespace Sys2Proof.Machine

/-- The answer to a request leaves the drives (R273). -/
@[simp] theorem respond_drives (s : State) (c status gen op : Nat) (pay : Bytes) : (respond s c status gen op pay).drives = s.drives := by
  unfold respond respondWith
  dsimp only
  split
  · simp
  · split
    · simp
    · simp
    · simp [sendInband, apply_ite State.drives]

/-- A drive of a usable format that waits for its admission (R11). -/
def admissibleDrive : Drive :=
  { state := .present
    ident := some { uniqueId := 2, serial := [], capacity := 0, lbaData := 4096, metaBytes := 16, protInfo := false, offers16 := true
                    offers64 := false, formatOk := true, sepMeta := true, sgl := true, vwc := true, mdts := 0, queuePairs := 64
                    queueEntries := 1024, fdpHandles := 0 } }

/-- A plain pool of one active member. -/
def oneMemberPool : Pool :=
  { id := 1, ring := 0, layout := 3, k := 1, stripShift := 4, spare := 0, balance := 1, logReserve := 1, seed := 1
    members := [(0, { uid := 1, state := .active, slots := 1000, capacity := 0, admitted := 0 })] }

/-- Slot 0 twice in the drive table, which nothing forbids a state: reads take the first entry, which waits for its admission; the second
waits in pool 0 for an evacuation (R129). Channel 0 holds DRIVE_ADMIT of slot 0 to pool 0, its payload two zero bytes. -/
def slotListedTwice : State :=
  { bankSet State.reset .ctlCtrl 0xF with
    ctl := { chans := [(0, { state := .busy, req := pack 34 [(6, 2, 0x401), (12, 4, 2)] })] }
    pools := [(0, oneMemberPool)]
    drives := [(0, admissibleDrive), (0, { admissibleDrive with pool := some 0, evacWaiting := true })] }

/-- The drive joins the pool, and the evacuations that wait there are tried again (R129): the second entry names its slot, so it leaves
at once. -/
theorem driveAdmit_slotListedTwice (t : State) (h : exec (.driveAdmit 0 true) slotListedTwice = .next t) :
    (driveAt t 0).state = .evacuating := by
  cases h
  decide

/-- Refutes O21: in `slotListedTwice` nothing refuses the DRIVE_ADMIT of slot 0 to pool 0, and the drive ends EVACUATING, not a MEMBER. -/
theorem not_driveAndPolicyRequests : ¬ Obligations.DriveAndPolicyRequests := by
  unfold Obligations.DriveAndPolicyRequests
  rintro ⟨-, -, hadmit, -⟩
  obtain ⟨y, op, g, hexec, hmember, -⟩ :=
    hadmit 0 true oneMemberPool slotListedTwice (by decide) (by decide) (by decide) (by decide) (by decide) (by decide)
  have hslot : fieldAt (Safety.payOf slotListedTwice 0) 0 1 = 0 := by decide
  have hleaves := driveAdmit_slotListedTwice _ hexec
  rw [driveAt, respond_drives, ← driveAt, ← hslot, hmember] at hleaves
  cases hleaves

end Sys2Proof.Machine
end

section
/-! SUPPORT. What a mailbox client reads of an answer: the status of a response (R272, Table 10.3, R273). -/

namespace Sys2Proof.Machine

/-- Bytes laid from an offset on leave those below it. -/
theorem tget_layBytes_below (b : Bytes) (m : Tab Byte) {off k j : Nat} (h : j < off + k) :
    tget ((b.zipIdx k).foldl (fun m p => tput m (off + p.2) p.1) m) j = tget m j := by
  induction b generalizing k m with
  | nil => rfl
  | cons x r ih => rw [List.zipIdx_cons, List.foldl_cons, ih _ (by omega), tget_tput_other _ _ _ _ (by dsimp only; omega)]

/-- Bytes laid from an offset on read back in their places. -/
theorem tget_layBytes (b : Bytes) (m : Tab Byte) {off k i : Nat} (h : i < b.length) :
    tget ((b.zipIdx k).foldl (fun m p => tput m (off + p.2) p.1) m) (off + (k + i)) = b[i]? := by
  induction b generalizing k i m with
  | nil => cases h
  | cons x r ih =>
    rw [List.zipIdx_cons, List.foldl_cons]
    cases i with
    | zero => rw [tget_layBytes_below _ _ (by omega)]; exact tget_tput_same ..
    | succ i => rw [show k + (i + 1) = k + 1 + i by omega, ih _ (Nat.lt_of_succ_lt_succ h), List.getElem?_cons_succ]

/-- A byte written to a sparse map reads back in its place. -/
theorem tget_sparseWrite (m : Tab Byte) (b : Bytes) {off i : Nat} (h : i < b.length) : tget (sparseWrite m off b) (off + i) = b[i]? := by
  simpa [sparseWrite] using tget_layBytes b m (off := off) (k := 0) h

/-- A message carries its status at byte 10 (R272, Table 10.3). -/
theorem mbxMessage_status (flags opcode tag status gen op : Nat) (pay : Bytes) :
    (mbxMessage flags opcode tag status gen op pay)[10]? = some (BitVec.ofNat 8 status) := by
  simp only [mbxMessage, List.append_assoc]
  rw [List.getElem?_append_left]
  · simp [pack, overlay, padTo, zeros, leBytes, List.range_succ]
  · simp [pack, overlay, padTo, zeros, leBytes]

theorem chanAt_of_ctl {s t : State} (h : s.ctl = t.ctl) (c : Nat) : chanAt s c = chanAt t c := by
  simp [chanAt, h]

@[simp] theorem chanAt_setChan_same (s : State) (c : Nat) (f : Chan → Chan) : chanAt (setChan s c f) c = f (chanAt s c) := by
  simp [chanAt, setChan]

theorem sendInband_ctl (s : State) (lane : Nat) (dest : BitVec 128) (port : Nat) (b : Bytes) : (sendInband s lane dest port b).ctl = s.ctl := by
  simp [sendInband, apply_ite State.ctl]

/-- On every transport the response buffer of an answered channel holds the response and nothing else (R273). -/
theorem respBuf_respond (s : State) {c : Nat} (hc : c < 8) (status gen op : Nat) (pay : Bytes) :
    (chanAt (respond s c status gen op pay) c).respBuf =
      sparseWrite [] 0 (mbxMessage 1 (reqOpcode (chanAt s c).req) (reqTag (chanAt s c).req) status gen op pay) := by
  unfold respond respondWith
  dsimp only
  rw [if_neg (Nat.not_le.2 hc)]
  split
  case h_1 => rw [chanAt_of_ctl (pf0Source_ctl ..), chanAt_setChan_same]
  case h_2 => rw [chanAt_of_ctl (emit_ctl ..), chanAt_of_ctl (emit_ctl ..), chanAt_setChan_same]
  case h_3 => rw [chanAt_of_ctl (sendInband_ctl ..), chanAt_setChan_same]

/-- Two answers on one channel that leave the same state have the same status byte. -/
theorem status_of_respond_eq {s t : State} {c : Nat} (hc : c < 8) {st st' gen gen' op op' : Nat} {pay pay' : Bytes}
    (h : respond s c st gen op pay = respond t c st' gen' op' pay') : BitVec.ofNat 8 st = BitVec.ofNat 8 st' := by
  have hbyte (s : State) (st gen op : Nat) (pay : Bytes) :
      tget (chanAt (respond s c st gen op pay) c).respBuf (0 + 10) = some (BitVec.ofNat 8 st) := by
    have hmsg := mbxMessage_status 1 (reqOpcode (chanAt s c).req) (reqTag (chanAt s c).req) st gen op pay
    rw [respBuf_respond s hc, tget_sparseWrite _ _ (List.getElem?_eq_some_iff.1 hmsg).1, hmsg]
  exact Option.some.inj ((hbyte s st gen op pay).symm.trans (h ▸ hbyte t st' gen' op' pay'))

end Sys2Proof.Machine
end

section
/-! SUPPORT. Obligation O20: a POOL_CREATE that names slots beyond the 64 (R17, R274, R282). -/

namespace Sys2Proof.Machine

/-- A slot that does not exist is answered before anything else that refuses a POOL_CREATE (R274). -/
theorem exec_poolCreate_of_absent_slot {s : State} {ch : Nat} (h : Safety.mbxReady s ch 0x200 = true)
    (ha : ((createSlots (Safety.payOf s ch)).take 64).any (fun d => decide (64 ≤ d)) = true) :
    exec (.poolCreate ch) s = .next (respond s ch 0xB 0 0 (zeros 8)) := by
  show execPoolCreate ch s = _
  simp only [execPoolCreate, mbxRow_of_ready h, ha, if_true, mbxFail]

/-- READY drives at keys 64 and 65 of the drive table, which nothing forbids a state, and in channel 0 a POOL_CREATE of a plain pool
on them. -/
def slotsBeyondTheShelf : State :=
  { bankSet State.reset .ctlCtrl 0xF with
    ctl := { chans := [(0, { state := .busy, req := pack 42 [(6, 2, 0x200), (12, 4, 10), (32, 1, 3), (33, 1, 2), (37, 1, 2), (40, 1, 64), (41, 1, 65)] })] }
    drives := [(64, { state := .ready }), (65, { state := .ready })] }

/-- Refutes O20: nothing of `createRefused` refuses the POOL_CREATE of `slotsBeyondTheShelf`, since its drives are READY, yet its slots do
not exist and the answer is status 0xB (R274), not ACCEPTED. -/
theorem not_poolAndVolumeRequests : ¬ Obligations.PoolAndVolumeRequests := by
  unfold Obligations.PoolAndVolumeRequests
  rintro ⟨hcreate, -⟩
  have hready : Safety.mbxReady slotsBeyondTheShelf 0 0x200 = true := by decide
  obtain ⟨y, op, pi, p, hexec, -⟩ := hcreate 0 slotsBeyondTheShelf hready (by decide)
  rw [exec_poolCreate_of_absent_slot hready (by decide)] at hexec
  injection hexec with heq
  exact absurd (status_of_respond_eq (by decide) heq) (by decide)

end Sys2Proof.Machine
end

section
/-! SUPPORT. Frames as one value: what stands of a state when some of its fields and registers may change. -/

namespace Sys2Proof.Machine

/-- What stands of a state where registers may change: its fields, and the registers at the address of none that `changed` picks. -/
def Standing (changed : Reg → Prop) : Type := State × ({r : Reg // ∀ q, changed q → regAddr r ≠ regAddr q} → Word)

/-- What stands of a state whose fields that `blank` blanks may change too. -/
def standing (blank : State → State) (changed : Reg → Prop) (s : State) : Standing changed := (blank s, fun r => bankGet s r)

section
variable {blank : State → State} {changed : Reg → Prop} {s t : State}

theorem standing_eq_iff : standing blank changed t = standing blank changed s ↔
    blank t = blank s ∧ ∀ r, (∀ q, changed q → regAddr r ≠ regAddr q) → bankGet t r = bankGet s r := by
  constructor
  · intro h
    exact ⟨congrArg Prod.fst h, fun r hr => congrFun (congrArg Prod.snd h) ⟨r, hr⟩⟩
  · rintro ⟨hblank, hregs⟩
    exact Prod.ext hblank (funext fun r => hregs r.1 r.2)

theorem standing_of_bank_eq (hblank : blank t = blank s) (hbank : t.bank = s.bank) : standing blank changed t = standing blank changed s :=
  standing_eq_iff.2 ⟨hblank, fun r _ => by simp only [bankGet, hbank]⟩

theorem standing_bankSet {q : Reg} {v : Word} (hq : changed q) (hblank : blank (bankSet s q v) = blank s) :
    standing blank changed (bankSet s q v) = standing blank changed s :=
  standing_eq_iff.2 ⟨hblank, fun _ hr => bankGet_bankSet_other _ _ _ _ (hr q hq)⟩

/-- Counting leaves what stands, where counters and TEL_EVENT may change. -/
theorem standing_countBy (n v : Nat) (hq : changed .telEvent)
    (hblank : ∀ b c, blank { s with bank := b, tel := { s.tel with ctrs := c } } = blank s) :
    standing blank changed (countBy s n v) = standing blank changed s := by
  obtain ⟨b, c, h⟩ := countBy_frame s n v
  exact standing_eq_iff.2 ⟨h ▸ hblank b c, fun r hr => bankGet_countBy _ _ _ _ (hr _ hq)⟩

/-- Where more fields and more registers may change, less stands. -/
theorem standing_mono {blank' : State → State} {changed' : Reg → Prop} (h : standing blank changed t = standing blank changed s)
    (hblank : ∀ s, blank' (blank s) = blank' s) (hchanged : ∀ q, changed q → changed' q) :
    standing blank' changed' t = standing blank' changed' s := by
  obtain ⟨hb, hr⟩ := standing_eq_iff.1 h
  exact standing_eq_iff.2 ⟨by rw [← hblank t, hb, hblank], fun r h => hr r fun q hq => h q (hchanged q hq)⟩

theorem keepsRegsBut_of_standing {p : Reg → Bool} (hp : ∀ q, changed q → p q = true)
    (h : standing blank changed t = standing blank changed s) : Safety.keepsRegsBut p s t :=
  fun r hr => (standing_eq_iff.1 h).2 r fun q hq => hr q (hp q hq)

end

/-- A fold whose every step leaves a view of what it builds leaves that view. -/
theorem foldl_leaves {α β γ : Type} {view : β → γ} {f : β → α → β} (h : ∀ b a, view (f b a) = view b) (l : List α) (b : β) :
    view (l.foldl f b) = view b := by
  induction l generalizing b with
  | nil => rfl
  | cons a r ih => rw [List.foldl_cons, ih, h]

end Sys2Proof.Machine
end

section
/-! SUPPORT. What every operation of the Map Cache leaves (R165 to R175). -/

namespace Sys2Proof.Machine

/-- What a Map Cache command leaves: all but memory, the cache, counters, emissions, MC_CTRL, MC_EVENT and TEL_EVENT. -/
def mcStanding : State → Standing (fun q => q = .mcCtrl ∨ q = .mcEvent ∨ q = .telEvent) :=
  standing (fun s => { s with bank := [], mem := [], mc := {}, tel := {}, out := [] }) _

section
variable (s : State)

@[simp] theorem mcStanding_setMc (f : MapCache → MapCache) : mcStanding (setMc s f) = mcStanding s := standing_of_bank_eq rfl rfl
@[simp] theorem mcStanding_emit (o : Out) : mcStanding (emit s o) = mcStanding s := standing_of_bank_eq rfl rfl
@[simp] theorem mcStanding_store (a : Nat) (b : Bytes) : mcStanding (store s a b) = mcStanding s := standing_of_bank_eq rfl rfl
@[simp] theorem mcStanding_serveLine (r line : Nat) (b : Bytes) : mcStanding (serveLine s r line b) = mcStanding s :=
  standing_of_bank_eq rfl rfl
@[simp] theorem mcStanding_touchWay (line w : Nat) : mcStanding (touchWay s line w) = mcStanding s := standing_of_bank_eq rfl rfl
@[simp] theorem mcStanding_putWay (line w : Nat) (b : Bytes) (lock : Bool) : mcStanding (putWay s line w b lock) = mcStanding s :=
  standing_of_bank_eq rfl rfl
@[simp] theorem mcStanding_dropCuff (line : Nat) : mcStanding (dropCuff s line) = mcStanding s := standing_of_bank_eq rfl rfl

@[simp] theorem mcStanding_forAll {α : Type} {f : State → α → State} (h : ∀ s a, mcStanding (f s a) = mcStanding s) (l : List α) :
    mcStanding (forAll l f s) = mcStanding s := foldl_leaves h l s

@[simp] theorem mcStanding_setBit_mcEvent (i : Nat) : mcStanding (setBit s .mcEvent i) = mcStanding s :=
  standing_bankSet (.inr (.inl rfl)) rfl

@[simp] theorem mcStanding_clearBit_mcCtrl (i : Nat) : mcStanding (clearBit s .mcCtrl i) = mcStanding s :=
  standing_bankSet (.inl rfl) rfl

@[simp] theorem mcStanding_cfgReject : mcStanding (cfgReject s .mcCtrl) = mcStanding s := mcStanding_setBit_mcEvent s 7

@[simp] theorem mcStanding_mcCount (e line : Nat) : mcStanding (mcCount s e line) = mcStanding s :=
  standing_countBy _ 1 (.inr (.inr rfl)) fun _ _ => rfl

@[simp] theorem mcStanding_mcLog (kind syn line : Nat) : mcStanding (mcLog s kind syn line) = mcStanding s := by
  simp [mcLog, apply_ite mcStanding]

@[simp] theorem mcStanding_mcCorrected (line syn : Nat) : mcStanding (mcCorrected s line syn) = mcStanding s := by
  simp [mcCorrected]

@[simp] theorem mcStanding_mcUncorrected (line syn : Nat) : mcStanding (mcUncorrected s line syn) = mcStanding s := by
  simp [mcUncorrected]

@[simp] theorem mcStanding_mcTagParity (line w : Nat) (lock : Bool) : mcStanding (mcTagParity s line w lock) = mcStanding s := by
  simp [mcTagParity, apply_ite mcStanding]

end

theorem mcStanding_cuffInsert {s t : State} {c : CuffLine} (h : cuffInsert s c = some t) : mcStanding t = mcStanding s := by
  unfold cuffInsert at h
  dsimp only at h
  split at h
  · obtain ⟨k, -, rfl⟩ := Option.map_eq_some_iff.1 h
    rfl
  · split at h
    · obtain ⟨k, -, rfl⟩ := Option.map_eq_some_iff.1 h
      rfl
    · cases h

theorem mcStanding_flushTransit {s t : State} {slice : Nat} (h : flushTransit s slice = some t) : mcStanding t = mcStanding s := by
  unfold flushTransit at h
  split at h
  · cases h; rfl
  · obtain ⟨x, hx, rfl⟩ := Option.map_eq_some_iff.1 h
    exact (mcStanding_setMc x _).trans (mcStanding_cuffInsert hx)

theorem mcStanding_evictNative {s t : State} {line w : Nat} (h : evictNative s line w = some t) : mcStanding t = mcStanding s := by
  unfold evictNative at h
  split at h
  · split at h
    · cases h; rfl
    · obtain ⟨x, hx, rfl⟩ := Option.map_eq_some_iff.1 h
      simp [mcStanding_flushTransit hx]
  · cases h; rfl

section
variable (s : State)

@[simp] theorem mcStanding_recallLine (line : Nat) (b : Bytes) : mcStanding (recallLine s line b) = mcStanding s := by
  unfold recallLine
  dsimp only
  split
  case h_1 => rfl
  case h_2 x h =>
    have hx := (mcStanding_evictNative h).trans (mcStanding_setMc s _)
    split <;> simp [hx]

@[simp] theorem mcStanding_missLine (r line : Nat) : mcStanding (missLine s r line) = mcStanding s := by
  unfold missLine
  dsimp only
  split
  case h_1 => rfl
  case h_2 =>
    split
    case isTrue => rfl
    case isFalse =>
      split
      case h_1 x h => exact (mcStanding_setMc x _).trans (mcStanding_evictNative h)
      case h_2 => rfl

@[simp] theorem mcStanding_mcLoad (r addr : Nat) (ecc : Ecc) : mcStanding (mcLoad s r addr ecc) = mcStanding s := by
  fun_cases mcLoad s r addr ecc <;> simp +zetaDelta [apply_ite mcStanding]

@[simp] theorem mcStanding_storeLine (addr : Nat) (b : Bytes) : mcStanding (storeLine s addr b) = mcStanding s := by
  unfold storeLine
  extract_lets line off sound recalled updated q q'
  have hsound : mcStanding sound = mcStanding s := by
    unfold sound
    split <;> simp [apply_ite mcStanding]
  have hrecalled : mcStanding recalled = mcStanding s := by
    unfold recalled
    split <;> simp [hsound]
  have hupdated : mcStanding updated = mcStanding s := by
    unfold updated
    split <;> simp [hrecalled]
  simp [hupdated]

@[simp] theorem mcStanding_mcStoreOne (addr : Nat) (b : Bytes) : mcStanding (mcStoreOne s addr b) = mcStanding s := by
  fun_cases mcStoreOne s addr b <;> simp

@[simp] theorem mcStanding_mcFill (addr : Nat) : mcStanding (mcFill s addr) = mcStanding s := by
  fun_cases mcFill s addr
  case case5 f hf hfree g2 spared w cur lock displaced ready t ht data placed settled hno =>
    suffices mcStanding t = mcStanding s by simp +zetaDelta [this]
    unfold ready at ht
    clear_value displaced
    split at ht
    · split at ht
      · split at ht
        · cases ht
        · cases ht; simp
      · cases ht; rfl
    · split at ht
      · exact mcStanding_evictNative ht
      · cases ht; rfl
  all_goals simp

@[simp] theorem mcStanding_retryStores (n : Nat) : mcStanding (retryStores n s) = mcStanding s := by
  induction n generalizing s with
  | zero => rfl
  | succ n ih =>
    unfold retryStores
    split
    · rfl
    · simp [ih]

@[simp] theorem mcStanding_rangeCmd (op tag : Nat) (spare : Bool) : mcStanding (rangeCmd s op tag spare) = mcStanding s := by
  simp [rangeCmd, apply_ite mcStanding]

@[simp] theorem mcStanding_rangeInvalidate (c : RangeCount) (line : Nat) (spare : Bool) :
    mcStanding (rangeInvalidate s c line spare).1 = mcStanding s := by
  fun_cases rangeInvalidate s c line spare <;> simp +zetaDelta

@[simp] theorem mcStanding_rangeBring (line : Nat) (cuffed : Bool) : mcStanding (rangeBring s line cuffed).1 = mcStanding s := by
  fun_cases rangeBring s line cuffed
  case case4 hway hcuff v room t ht =>
    suffices mcStanding t = mcStanding s by simp [this]
    unfold room at ht
    split at ht
    · cases ht
      simp [apply_ite mcStanding]
    · exact mcStanding_evictNative ht
  all_goals simp

@[simp] theorem mcStanding_rangeLock (c : RangeCount) (line : Nat) : mcStanding (rangeLock s c line).1 = mcStanding s := by
  have hbring := mcStanding_rangeBring s line true
  unfold rangeLock
  generalize rangeBring s line true = r at hbring ⊢
  obtain ⟨t, moved⟩ := r
  dsimp only at hbring ⊢
  split
  · split
    · exact hbring
    · split <;> simp [hbring]
  · exact hbring

@[simp] theorem mcStanding_rangeVerify (c : RangeCount) (line : Nat) (ecc : Ecc) :
    mcStanding (rangeVerify s c line ecc).1 = mcStanding s := by
  fun_cases rangeVerify s c line ecc <;> simp +zetaDelta [apply_ite mcStanding]

@[simp] theorem mcStanding_diagWrite (off : Nat) (v : Word) : mcStanding (diagWrite s off v) = mcStanding s := by
  fun_cases diagWrite s off v <;> simp +zetaDelta

@[simp] theorem mcStanding_mcDisable : mcStanding (mcDisable s) = mcStanding s := by
  have hdrain (q : Nat × List WtEntry) (s : State) : mcStanding
      (forAll q.2 (fun s e => forAll e.bytes (fun s x => store s (e.line * 64 + x.1) [x.2]) s) s) = mcStanding s := by simp
  simp [mcDisable, hdrain]

end

@[simp] theorem mcStanding_rangeLine (op : RangeOp) (eccs : List (Nat × Ecc)) (a : State × RangeCount) (line : Nat) :
    mcStanding (rangeLine op eccs a line).1 = mcStanding a.1 := by
  fun_cases rangeLine op eccs a line <;> simp +zetaDelta

/-- A Map Cache command does nothing else. -/
theorem mcStanding_exec {c : Instr} {s t : State} (hc : Safety.groupOf c = .mapCache) (h : exec c s = .next t) :
    mcStanding t = mcStanding s := by
  cases c with
  | mapCacheLoad r addr ecc => cases h; exact mcStanding_mcLoad s r addr ecc
  | mapCacheStore addr b => cases h; exact (mcStanding_mcStoreOne _ _ _).trans (mcStanding_mcStoreOne s _ _)
  | mapCacheFill addr => cases h; exact mcStanding_mcFill s addr
  | writeThroughDrain slice =>
    cases h
    split
    · rfl
    · simp
  | invalidate tag spare => cases h; exact mcStanding_rangeCmd s 1 tag spare
  | prefetch tag => cases h; exact mcStanding_rangeCmd s 2 tag false
  | lock tag => cases h; exact mcStanding_rangeCmd s 3 tag false
  | unlock tag => cases h; exact mcStanding_rangeCmd s 4 tag false
  | verify tag => cases h; exact mcStanding_rangeCmd s 5 tag false
  | rangeOpComplete eccs =>
    cases h
    split
    · rfl
    · split
      · rfl
      · simp only [mcStanding_setBit_mcEvent, mcStanding_setMc]
        exact foldl_leaves (view := fun a => mcStanding a.1) (fun a line => mcStanding_rangeLine _ eccs a line) _ _
  | cacheDisable => cases h; exact mcStanding_mcDisable s
  | diagWindowAccess off w =>
    cases h
    cases w with
    | none => exact mcStanding_emit s _
    | some v => exact mcStanding_diagWrite s off v
  | _ => cases hc

end Sys2Proof.Machine
end

section
/-! SUPPORT. What every operation of the Core fabric and of the Parity Units leaves (R177 to R192). -/

namespace Sys2Proof.Machine

/-- What an operation of the fabric leaves: all but the network ports, the fabric, the Parity Units, counters, emissions, FAB_EVENT,
FAB_PORT_CTRL and TEL_EVENT. -/
def fabricStanding : State → Standing (fun q => q = .fabEvent ∨ q = .telEvent ∨ ∃ p, q = .fabPortCtrl p) :=
  standing (fun s => { s with bank := [], net := {}, fab := {}, par := {}, tel := {}, out := [] }) _

theorem fabricStanding_foldl {α : Type} {f : State → α → State} (h : ∀ s a, fabricStanding (f s a) = fabricStanding s) (l : List α) (s : State) :
    fabricStanding (l.foldl f s) = fabricStanding s := foldl_leaves h l s

section
variable (s : State)

@[simp] theorem fabricStanding_fab (f : Fabric) : fabricStanding { s with fab := f } = fabricStanding s := standing_of_bank_eq rfl rfl
@[simp] theorem fabricStanding_par (p : Parity) : fabricStanding { s with par := p } = fabricStanding s := standing_of_bank_eq rfl rfl
@[simp] theorem fabricStanding_emit (o : Out) : fabricStanding (emit s o) = fabricStanding s := standing_of_bank_eq rfl rfl
@[simp] theorem fabricStanding_setOut (p : Nat) (f : OutPort → OutPort) : fabricStanding (setOut s p f) = fabricStanding s :=
  standing_of_bank_eq rfl rfl
@[simp] theorem fabricStanding_setNetPort (l : Nat) (f : NetPort → NetPort) : fabricStanding (setNetPort s l f) = fabricStanding s :=
  standing_of_bank_eq rfl rfl

@[simp] theorem fabricStanding_setBit_fabEvent (i : Nat) : fabricStanding (setBit s .fabEvent i) = fabricStanding s :=
  standing_bankSet (.inl rfl) rfl

@[simp] theorem fabricStanding_clearBit_fabPortCtrl (p i : Nat) : fabricStanding (clearBit s (.fabPortCtrl p) i) = fabricStanding s :=
  standing_bankSet (.inr (.inr ⟨p, rfl⟩)) rfl

@[simp] theorem fabricStanding_count (n : Nat) : fabricStanding (count s n) = fabricStanding s :=
  standing_countBy n 1 (.inr (.inl rfl)) fun _ _ => rfl

@[simp] theorem fabricStanding_notify (n : Notice) : fabricStanding (notify s n) = fabricStanding s := by
  unfold notify
  split
  · rw [fabricStanding_count, fabricStanding_emit, fabricStanding_fab]
  · simp

@[simp] theorem fabricStanding_accDelivered (src : Nat) (h : CellHdr) : fabricStanding (accDelivered s src h) = fabricStanding s := by
  fun_cases accDelivered s src h <;> simp

@[simp] theorem fabricStanding_poisonAt (q : Nat) (h : CellHdr) (leaving : Bool) : fabricStanding (poisonAt s q h leaving) = fabricStanding s := by
  fun_cases poisonAt s q h leaving <;> simp +zetaDelta

@[simp] theorem fabricStanding_buildSample (f : InFrame) (port : Nat) (egress : Bool) :
    fabricStanding (buildSample s f port egress) = fabricStanding s := by
  have hcounted (f : Fabric) : fabricStanding (count { s with fab := f } 0x1E8) = fabricStanding s :=
    (fabricStanding_count _ _).trans (fabricStanding_fab s f)
  unfold buildSample
  dsimp only
  split
  · exact (fabricStanding_fab _ _).trans (hcounted _)
  · exact (fabricStanding_count _ _).trans ((fabricStanding_setBit_fabEvent _ _).trans (hcounted _))

@[simp] theorem fabricStanding_sampleSof (port : Nat) (egress : Bool) : fabricStanding (sampleSof s port egress).1 = fabricStanding s := by
  fun_cases sampleSof s port egress <;> simp

@[simp] theorem fabricStanding_putInFrame (f : InFrame) : fabricStanding (putInFrame s f) = fabricStanding s := fabricStanding_fab s _
@[simp] theorem fabricStanding_dropInFrame (f : InFrame) : fabricStanding (dropInFrame s f) = fabricStanding s := fabricStanding_fab s _

@[simp] theorem fabricStanding_enqueue (q input id : Nat) (c : Cell) : fabricStanding (enqueue s q input id c) = fabricStanding s := by
  simp [enqueue, apply_ite fabricStanding]

@[simp] theorem fabricStanding_ingressSub (lane prio bytes : Nat) : fabricStanding (ingressSub s lane prio bytes) = fabricStanding s := by
  simp [ingressSub, apply_ite fabricStanding]

@[simp] theorem fabricStanding_offer (input : Nat) (c : Cell) : fabricStanding (offer s input c).1 = fabricStanding s := by
  unfold offer
  extract_lets bad hdr cell h up down known f0
  split
  · exact fabricStanding_foldl (fun s q => by simp [apply_ite fabricStanding]) up s
  split
  case h_1 t f ht =>
    have hstart : fabricStanding t = fabricStanding s := by
      split at ht
      · obtain ⟨rfl, -⟩ := Prod.mk.inj ht
        exact (foldl_leaves (view := fun a : State × List (Nat × Bool) => fabricStanding a.1)
          (fun a q => fabricStanding_sampleSof a.1 q true) up _).trans (fabricStanding_sampleSof s input false)
      · cases ht; rfl
    extract_lets id _ numbered queued delivered _ placed dropped noticed
    have hplaced : fabricStanding placed = fabricStanding s :=
      calc fabricStanding placed
        _ = fabricStanding delivered := fabricStanding_fab delivered _
        _ = fabricStanding queued := fabricStanding_foldl (fun s _ => fabricStanding_accDelivered s h.src h) down queued
        _ = fabricStanding numbered := fabricStanding_foldl (fun s q => fabricStanding_enqueue s q input id cell) up numbered
        _ = fabricStanding t := fabricStanding_fab t _
        _ = fabricStanding s := hstart
    split
    · calc fabricStanding (f.sampled.foldl (fun s e => buildSample s f e.1 e.2) noticed)
        _ = fabricStanding noticed := fabricStanding_foldl (fun s (e : Nat × Bool) => fabricStanding_buildSample s f e.1 e.2) f.sampled noticed
        _ = fabricStanding dropped := fabricStanding_foldl (fun s e => fabricStanding_notify s _) f.lost dropped
        _ = fabricStanding s := (fabricStanding_dropInFrame placed f).trans hplaced
    · exact (fabricStanding_putInFrame placed f).trans hplaced

@[simp] theorem fabricStanding_retryWaiting : fabricStanding (retryWaiting s) = fabricStanding s := by
  unfold retryWaiting
  refine fabricStanding_foldl (fun s e => ?_) _ s
  have hoffer := fabricStanding_offer s e.1 e.2
  generalize offer s e.1 e.2 = r at hoffer ⊢
  obtain ⟨t, taken⟩ := r
  dsimp only at hoffer ⊢
  split
  · split
    · exact (fabricStanding_ingressSub _ _ _ _).trans ((fabricStanding_fab t _).trans hoffer)
    · exact (fabricStanding_fab t _).trans hoffer
  · exact hoffer

@[simp] theorem fabricStanding_bindAcc (b : AccBind) : fabricStanding (bindAcc s b) = fabricStanding s := by
  unfold bindAcc
  dsimp only
  split
  · rfl
  · split
    · rw [fabricStanding_count, fabricStanding_setOut, fabricStanding_par]
    · exact fabricStanding_par s _

@[simp] theorem fabricStanding_retryBinds : fabricStanding (retryBinds s) = fabricStanding s :=
  (fabricStanding_foldl fabricStanding_bindAcc _ _).trans (fabricStanding_par s _)

@[simp] theorem fabricStanding_portDown (q : Nat) : fabricStanding (portDown s q) = fabricStanding s := by
  unfold portDown
  split
  · rfl
  dsimp only
  rw [fabricStanding_retryBinds, fabricStanding_retryWaiting, fabricStanding_setBit_fabEvent]
  refine (fabricStanding_foldl (fun s c => fabricStanding_accDelivered s _ _) _ _).trans ?_
  refine (fabricStanding_foldl (fun s f => ?_) _ _).trans ?_
  · split <;> simp
  · simp

end

end Sys2Proof.Machine
end

section
/-! SUPPORT. Obligation O50: what every operation of the Data Movers leaves (R187, R294 to R306). -/

namespace Sys2Proof.Machine

/-- What a Data Mover command leaves: all but memory, the network ports, the fabric, the Parity Units, the Movers, counters, DRAM error
figures, emissions, free values, the registers of `fabricStanding`, MOV_DONE_PEND, MOV_ERR_PEND, MOV_EVENT and SEP_EVENT. -/
def moverStanding : State → Standing (fun q => (q = .fabEvent ∨ q = .telEvent ∨ ∃ p, q = .fabPortCtrl p) ∨
    q = .movDonePend ∨ q = .movErrPend ∨ q = .movEvent ∨ q = .sepEvent) :=
  standing (fun s => { s with
    bank := [], mem := [], net := {}, fab := {}, par := {}, mov := [], tel := {}, dimms := [], out := [], fresh := 0 }) _

theorem moverStanding_of_fabricStanding {s t : State} (h : fabricStanding t = fabricStanding s) : moverStanding t = moverStanding s :=
  standing_mono h (fun _ => rfl) (fun _ => .inl)

section
variable (s : State)

@[simp] theorem moverStanding_forAll {α : Type} {f : State → α → State} (h : ∀ s a, moverStanding (f s a) = moverStanding s) (l : List α) :
    moverStanding (forAll l f s) = moverStanding s := foldl_leaves h l s

@[simp] theorem moverStanding_setMov (c : Nat) (f : MovCh → MovCh) : moverStanding (setMov s c f) = moverStanding s :=
  standing_of_bank_eq rfl rfl
@[simp] theorem moverStanding_emit (o : Out) : moverStanding (emit s o) = moverStanding s := standing_of_bank_eq rfl rfl
@[simp] theorem moverStanding_store (a : Nat) (b : Bytes) : moverStanding (store s a b) = moverStanding s := standing_of_bank_eq rfl rfl
@[simp] theorem moverStanding_mramRead (off n : Nat) : moverStanding (mramRead s off n).1 = moverStanding s := standing_of_bank_eq rfl rfl

@[simp] theorem moverStanding_dramError (a k : Nat) : moverStanding (dramError s a k) = moverStanding s := by
  obtain ⟨d, h⟩ := dramError_frame s a k
  rw [h]
  exact standing_of_bank_eq rfl rfl

@[simp] theorem moverStanding_countBy (n v : Nat) : moverStanding (countBy s n v) = moverStanding s :=
  standing_countBy n v (.inl (.inr (.inl rfl))) fun _ _ => rfl

@[simp] theorem moverStanding_count (n : Nat) : moverStanding (count s n) = moverStanding s := moverStanding_countBy s n 1

@[simp] theorem moverStanding_setBit {q : Reg} (i : Nat) (hq : q = .fabEvent ∨ q = .movDonePend ∨ q = .movErrPend ∨ q = .movEvent ∨ q = .sepEvent) :
    moverStanding (setBit s q i) = moverStanding s :=
  standing_bankSet (hq.imp .inl id) rfl

@[simp] theorem moverStanding_cfgReject : moverStanding (cfgReject s .movCtrl) = moverStanding s := moverStanding_setBit s 3 (by simp)

@[simp] theorem moverStanding_movHalt (c err : Nat) : moverStanding (movHalt s c err) = moverStanding s := by
  simp [movHalt, apply_ite moverStanding]

@[simp] theorem moverStanding_movLoad (c : Nat) (d : MovDesc) (sh : Bool) (a : Nat) : moverStanding (movLoad s c d sh a) = moverStanding s :=
  moverStanding_setMov s c _

@[simp] theorem moverStanding_movWrite (space a : Nat) (b : Bytes) (last : Bool) : moverStanding (movWrite s space a b last) = moverStanding s := by
  simp [movWrite, apply_ite moverStanding]

@[simp] theorem moverStanding_shadowPut (c reg : Nat) (v : Word) : moverStanding (shadowPut s c reg v) = moverStanding s := by
  simp [shadowPut, apply_ite moverStanding]

@[simp] theorem moverStanding_armCh (c : Nat) (d : Bool) : moverStanding (armCh s c d) = moverStanding s := by
  simp [armCh, apply_ite moverStanding]

@[simp] theorem moverStanding_clearCh (c : Nat) : moverStanding (clearCh s c) = moverStanding s := by
  simp [clearCh, apply_ite moverStanding]

@[simp] theorem moverStanding_takeShadow (c : Nat) : moverStanding (takeShadow s c) = moverStanding s := by
  fun_cases takeShadow s c <;> simp +zetaDelta

@[simp] theorem moverStanding_movReturn (c : Nat) (r : MoverRead) : moverStanding (movReturn s c r) = moverStanding s := by
  fun_cases movReturn s c r <;> simp +zetaDelta [apply_ite moverStanding, apply_ite Prod.fst]

@[simp] theorem moverStanding_halfDown (half : Nat) : moverStanding (halfDown s half) = moverStanding s := by
  simp [halfDown]

@[simp] theorem moverStanding_fabPortDown (port : Nat) : moverStanding (fabPortDown s port) = moverStanding s := by
  simp [fabPortDown, apply_ite moverStanding, moverStanding_of_fabricStanding (fabricStanding_portDown s port)]

end

/-- A Data Mover command does nothing else. -/
theorem moverStanding_exec {c : Instr} {s t : State} (hc : Safety.groupOf c = .movers) (h : exec c s = .next t) :
    moverStanding t = moverStanding s := by
  cases c with
  | fabricPortDown port => cases h; exact moverStanding_fabPortDown s port
  | shadowWrite ch reg v => cases h; exact moverStanding_shadowPut s ch reg v
  | shadowArm ch d => cases h; exact moverStanding_armCh s ch d
  | disarm ch => cases h; exact moverStanding_setMov s ch _
  | stop ch => cases h; exact moverStanding_setMov s ch _
  | stopDrained ch => cases h; simp [apply_ite moverStanding]
  | clear ch => cases h; exact moverStanding_clearCh s ch
  | shadowHandOver ch => cases h; simp [apply_ite moverStanding]
  | nextFetch ch ok =>
    cases h
    dsimp only
    split
    · rfl
    split
    · rfl
    split
    · simp [apply_ite moverStanding]
    · split <;> simp [apply_ite moverStanding]
  | moverReadGrant half =>
    cases h
    dsimp only
    split
    · rfl
    split
    · rfl
    split <;> simp
  | moverDataReturn ch r => cases h; exact moverStanding_movReturn s ch r
  | descriptorComplete ch =>
    cases h
    dsimp only
    split
    · rfl
    split
    · rfl
    split
    · simp [apply_ite moverStanding]
    · split <;> simp [apply_ite moverStanding]
  | completionTimeout ch =>
    cases h
    split
    · simp
    · split <;> simp [apply_ite moverStanding]
  | _ => cases hc

/-- Settles O50: what a command of either group leaves is one value before and after it, and the fields and registers are read from it. -/
theorem frameOfMapCacheAndMovers : Obligations.FrameOfMapCacheAndMovers := by
  unfold Obligations.FrameOfMapCacheAndMovers
  constructor
  · intro c s t hc h
    have hkept := mcStanding_exec hc h
    obtain ⟨hfields, -⟩ := standing_eq_iff.1 hkept
    simp only [State.mk.injEq] at hfields
    simp only [hfields, Safety.keepsDecodeLog, and_self, true_and]
    refine keepsRegsBut_of_standing ?_ hkept
    rintro _ (rfl | rfl | rfl) <;> rfl
  · intro c s t hc h
    have hkept := moverStanding_exec hc h
    obtain ⟨hfields, -⟩ := standing_eq_iff.1 hkept
    simp only [State.mk.injEq] at hfields
    simp only [hfields, Safety.keepsDecodeLog, and_self, true_and]
    refine keepsRegsBut_of_standing ?_ hkept
    rintro _ ((rfl | rfl | ⟨p, rfl⟩) | rfl | rfl | rfl | rfl) <;> rfl

end Sys2Proof.Machine
end

section
/-! SUPPORT. Obligation O17: a MAP_CACHE_FILL whose line its set holds already (R166). -/

namespace Sys2Proof.Machine

/-- Line 0 in way 0 of its set, and a fill of line 0, for which way 1 is kept, on its way. -/
def presentUnderFill : State :=
  { State.reset with mc := { ways := [(0, { tag := 0, data := zeros 64 })], fills := [{ line := 0, wayKept := some 1 }] } }

/-- The fill serves its requesters from the way that holds the line and leaves every way as it was. -/
theorem mcFill_presentUnderFill : mcFill presentUnderFill 0 = { presentUnderFill with mc := { ways := presentUnderFill.mc.ways } } := by
  decide

/-- Refutes O17: in `presentUnderFill` the MAP_CACHE_FILL clause asks for the line in way 1, kept for it, but way 0 holds it and way 1 stays empty. -/
theorem not_mapCacheServesAndKeeps : ¬ Obligations.MapCacheServesAndKeeps := by
  unfold Obligations.MapCacheServesAndKeeps
  rintro ⟨-, -, -, -, -, hfill, -⟩
  obtain ⟨t, hexec, -, hway⟩ := hfill 0 1 { line := 0, wayKept := some 1 } presentUnderFill (by decide) (by decide) (by decide) (by decide) rfl
  cases hexec
  rw [mcFill_presentUnderFill] at hway
  cases hway

end Sys2Proof.Machine
end

section
/-! SUPPORT. Obligation O46: what every operation of the network edge, the fabric and the Parity Units leaves (R177 to R201). -/

namespace Sys2Proof.Machine

/-- What a command of the edge leaves: all but the network ports, queue pairs, the fabric, the Parity Units, clocks, counters, the packets that
wait, emissions, the registers of `fabricStanding`, NET_EVENT, PAR_EVENT and the GID registers. -/
def edgeStanding : State → Standing (fun q => (q = .fabEvent ∨ q = .telEvent ∨ ∃ p, q = .fabPortCtrl p) ∨
    q = .netEvent ∨ q = .parEvent ∨ q = .netGidSel ∨ q = .netGidAddrHi ∨ q = .netGidAddrLo ∨ q = .netGidAttr) :=
  standing (fun s => { s with
    bank := [], net := {}, rdma := {}, fab := {}, par := {}, clk := {}, tel := {}, txWait := [], out := [] }) _

theorem edgeStanding_of_fabricStanding {s t : State} (h : fabricStanding t = fabricStanding s) : edgeStanding t = edgeStanding s :=
  standing_mono h (fun _ => rfl) (fun _ => .inl)

theorem edgeStanding_foldl {α : Type} {f : State → α → State} (h : ∀ s a, edgeStanding (f s a) = edgeStanding s) (l : List α) (s : State) :
    edgeStanding (l.foldl f s) = edgeStanding s := foldl_leaves h l s

/-! ## State operations -/

section
variable (s : State)

@[simp] theorem edgeStanding_net (n : Net) : edgeStanding { s with net := n } = edgeStanding s := standing_of_bank_eq rfl rfl
@[simp] theorem edgeStanding_fab (f : Fabric) : edgeStanding { s with fab := f } = edgeStanding s := standing_of_bank_eq rfl rfl
@[simp] theorem edgeStanding_par (p : Parity) : edgeStanding { s with par := p } = edgeStanding s := standing_of_bank_eq rfl rfl
@[simp] theorem edgeStanding_clk (c : Clocks) : edgeStanding { s with clk := c } = edgeStanding s := standing_of_bank_eq rfl rfl
@[simp] theorem edgeStanding_txWait (w : List (Nat × Nat × Packet)) : edgeStanding { s with txWait := w } = edgeStanding s :=
  standing_of_bank_eq rfl rfl
@[simp] theorem edgeStanding_emit (o : Out) : edgeStanding (emit s o) = edgeStanding s := standing_of_bank_eq rfl rfl
@[simp] theorem edgeStanding_reach (t : Nat) : edgeStanding (reach s t) = edgeStanding s := standing_of_bank_eq rfl rfl
@[simp] theorem edgeStanding_setOut (p : Nat) (f : OutPort → OutPort) : edgeStanding (setOut s p f) = edgeStanding s :=
  standing_of_bank_eq rfl rfl
@[simp] theorem edgeStanding_setNetPort (l : Nat) (f : NetPort → NetPort) : edgeStanding (setNetPort s l f) = edgeStanding s :=
  standing_of_bank_eq rfl rfl

@[simp] theorem edgeStanding_setBit {q : Reg} (i : Nat) (hq : q = .fabEvent ∨ q = .netEvent ∨ q = .parEvent) :
    edgeStanding (setBit s q i) = edgeStanding s :=
  standing_bankSet (by rcases hq with rfl | rfl | rfl <;> simp) rfl

@[simp] theorem edgeStanding_gidReg {q : Reg} (v : Word)
    (hq : q = .netGidSel ∨ q = .netGidAddrHi ∨ q = .netGidAddrLo ∨ q = .netGidAttr) : edgeStanding (bankSet s q v) = edgeStanding s :=
  standing_bankSet (.inr (.inr (.inr hq))) rfl

@[simp] theorem edgeStanding_countBy (n v : Nat) : edgeStanding (countBy s n v) = edgeStanding s :=
  standing_countBy n v (.inl (.inr (.inl rfl))) fun _ _ => rfl

@[simp] theorem edgeStanding_count (n : Nat) : edgeStanding (count s n) = edgeStanding s := edgeStanding_countBy s n 1

/-! ## The network edge (R196 to R201) -/

@[simp] theorem edgeStanding_frameIn (lane : Nat) : edgeStanding (frameIn s lane) = edgeStanding s := edgeStanding_count s _
@[simp] theorem edgeStanding_dropOther (lane : Nat) : edgeStanding (dropOther s lane) = edgeStanding s := edgeStanding_count s _

@[simp] theorem edgeStanding_paceOn (p : Packet) : edgeStanding (paceOn s p) = edgeStanding s := by
  obtain ⟨q, h⟩ := paceOn_frame s p
  rw [h]
  exact standing_of_bank_eq rfl rfl

@[simp] theorem edgeStanding_netOut (e : Nat × Nat × Packet) : edgeStanding (netOut s e) = edgeStanding s := by
  simp [netOut, apply_ite edgeStanding]

@[simp] theorem edgeStanding_netDrain : edgeStanding (netDrain s) = edgeStanding s := by
  unfold netDrain
  split
  · rfl
  · exact (edgeStanding_foldl edgeStanding_netOut _ _).trans (edgeStanding_txWait s [])

@[simp] theorem edgeStanding_ingressAdd (lane prio bytes : Nat) : edgeStanding (ingressAdd s lane prio bytes) = edgeStanding s := by
  simp [ingressAdd, apply_ite edgeStanding]

@[simp] theorem edgeStanding_ingressSub (lane prio bytes : Nat) : edgeStanding (ingressSub s lane prio bytes) = edgeStanding s :=
  edgeStanding_of_fabricStanding (fabricStanding_ingressSub s lane prio bytes)

@[simp] theorem edgeStanding_pfcOne (lane prio q : Nat) : edgeStanding (pfcOne s lane prio q) = edgeStanding s := by
  simp [pfcOne, apply_ite edgeStanding]

@[simp] theorem edgeStanding_netLink (lane : Nat) (up : Bool) : edgeStanding (netLink s lane up) = edgeStanding s := by
  unfold netLink
  dsimp only
  split
  · simp [apply_ite edgeStanding]
  split
  · rfl
  refine (edgeStanding_setBit _ 0 (by simp)).trans ?_
  refine (edgeStanding_foldl (fun s i => edgeStanding_of_fabricStanding (fabricStanding_portDown s _)) _ _).trans ?_
  exact (edgeStanding_txWait _ _).trans (edgeStanding_setNetPort s lane _)

@[simp] theorem edgeStanding_pushStamp (port tag : Nat) : edgeStanding (pushStamp s port tag) = edgeStanding s := by
  simp [pushStamp, apply_ite edgeStanding]

@[simp] theorem edgeStanding_popStamp : edgeStanding (popStamp s) = edgeStanding s := by
  unfold popStamp
  split <;> simp

@[simp] theorem edgeStanding_gidSelect (value : Word) : edgeStanding (gidSelect s value) = edgeStanding s := by simp [gidSelect]
@[simp] theorem edgeStanding_gidCommit (value : Word) : edgeStanding (gidCommit s value) = edgeStanding s :=
  (edgeStanding_net _ _).trans (edgeStanding_gidReg s _ (by simp))

/-! ## Cells (R178, R182 to R189) -/

@[simp] theorem edgeStanding_accDelivered (src : Nat) (h : CellHdr) : edgeStanding (accDelivered s src h) = edgeStanding s :=
  edgeStanding_of_fabricStanding (fabricStanding_accDelivered s src h)

@[simp] theorem edgeStanding_poisonAt (q : Nat) (h : CellHdr) (leaving : Bool) : edgeStanding (poisonAt s q h leaving) = edgeStanding s :=
  edgeStanding_of_fabricStanding (fabricStanding_poisonAt s q h leaving)

@[simp] theorem edgeStanding_notify (n : Notice) : edgeStanding (notify s n) = edgeStanding s :=
  edgeStanding_of_fabricStanding (fabricStanding_notify s n)

@[simp] theorem edgeStanding_retryWaiting : edgeStanding (retryWaiting s) = edgeStanding s :=
  edgeStanding_of_fabricStanding (fabricStanding_retryWaiting s)

@[simp] theorem edgeStanding_retryBinds : edgeStanding (retryBinds s) = edgeStanding s :=
  edgeStanding_of_fabricStanding (fabricStanding_retryBinds s)

@[simp] theorem edgeStanding_bindAcc (b : AccBind) : edgeStanding (bindAcc s b) = edgeStanding s :=
  edgeStanding_of_fabricStanding (fabricStanding_bindAcc s b)

@[simp] theorem edgeStanding_admitCell (input : Nat) (c : Cell) : edgeStanding (admitCell s input c) = edgeStanding s := by
  unfold admitCell
  extract_lets h refused retried hold
  have hhold (t : State) : edgeStanding (hold t) = edgeStanding t := by simp [hold, apply_ite edgeStanding]
  have hoffer := (edgeStanding_of_fabricStanding (fabricStanding_offer retried input c)).trans (edgeStanding_retryWaiting s)
  split
  · refine (edgeStanding_foldl (fun s q => ?_) _ _).trans (by simp [refused])
    dsimp only
    split <;> simp
  split
  · exact (hhold retried).trans (edgeStanding_retryWaiting s)
  generalize offer retried input c = r at hoffer ⊢
  obtain ⟨t, taken⟩ := r
  dsimp only at hoffer ⊢
  split
  · exact hoffer
  · exact (hhold t).trans hoffer

@[simp] theorem edgeStanding_sendCell (q : Nat) (c : QCell) (prio left rr : Nat) (ecc : Ecc) :
    edgeStanding (sendCell s q c prio left rr ecc) = edgeStanding s := by
  unfold sendCell
  extract_lets h
  split
  case h_1 t bad hread =>
    have ht : edgeStanding t = edgeStanding s := by
      split at hread
      all_goals
        obtain ⟨rfl, -⟩ := Prod.mk.inj hread
        simp
    extract_lets told fr gone sent out delivered emitted counted
    have hsent : edgeStanding sent = edgeStanding s := by
      simp +zetaDelta [apply_ite edgeStanding, ht]
    have hdelivered : edgeStanding delivered = edgeStanding s := (edgeStanding_accDelivered sent h.src h).trans hsent
    clear_value delivered sent
    split
    · exact hsent
    split
    · split
      · simp [apply_ite edgeStanding, hdelivered]
      · split
        · split <;> simp [counted, emitted, hdelivered]
        · exact (edgeStanding_emit _ _).trans hdelivered
    · exact (edgeStanding_emit _ _).trans hdelivered

@[simp] theorem edgeStanding_departCell (q : Nat) (ecc : Ecc) : edgeStanding (departCell s q ecc) = edgeStanding s := by
  unfold departCell
  split <;> simp

/-! ## Parity Units (R190, R191) -/

@[simp] theorem edgeStanding_completeAcc (i : Nat) (a : Acc) : edgeStanding (completeAcc s i a) = edgeStanding s := by
  refine (edgeStanding_foldl (fun s e => ?_) _ _).trans (by simp)
  dsimp only
  split <;> simp

@[simp] theorem edgeStanding_accCell (i position offset : Nat) (isNew poison : Bool) (payload : Bytes) :
    edgeStanding (accCell s i position offset isNew poison payload) = edgeStanding s := by
  fun_cases accCell s i position offset isNew poison payload
  case case2 => exact (edgeStanding_par _ _).trans (by simp +zetaDelta [apply_ite edgeStanding])
  all_goals simp +zetaDelta [apply_ite edgeStanding]

end

/-- A command of the network edge, the fabric or the Parity Units does nothing else. -/
theorem edgeStanding_exec {c : Instr} {s t : State} (hc : Safety.groupOf c = .edge) (h : exec c s = .next t) :
    edgeStanding t = edgeStanding s := by
  cases c with
  | netLinkChange lane up => cases h; exact edgeStanding_netLink s lane up
  | arpRequest lane target srcMac => cases h; simp [apply_ite edgeStanding]
  | neighbourSolicitation lane target srcMac => cases h; simp [apply_ite edgeStanding]
  | echoRequest lane target v6 payload =>
    cases h
    split
    · rfl
    extract_lets arrived
    split
    · generalize rateWindow _ _ _ = r
      obtain ⟨w, ok⟩ := r
      cases ok <;> simp [arrived]
    · simp [arrived]
  | ptpMessage lane frame => cases h; simp [apply_ite edgeStanding]
  | controlFrame lane lldp target frame =>
    cases h
    split
    · rfl
    extract_lets arrived
    split
    · generalize rateWindow _ _ _ = r
      obtain ⟨w, ok⟩ := r
      cases ok <;> simp [arrived]
    · simp [arrived]
  | pfcFrame lane enabled quanta =>
    cases h
    split
    · rfl
    refine (edgeStanding_netDrain _).trans ((edgeStanding_foldl (fun s i => ?_) _ _).trans (edgeStanding_frameIn s lane))
    simp [apply_ite edgeStanding]
  | unreliableDatagram lane qpn => cases h; simp [apply_ite edgeStanding]
  | xon lane prio => cases h; exact edgeStanding_ingressSub s lane prio _
  | pfcStormEgress lane prio =>
    cases h
    dsimp only
    split
    · simp [apply_ite edgeStanding]
    · rfl
  | pfcStormIngress lane prio =>
    cases h
    dsimp only
    split
    · simp [apply_ite edgeStanding]
    · rfl
  | pfcWatchdogRestore lane prio egress =>
    cases h
    dsimp only
    split
    · split <;> simp
    · split <;> simp
  | ptpTxtsPop => cases h; exact edgeStanding_popStamp s
  | gidSelect value => cases h; exact edgeStanding_gidSelect s value
  | gidCommit value => cases h; exact edgeStanding_gidCommit s value
  | cellAdmission input cell => cases h; exact edgeStanding_admitCell s input cell
  | cellDepart port ecc => cases h; exact edgeStanding_departCell s port ecc
  | accumulatorBind b => cases h; exact (edgeStanding_bindAcc _ b).trans (edgeStanding_retryBinds s)
  | accumulatorCell acc position offset isNew poison payload => cases h; exact edgeStanding_accCell s acc position offset isNew poison payload
  | _ => cases hc

/-- Settles O46: what a command of the group leaves is one value before and after it, and the fields and registers are read from it. -/
theorem frameOfTheEdgeAndFabric : Obligations.FrameOfTheEdgeAndFabric := by
  unfold Obligations.FrameOfTheEdgeAndFabric
  intro c s t hc h
  have hkept := edgeStanding_exec hc h
  obtain ⟨hfields, -⟩ := standing_eq_iff.1 hkept
  simp only [State.mk.injEq] at hfields
  simp only [hfields, Safety.keepsDecodeLog, and_self, true_and]
  refine keepsRegsBut_of_standing ?_ hkept
  rintro _ ((rfl | rfl | ⟨p, rfl⟩) | rfl | rfl | rfl | rfl | rfl | rfl) <;> rfl

end Sys2Proof.Machine
end

section
/-! SUPPORT. Obligation O3: the tail cell of a frame that the network edge found bad (R74, R178). -/

namespace Sys2Proof.Machine

/-- The tail cell, in itself sound, of a frame from network port 1 to the drive output 64. -/
def badFrameTail : Cell := { hdr := { src := 1, sof := false, eof := true, priority := 0, targets := [64] }, payload := [9] }

/-- Output 64 is up and has sent the first cell of a frame that cuts through; the network edge has found the frame bad since. -/
def badFrameUnderway : State :=
  { bankSet State.reset (.fabPortCtrl 64) 0x400003 with
    fab := { ports := [(64, { frames := [{ src := 1, prio := 0, seq := 0, ct := true, left := 1, cells := 1 }] })]
             inFrames := [{ input := 1, prio := 0, seq := 0, sofAt := 0, len := 256, ct := true, bad := true }]
             nextId := 1 } }

/-- The output queues the tail cell marked poisoned (R74). -/
theorem cellAdmission_badFrameTail (t : State) (h : exec (.cellAdmission 1 badFrameTail) badFrameUnderway = .next t) :
    (outPort t 64).cells = [{ id := 1, cell := { badFrameTail with hdr := { badFrameTail.hdr with poison := true } } }] := by
  cases h
  decide

/-- Refutes O3: in `badFrameUnderway` the admission clause asks for the tail cell queued as it came, but its frame is bad and the cell is
queued poisoned. -/
theorem not_fabricCellsAndAccumulators : ¬ Obligations.FabricCellsAndAccumulators := by
  unfold Obligations.FabricCellsAndAccumulators
  rintro ⟨hadmission, -⟩
  obtain ⟨t, hexec, hcells⟩ :=
    hadmission 1 64 badFrameTail badFrameUnderway rfl (by decide) rfl rfl (by decide) (by decide) (by decide)
  rw [cellAdmission_badFrameTail t hexec] at hcells
  exact absurd hcells (by decide)

end Sys2Proof.Machine
end

section
/-! SUPPORT. Obligation O23: counters, snapshots, dumps and frame samples (R357 to R366), and PF1's host ring (R350). -/

namespace Sys2Proof.Machine

/-! ## Requests (Table 10.7) -/

theorem exec_counterRead_of_ready {s : State} {ch : Nat} (h : Safety.mbxReady s ch 0x801 = true)
    (hn : 1 ≤ fieldAt (Safety.payOf s ch) 2 2 ∧ fieldAt (Safety.payOf s ch) 2 2 ≤ 500)
    (hlast : fieldAt (Safety.payOf s ch) 0 2 + fieldAt (Safety.payOf s ch) 2 2 ≤ 2048) :
    exec (.counterRead ch) s = .next (respond s ch 0 0 0 (leBytes 8 (nowOf s) ++ ((List.range (fieldAt (Safety.payOf s ch) 2 2)).map
      (fun i => leBytes 8 (ctrWord s.tel.ctrs (fieldAt (Safety.payOf s ch) 0 2 + i)))).flatten)) := by
  have hrange : ¬ (fieldAt (Safety.payOf s ch) 2 2 = 0 ∨ 500 < fieldAt (Safety.payOf s ch) 2 2 ∨
      2048 < fieldAt (Safety.payOf s ch) 0 2 + fieldAt (Safety.payOf s ch) 2 2) := by omega
  show execCounterRead ch s = _
  simp only [execCounterRead, mbxRow_of_ready h, noGen_zero, if_neg hrange]

theorem exec_dumpConfig_of_ready {s : State} {ch : Nat} (h : Safety.mbxReady s ch 0x802 = true)
    (hp : fieldAt (Safety.payOf s ch) 0 4 ≤ 10000) :
    exec (.dumpConfig ch) s =
      .next (respond (dumpCfg s (fieldAt (Safety.payOf s ch) 0 4) (fieldAt (Safety.payOf s ch) 4 1 % 2 == 1)) ch 0 0 0 []) := by
  show execDumpConfig ch s = _
  simp only [execDumpConfig, mbxRow_of_ready h, noGen_zero, if_neg (Nat.not_lt.2 hp)]

theorem exec_sampleConfig_of_ready {s : State} {ch : Nat} (h : Safety.mbxReady s ch 0x803 = true)
    (hc : fieldAt (Safety.payOf s ch) 0 4 = 0 ∨ 16 ≤ fieldAt (Safety.payOf s ch) 0 4)
    (hctop : fieldAt (Safety.payOf s ch) 0 4 < 16777216) (hftop : fieldAt (Safety.payOf s ch) 4 4 < 16777216) :
    exec (.sampleConfig ch) s = .next (respond (setFld (setFld s .telSampleCfg 23 0 (fieldAt (Safety.payOf s ch) 0 4))
      .fabSampleCfg 23 0 (fieldAt (Safety.payOf s ch) 4 4)) ch 0 0 0 []) := by
  have hrange : ¬ ((0 < fieldAt (Safety.payOf s ch) 0 4 ∧ fieldAt (Safety.payOf s ch) 0 4 < 16) ∨
      2 ^ 24 ≤ fieldAt (Safety.payOf s ch) 0 4 ∨ 2 ^ 24 ≤ fieldAt (Safety.payOf s ch) 4 4) := by omega
  show execSampleConfig ch s = _
  simp only [execSampleConfig, mbxRow_of_ready h, noGen_zero, if_neg hrange]

/-! ## Snapshots (R360, R361) -/

/-- The dump that a trigger takes into a buffer (R361). -/
def snapshotDump (s : State) (trigger : Nat) : Dump :=
  { seq := s.tel.dumpSeq, trigger := trigger, period := fld s .telDumpCfg 13 0, time := nowOf s, missed := s.tel.missedSince
    ctrs := s.tel.ctrs, dramLeft := flag s .telCtrl 0, pf1Left := flag s .telDumpCfg 32 }

/-- With both buffers free and DRAM awake, a trigger takes the next sequence number, and its dump stands in buffer 0 while a write of it is
to come (R361, log entry 38). -/
theorem snapshot_of_free {s : State} (trigger : Nat) (hb : s.tel.bufs = []) (hd : s.boot.dramSelfRefresh = false) :
    nowOf (snapshot s trigger) = nowOf s ∧ (snapshot s trigger).tel.dumpSeq = s.tel.dumpSeq + 1 ∧
      (snapshot s trigger).tel.missed = s.tel.missed ∧
      (snapshot s trigger).tel.bufs = if flag s .telCtrl 0 || flag s .telDumpCfg 32 then [(0, snapshotDump s trigger)] else [] := by
  have hfree : [0, 1].find? (fun i => !(thas s.tel.bufs i)) = some 0 := by simp [hb, thas]
  unfold snapshot
  simp only [hfree, hd, Bool.false_eq_true, if_false]
  obtain ⟨b, c, hcount⟩ := count_frame _ 0x7F0
  rw [hcount]
  exact ⟨rfl, rfl, rfl, by simp [hb, tput, snapshotDump]⟩

@[simp] theorem missTriggers_zero (s : State) : missTriggers s 0 = s := rfl

/-- Shelf time carried to a period multiple, which is then accounted for (R360). -/
def atMultiple (s : State) (due : Nat) : State := { reach s due with tel := { s.tel with lastPeriodic := due } }

theorem nowOf_reach_later {s : State} {due : Nat} (h : nowOf s < due) : nowOf (reach s due) = due := Nat.max_eq_right (Nat.le_of_lt h)

theorem snapshot_atMultiple_of_free {s : State} {due : Nat} (h : nowOf s < due) (hb : s.tel.bufs = []) (hd : s.boot.dramSelfRefresh = false) :
    nowOf (snapshot (atMultiple s due) 1) = due ∧ (snapshot (atMultiple s due) 1).tel.dumpSeq = s.tel.dumpSeq + 1 ∧
      (snapshot (atMultiple s due) 1).tel.missed = s.tel.missed := by
  obtain ⟨htime, hseq, hmissed, -⟩ := snapshot_of_free (s := atMultiple s due) 1 hb hd
  exact ⟨htime.trans (nowOf_reach_later h), hseq, hmissed⟩

/-- Before its next period multiple, SNAPSHOT_PERIODIC misses no trigger. -/
theorem exec_snapshotPeriodic_of_early {s : State} (hp : dumpPeriod s ≠ 0)
    (hnow : nowOf s < (s.tel.lastPeriodic / dumpPeriod s + 1) * dumpPeriod s) :
    exec .snapshotPeriodic s = .next (snapshot (atMultiple s ((s.tel.lastPeriodic / dumpPeriod s + 1) * dumpPeriod s)) 1) := by
  have hdue := nowOf_reach_later hnow
  show execSnapshotPeriodic s = _
  unfold execSnapshotPeriodic
  generalize dumpPeriod s = p at hp hdue ⊢
  extract_lets _ k reached m _ counted
  have hm : m = k + 1 := by
    unfold m reached k
    rw [hdue, Nat.mul_div_cancel _ (Nat.pos_of_ne_zero hp)]
  have hmissed : m - k - 1 = 0 := by omega
  unfold counted
  rw [if_neg hp, hmissed, missTriggers_zero, hm]
  rfl

theorem snapCmd_of_no_period {s : State} (hp : dumpPeriod s = 0) : snapCmd s = snapshot s 2 := by
  simp [snapCmd, hp]

/-! ## PF1's host ring (R350, R352) -/

/-- A vector signalled by PF1 changes its function and adds to the emissions, and no more (R346, R352). -/
theorem msixVector_pf1_frame (s : State) (v : Nat) :
    ∃ f o, msixVector s 1 v = { s with sep := { s.sep with pf1 := f }, out := o ++ s.out } := by
  unfold msixVector
  dsimp only
  split
  · exact ⟨s.sep.pf1, [], rfl⟩
  · split
    · exact ⟨_, [], rfl⟩
    · exact ⟨s.sep.pf1, [.msix 1 v], rfl⟩

@[simp] theorem dumpDone_sep (s : State) (i : Nat) (dram : Bool) : (dumpDone s i dram).sep = s.sep := by
  unfold dumpDone
  split <;> rfl

@[simp] theorem dumpDone_out (s : State) (i : Nat) (dram : Bool) : (dumpDone s i dram).out = s.out := by
  unfold dumpDone
  split <;> rfl

/-- The one dump there is, is the oldest for PF1. -/
theorem oldest_pf1_of_single {l : Tab Dump} {i : Nat} {d : Dump} (hb : l = [(i, d)]) (hd : d.pf1Left = true) :
    (sortBy (fun a b => decide (a.2.seq ≤ b.2.seq)) (l.filter (fun e => e.2.pf1Left))).head? = some (i, d) := by
  simp [hb, hd, sortBy, insertBy]

section
variable {s : State} {i : Nat} {d : Dump}

/-- A dump in the host ring at TAIL, which has risen (R350). -/
def pf1Written (s : State) (d : Dump) : State :=
  { emit s (.hostWrite 1 (s.sep.ringBase.toNat + s.sep.tail % s.sep.slots * 20480) (dumpBytes d) false) with
    sep := { s.sep with tail := (s.sep.tail + 1) % 4294967296 } }

/-- A dump that found no slot free, counted in DROPPED (R350). -/
def pf1Dropped (s : State) : State := { s with sep := { s.sep with dropped := min 4294967295 (s.sep.dropped + 1) } }

theorem exec_pf1DumpWrite_of_room (hb : s.tel.bufs = [(i, d)]) (hd : d.pf1Left = true) (hen : s.sep.ringEn = true)
    (hlive : fnLive s.sep.pf1 = true) (hroom : (s.sep.tail + 4294967296 - s.sep.head) % 4294967296 < s.sep.slots) :
    exec .pf1DumpWrite s = .next (msixVector (count (dumpDone (pf1Written s d) i false) 0x7C3) 1 0) := by
  show execPf1DumpWrite s = _
  simp [execPf1DumpWrite, oldest_pf1_of_single hb hd, hen, hlive, hroom, pf1Written]

theorem exec_pf1DumpWrite_of_full (hb : s.tel.bufs = [(i, d)]) (hd : d.pf1Left = true) (hen : s.sep.ringEn = true)
    (hlive : fnLive s.sep.pf1 = true) (hfull : s.sep.slots ≤ (s.sep.tail + 4294967296 - s.sep.head) % 4294967296) :
    exec .pf1DumpWrite s = .next (msixVector (count (dumpDone (pf1Dropped s) i false) 0x7C4) 1 1) := by
  show execPf1DumpWrite s = _
  simp [execPf1DumpWrite, oldest_pf1_of_single hb hd, hen, hlive, Nat.not_lt.2 hfull, pf1Dropped]

theorem exec_pf1DumpWrite_of_disabled (hb : s.tel.bufs = [(i, d)]) (hd : d.pf1Left = true) (hen : s.sep.ringEn = false) :
    exec .pf1DumpWrite s = .next (dumpDone s i false) := by
  show execPf1DumpWrite s = _
  simp [execPf1DumpWrite, oldest_pf1_of_single hb hd, hen]

end

/-! ## DRAM areas (R362, R366) -/

theorem exec_dumpWriteComplete_of_pending {s : State} {buffer : Nat} {d : Dump} (hb : tget s.tel.bufs buffer = some d)
    (hleft : d.dramLeft = true) (hd : s.boot.dramSelfRefresh = false) (hen : flag s .telCtrl 0 = true) :
    exec (.dumpWriteComplete buffer) s = .next (dumpDone
      (setBit (store s ((bankGet s .telAreaBase).toNat + d.seq % 256 * 20480) (dumpBytes d)) .telEvent 0) buffer true) := by
  show execDumpWriteComplete buffer s = _
  simp [execDumpWriteComplete, hb, hleft, hd, hen]

theorem exec_frameSampleExport_of_held {s : State} {r : FrameSample} {rest : List FrameSample} (hr : s.fab.samples = r :: rest)
    (hen : flag s .telCtrl 0 = true) (hd : s.boot.dramSelfRefresh = false) :
    exec .frameSampleExport s = .next (store { s with fab := { s.fab with samples := rest } }
      ((bankGet s .telAreaBase).toNat + 0xC00000 + r.sampleSeq % 65536 * 160) (frameSampleBytes r)) := by
  have hflag : flag { s with fab := { s.fab with samples := rest } } .telCtrl 0 = true := hen
  show execFrameSampleExport s = _
  simp only [execFrameSampleExport, hr, hflag, hd, Bool.not_false, Bool.and_self, if_true]
  rfl

/-- Settles O23: each clause is the equation of its row in the case that the clause names. -/
theorem telemetryCountsAndDumps : Obligations.TelemetryCountsAndDumps := by
  unfold Obligations.TelemetryCountsAndDumps
  refine ⟨?counterWrap, ?counterRead, ?periodic, ?snap, ?dumpConfig, ?sampleConfig, ?dramDump, ?pf1Room, ?pf1Full, ?pf1Off, ?sample⟩
  case counterWrap =>
    intro counter value s hk hv
    show execCounterWrap counter value s = _
    simp [execCounterWrap, hk, hv]
  case counterRead => exact fun ch s h hn hlast => exec_counterRead_of_ready h hn hlast
  case periodic =>
    intro s hp hnow hb hd
    exact ⟨_, exec_snapshotPeriodic_of_early hp hnow, snapshot_atMultiple_of_free hnow hb hd⟩
  case snap =>
    intro s hp hb hd
    obtain ⟨-, hseq, -, hbufs⟩ := snapshot_of_free (s := s) 2 hb hd
    refine ⟨snapshot s 2, congrArg _ (snapCmd_of_no_period hp), hseq, ?_⟩
    rw [hbufs]
    split <;> rfl
  case dumpConfig => exact fun ch s h hp => exec_dumpConfig_of_ready h hp
  case sampleConfig => exact fun ch s h hc hctop hftop => exec_sampleConfig_of_ready h hc hctop hftop
  case dramDump => exact fun buffer d s hb hleft hd hen => exec_dumpWriteComplete_of_pending hb hleft hd hen
  case pf1Room =>
    intro i d s hb hd hen hlive hroom
    refine ⟨_, exec_pf1DumpWrite_of_room hb hd hen hlive hroom, ?_⟩
    obtain ⟨f, o, hvector⟩ := msixVector_pf1_frame (count (dumpDone (pf1Written s d) i false) 0x7C3) 0
    rw [hvector]
    simp [pf1Written, emit]
  case pf1Full =>
    intro i d s hb hd hen hlive hfull
    refine ⟨_, exec_pf1DumpWrite_of_full hb hd hen hlive hfull, ?_⟩
    obtain ⟨f, o, hvector⟩ := msixVector_pf1_frame (count (dumpDone (pf1Dropped s) i false) 0x7C4) 1
    rw [hvector]
    simp [pf1Dropped]
  case pf1Off => exact fun i d s hb hd hen => exec_pf1DumpWrite_of_disabled hb hd hen
  case sample => exact fun r rest s hr hen hd => exec_frameSampleExport_of_held hr hen hd

end Sys2Proof.Machine
end
